-- ==== Sys2Proof/Word.lean ====
section
/-! DEFINITION. The words of the module: a register word, a byte of a frame, a stroke number and a die number. -/
namespace Sys2Proof

/-- A 32-bit register word (R19, R4). -/
abbrev Word := BitVec 32

/-- A byte of a frame, a packet or a RAM. -/
abbrev Byte := BitVec 8

/-- The 48-bit stroke number (R41). -/
abbrev Stroke := BitVec 48

/-- One of the eight stack dies SD0 to SD7 of the MVS-8128. -/
abbrev Die := Fin 8

/-- One of two: a converter channel CX0 or CX1, or a Quill lane Q0 or Q1. -/
abbrev Pair := Fin 2

end Sys2Proof
end

