-- ==== Sys2Proof/Syntax.lean ====
section
/-! DEFINITION. The commands of the block: one constructor for each row of the table of operations and events. What
the outside world supplies to a step (a reading, a comparator, a reply, a frame) is an operand of its row; what the
module itself knows is state. -/
namespace Sys2Proof

/-- The two receive ports of a die (chapter The Uselm Ring): A-in on ring A, B-in on ring B. -/
inductive Port where
  | a | b
  deriving DecidableEq, Repr

/-- What the boot ROM reads from outside the die when it starts (R17, R295, R296, R423). -/
structure BootFacts where
  /-- the ROM signature matches -/
  romOk      : Bool
  /-- the fuse parity is correct -/
  fuseOk     : Bool
  /-- the position straps POS[2:0] -/
  pos        : Nat
  /-- the TOP strap -/
  top        : Bool
  /-- the cell-count straps CST[3:0] -/
  cst        : Nat
  /-- the die temperature, LSB as THM_TDIE.TDIE (R295) -/
  temp       : Int
  /-- a self-test slice was in progress when the reset came (R415) -/
  inSlice    : Bool
  /-- copies of the folio whose stored bytes no longer give the sealed CRC: A, B (R314) -/
  rotA       : Bool
  rotB       : Bool
  /-- rows failing the memory test: macro, row, and the one failing bit if the failure is confined to one -/
  rowFails   : List (Nat × Nat × Option Nat)
  deriving DecidableEq, Repr

/-- The readings of the current senses at a stroke edge, before their correction (R151, R339): ICELL and ISPAN of both channels over the
stroke that ended, and each ICELL over its four FIR1 intervals, LSB 125 µA; and its lowest VREG5, LSB 2 mV (R407). -/
structure Senses where
  icell0 : Int
  ispan0 : Int
  icell1 : Int
  ispan1 : Int
  fir0   : List Int
  fir1   : List Int
  vreg5  : Nat
  deriving DecidableEq, Repr

/-- Engine cycles that a data-RAM read loses to each contender of Table 07.1: CFE result writes, SHD and FCOL accesses, a BIST slice, and the
command port (R44, R174). -/
structure Stall where
  cfe  : Nat
  shd  : Nat
  bist : Nat
  port : Nat
  deriving DecidableEq, Repr

/-- What the line-scheduled work measures (R156, R169, R406). -/
structure LineMeas where
  /-- mean on-current of each bleed switch in the ended line, mA -/
  ion     : List Nat
  /-- current into VSTK less the converters' net span current, dummy load off, LSB 0.1 µA -/
  draw    : Nat
  /-- VSTK − GSEG, LSB 2 mV -/
  vstk    : Nat
  /-- VREG5, LSB 2 mV -/
  vreg5   : Nat
  deriving DecidableEq, Repr

/-- What the page-scheduled work measures (R343, R344, R374). -/
structure PageMeas where
  /-- Zener minus bandgap, ppm -/
  dis        : Int
  /-- REFX reads 2.500 V within 0.5% against both internal references -/
  refxOk     : Bool
  /-- bandgap minus REFX, ppm -/
  bgRefx     : Int
  /-- Zener minus REFX, ppm -/
  zRefx      : Int
  /-- the hidden test source reaches the reaction logic -/
  testSrcOk  : Bool
  /-- the ring-wide blot that an acting Ring Head schedules: stroke and ID (R34) -/
  blot       : Option (Nat × Nat)
  /-- copies of the folio whose stored bytes no longer give the sealed CRC: A, B -/
  rotA       : Bool
  rotB       : Bool
  deriving DecidableEq, Repr

/-- The outputs of one primary channel before correction and clamping, in µV (for the span in units of 16 µV), for the FINE, LINE
and COMPARE stages (R63, R64). -/
structure ChanIn where
  fine : Int
  line : Int
  cmp  : Int
  deriving DecidableEq, Repr

/-- What the lane returns to one walk of a search (R216): the roll-call slot, the tally of each digit step in turn, and
the echo of the function sent to the nib found. -/
structure WalkIn where
  rollCall : Bool
  tallies  : List Nat
  echo     : Nat
  deriving DecidableEq, Repr

/-- What the lane returns to a lane start (R226, R211): the walks of its search, and whether a nib answers the roll-call of the CLEAR_ALL
reset and of the reset before STREAM. -/
structure StartIn where
  walks  : List WalkIn
  clear  : Bool
  stream : Bool
  deriving DecidableEq, Repr

/-- What the lane returns to a census (R229, R211): the walks of its search, and whether a nib answers the roll-call of the reset before
STREAM. -/
structure CensusIn where
  walks  : List WalkIn
  stream : Bool
  deriving DecidableEq, Repr

/-- The module and the die that a BEACON names as its source (R49, R243). -/
structure BeaconSrc where
  smod : Nat
  sdie : Die
  deriving DecidableEq, Repr

/-- What a power controller measures at the end of an entry (R57, R170): the stroke phase latched, and the current into VSTK with the
dummy load off, LSB 0.1 µA. -/
structure EntryIn where
  phase : Nat
  draw  : Nat
  deriving DecidableEq, Repr

/-- The supplies at a nightcap check (R403, R170): VREG5 below its warning level, and the current into VSTK with the dummy load off, LSB
0.1 µA. -/
structure SupplyIn where
  vreg5Low : Bool
  draw     : Nat
  deriving DecidableEq, Repr

/-- The moment of an event as the receiving die works it out (R30): its own MCLK cycle of it, and whether that lies in the stroke before
the one in progress at the arrival. -/
structure EventAt where
  cycle : Nat
  last  : Bool
  deriving DecidableEq, Repr

/-- What a BLOT frame brings beside its source, SEQ and stroke (R249): the port of its arrival and its identifier. -/
structure BlotIn where
  port : Port
  id   : Nat
  deriving DecidableEq, Repr

/-- A frame as it arrives at a receive port (R243, R252). -/
structure FrameIn where
  ftype   : Nat
  ringb   : Bool
  wrap    : Bool
  /-- further frames with the same TAG follow (FLAGS [6]) -/
  more    : Bool
  dmod    : Nat
  ddie    : Nat
  smod    : Nat
  sdie    : Nat
  tag     : Nat
  seq     : Nat
  len     : Nat
  payload : List Byte
  /-- the CRC checks -/
  crcOk   : Bool
  /-- no code violation -/
  codeOk  : Bool
  /-- ends in /T/ -/
  endT    : Bool
  deriving DecidableEq, Repr

/-- A receive port that leaves UP, and the frame that was being received (R241). -/
structure PortCut where
  port : Port
  cut  : Option FrameIn
  deriving DecidableEq, Repr

/-- Ramp readings of every cell and of the span over the lines of an open-wire test, before their correction, µV (R95, R105, R339). -/
structure RampIn where
  base  : List Int
  l1    : List Int
  l4    : List Int
  spanB : Int
  span1 : Int
  span4 : Int
  /-- a reading of the cell carried RANGE -/
  range : List Bool
  deriving DecidableEq, Repr

/-- Ramp readings of every cell over two lines of a step stage, an on line and the off line after it, in µV (R112). -/
structure StepPair where
  on  : List Int
  off : List Int
  deriving DecidableEq, Repr

/-- The windows of a voltage item in units of 1/8 µV (R348). -/
structure CalWin where
  zero : Int
  vcal : Int
  deriving DecidableEq, Repr

/-- The readings of a current-sense item (R346): the voltage across RCAL in µV, the sense's reading of I_T and its
reading without current, LSB 10 µA, each before and in the repeat. -/
structure RcalIn where
  rcalUV : Int
  onRead : Int
  offRead : Int
  onRep  : Int
  offRep : Int
  deriving DecidableEq, Repr

/-- Where a LOAD command comes from: a journal entry of the die, or a ring-wide frame (R274). -/
inductive CmdSrc where
  | entry (seq : Nat)
  | ringWide (f : FrameIn)
  deriving DecidableEq, Repr

/-- What an uncorrectable word of retention RAM belongs to (source 152): a journal entry, a folio copy (B or not), a roster
entry, or none of these. -/
inductive EccTarget where
  | journal (seq : Nat)
  | folio (b : Bool)
  | roster (e : Nat)
  | other
  deriving DecidableEq, Repr

/-- The commands of the module: the rows of opcode_table.json in their order. -/
inductive Instr where
  -- start and time
  | coldStart (d : Die) (b : BootFacts)
  | dieReset (d : Die) (b : BootFacts)
  | folioReapply (d : Die)
  | strokeEdge (d : Die) (x : Senses)
  | lineBoundary (d : Die) (m : LineMeas)
  | pageBoundary (d : Die) (m : PageMeas)
  | ringHeadChange (d : Die)
  -- the windows of a stroke
  | cfeLatch (d : Die) (chans : List ChanIn)
  | shdConversion (d : Die) (code spanCode testCode : Nat) (verdictOk : Bool)
  | auxConversion (d : Die) (codeA codeB : Nat) (diff : Int)
  | bceStrokeProgram (d : Die) (stalls : List Stall)
  | pgenStep (d : Die)
  | eisCorrelate (d : Die) (finished : Bool)
  | streamFrameAssemble (d : Die)
  | nibRosterTransfer (d : Die) (parity : Option (Nat × Bool))
  | thmEvaluation (d : Die) (readings : List Int) (coreMW : Nat)
  | thermalHoldSet (d : Die)
  | cutTrip (d : Die) (sensor : Fin 5)
  | cutRelease (d : Die) (sensor : Fin 5)
  | bistSlice (d : Die) (finished : Bool) (response : Word) (rowFails : List (Nat × Nat × Option Nat))
  | pwrHandshakeStep (d : Die)
  | fcolEvaluation (d : Die) (parityOk readbackOk : Bool)
  | ucIsolationLift (d : Die)
  | resumeApply (d : Die)
  | clockMonitorCheck (d : Die) (count : Nat) (lfAlive : Bool)
  | watchdogExpiry (d : Die)
  | coreException (d : Die)
  -- beacons and ring time
  | beaconReceived (d : Die) (p : Port) (src : BeaconSrc) (wrap : Bool) (stroke : Stroke) (current : BitVec 24) (delay : BitVec 24)
    (offset : Int)
  | timeStep (d : Die)
  | countReplacement (d : Die)
  | pllLocked (d : Die)
  | pllUnlock (d : Die)
  | beaconLossHoldover (d : Die)
  | linkBeaconMissing (d : Die) (p : Port)
  | beaconSend (d : Die)
  -- commands and the journal
  | cmdFrameArrival (d : Die) (f : FrameIn)
  | journalMirrorReceived (d ward : Die) (seq : Nat)
  | mirrorAckReceived (d : Die) (seq : Nat)
  | commitRecordReceived (d ward : Die) (seq : Nat)
  | commitAckReceived (d : Die) (seq : Nat)
  | seqGapEvent (d : Die)
  | dozeCommandWake (d : Die)
  -- ring frames
  | transitFrameReceived (d : Die) (p : Port) (f : FrameIn)
  | frameInsertion (d : Die)
  | blotFrameReceived (d : Die) (smod seq : Nat) (at_ : Stroke) (blot : BlotIn)
  | ringBlotFire (d : Die)
  | echoProbeReceived (d : Die) (id : Nat)
  | echoReplySend (d : Die) (tadj : Nat)
  | echoReplyReceived (d : Die) (rtt tadj : Nat)
  | echoTimeout (d : Die)
  | faultOrderReceived (d src : Die) (assert : Bool)
  | heartbeatReceived (d src : Die)
  | neighbourLost (d n : Die)
  | masterTakeover (d : Die)
  | rosterUpdateReceived (d src : Die) (e : Nat)
  | moduleCommonWriteRelay (d src : Die) (seq : Nat)
  | broadcastWriteRelay (d src : Die) (seq : Nat)
  | portSignalLoss (d : Die) (p : PortCut)
  | portSignalPresent (d : Die) (p : Port)
  | portTrained (d : Die) (p : Port)
  | portCodeViolations (d : Die) (p : PortCut)
  | wakeBurstDetected (d : Die) (p : Port)
  | wakePin (d : Die) (pin : Pair) (level : Bool) (ticks : Nat)
  | wakeLineAsserted (d : Die)
  | blotInEdge (d : Die) (level : Bool) (cycle : Nat)
  | blotLineEdge (d src : Die) (at_ : EventAt)
  | snapshotLatch (d : Die)
  -- lanes and nibs
  | laneStart (d : Die) (q : Pair) (found : StartIn)
  | census (d : Die) (q : Pair) (found : CensusIn) (echoes : List Nat)
  | streamCycleStart (d : Die) (q : Pair) (hold : Nat) (held : Bool)
  | nibWindowDecision (d : Die) (q : Pair) (slot : Nat) (wire : BitVec 40)
  | laneShort (d : Die) (q : Pair)
  | dutyGovernorRelease (d : Die) (q : Pair) (lowUs highUs : Nat)
  -- balancing and open wires
  | selectionChange (d : Die) (n : Pair)
  | stopRampComplete (d : Die) (n : Pair)
  | peakLimit (d : Die) (n : Pair)
  | bleedOvercurrent (d : Die) (cell : Fin 16)
  | openWireTestStart (d : Die)
  | openWireSkipPage (d : Die)
  | openWireCurrentOn (d : Die)
  | openWireVerdict (d : Die) (r : RampIn)
  | openWireAbandon (d : Die)
  | stepStageEnd (d : Die) (p0 p1 p2 p3 : StepPair)
  | allWireVerdict (d : Die) (r : RampIn)
  | deviationClassify (d : Die) (cell : Fin 16)
  -- impedance
  | eisChannelGrant (d : Die) (n : Pair)
  | eisWindowOpen (d : Die) (sw : Fin 3)
  | eisInjectionEnd (d : Die) (n : Pair)
  | eisNextBin (d : Die) (sw : Fin 3)
  | eisWaitTimeout (d : Die) (n : Pair)
  -- calibration, element tests and repair
  | calPassStart (d : Die)
  | calItemGrant (d : Die)
  | calCandidate (d : Die) (w : CalWin)
  | calItemVerdict (d : Die) (w : CalWin)
  | currentSenseItem (d : Die) (item : Fin 4) (r : RcalIn)
  | calPassEnd (d : Die)
  | elementTestStart (d : Die)
  | elementTestVerdict (d : Die) (readings : List Int)
  | channelRepair (d : Die) (c : Nat)
  -- firmware image
  | imageCheck (d : Die)
  | imageCheckComplete (d : Die)
  | loadMissingSend (d : Die)
  | loadResultSend (d : Die)
  | firmwareRetransmit (d : Die) (smod loadid : Nat) (blocks : List Nat)
  | commandLoopReached (d : Die)
  | folioSwitch (d : Die)
  -- power
  | entryDelayLimit (d : Die)
  | ringReleaseTimeout (d : Die)
  | sleepCommit (d : Die) (ratio : Nat) (entry : EntryIn)
  | entryAbandon (d : Die)
  | domainRestart (d : Die)
  | wakeFromSleep (d : Die) (ticks : Nat) (b : BootFacts)
  | sleepTickSaturate (d : Die)
  | nightcapCheck (d : Die) (codes1 codes2 : List Nat) (span1 span2 test1 test2 : Nat) (readings : List Int) (supply : SupplyIn)
  | nightcapRecheck (d : Die) (codes1 codes2 : List Nat) (span1 span2 test1 test2 : Nat) (readings : List Int) (supply : SupplyIn)
  | supplyDip (d : Die) (vreg5 : Nat)
  | supplyDipEnd (d : Die) (vreg5 : Nat)
  | supplyLoss (d : Die) (vstkLow vreg5Low : Bool)
  | lastgaspSend (d : Die)
  | powerOnReset (d : Die)
  | vstkOvervoltage (d : Die) (vstk : Nat)
  | perfLevelTransitionEnd (d : Die)
  -- the opcodes of the command set: `seq` names the journal entry whose turn it is; the operands of the command are
  -- the parameter block of that entry's packet
  | ping (d : Die) (f : FrameIn)
  | read (d : Die) (seq : Nat)
  | write (d : Die) (seq : Nat)
  | enumerate (d : Die) (f : FrameIn)
  | streamSet (d : Die) (seq : Nat)
  | fineSelect (d : Die) (seq : Nat)
  | balManager (d : Die) (seq : Nat)
  | balCharge (d : Die) (seq : Nat)
  | balBleed (d : Die) (seq : Nat)
  | balStop (d : Die) (seq : Nat)
  | eisPlan (d : Die) (seq : Nat)
  | eisStart (d : Die) (seq : Nat)
  | eisResults (d : Die) (seq : Nat)
  | ztModel (d : Die) (seq : Nat)
  | nibRead (d : Die) (seq : Nat)
  | nibAssoc (d : Die) (seq : Nat)
  | nibAction (d : Die) (seq : Nat)
  | nibLane (d : Die) (seq : Nat)
  | ringRole (d : Die) (seq : Nat)
  | ringStatus (d : Die) (seq : Nat)
  | loadBegin (d : Die) (src : CmdSrc)
  | loadData (d : Die) (src : CmdSrc)
  | loadEnd (d : Die) (src : CmdSrc)
  | loadStatus (d : Die) (seq : Nat)
  | loadBoot (d : Die) (src : CmdSrc)
  | folioWrite (d : Die) (seq : Nat)
  | folioSeal (d : Die) (seq : Nat)
  | folioStatus (d : Die) (seq : Nat)
  | faultRead (d : Die) (seq : Nat)
  | faultClear (d : Die) (seq : Nat)
  | faultResume (d : Die) (seq : Nat)
  | faultInject (d : Die) (seq : Nat)
  | powerState (d : Die) (seq : Nat)
  | perfLevel (d : Die) (seq : Nat)
  | sleepAbortStatus (d : Die) (seq : Nat)
  | selftestRun (d : Die) (seq : Nat)
  | calRun (d : Die) (seq : Nat)
  | check (d : Die) (seq : Nat)
  | snapRead (d : Die) (seq : Nat)
  | snapArm (d : Die) (seq : Nat)
  | lcyStatus (d : Die) (seq : Nat)
  | lcyChallenge (d : Die) (seq : Nat)
  | lcyResponse (d : Die) (seq : Nat)
  | lcyAdvance (d : Die) (seq : Nat)
  | lifecycleTransitionDone (d : Die)
  -- register writes and reads with an effect of their own
  | owdSingleWireRequest (d : Die) (wire : Nat) (cur pol : Bool)
  | owdAllWireRequest (d : Die)
  | eisCmdGo (d : Die) (sw plan cell passes : Nat)
  | eisCmdStop (d : Die) (sw : Nat)
  | cxsQtgtWrite (d : Die) (cell : Fin 16) (w : Word)
  | cxsEnWrite (d : Die) (n : Pair) (w : Word)
  | injGo (d : Die) (slot : Fin 4) (w : Word)
  | injStop (d : Die) (slot : Fin 4) (w : Word)
  | captureArm (d : Die) (w : Word)
  | qlnRestart (d : Die) (q : Pair)
  | qlnCensus (d : Die) (q : Pair)
  | qlnStop (d : Die) (q : Pair)
  | rawReset (d : Die) (q : Pair) (rollCall : Bool)
  | rawWrite (d : Die) (q : Pair) (nbits data : Nat)
  | rawRead (d : Die) (q : Pair) (nbits : Nat) (bits : Nat)
  | rawStep (d : Die) (q : Pair) (data : Nat) (tally : Nat)
  | rawStream (d : Die) (q : Pair) (data : Nat)
  | modNibEntryWrite (d : Die) (e : Nat) (word : Fin 4) (w : Word)
  | chkGo (d : Die) (byFirmware : Bool)
  | chkAbort (d : Die)
  | chkRunDone (d : Die) (ecc : Option EccTarget)
  | folDataWrite (d : Die) (n : Nat) (w : Word)
  | folSealcrcWrite (d : Die) (w : Word)
  | folModeselWrite (d : Die) (w : Word)
  | holdclr (d : Die)
  | sensorExclClear (d : Die) (sensor : Fin 5)
  | cutmaskWrite (d : Die) (w : Word)
  | calGo (d : Die)
  | calAbort (d : Die)
  | fbclr (d : Die)
  | fcolStkWrite (d : Die) (n : Fin 8) (w : Word)
  | resume (d : Die)
  | evclr (d : Die)
  | kick (d : Die)
  | fcolInjWrite (d : Die) (w : Word)
  | snapCtrlArm (d : Die) (force : Bool)
  | fire (d : Die)
  | snapHdr0Read (d : Die) (latched : Bool)
  | ulkStrokeLoRead (d : Die)
  | pwrWake (d : Die)
  | woclr (d : Die)
  | padrel (d : Die) (mask : Nat)
  | bistFuseGo (d : Die)
  | fuseProgrammingDone (d : Die) (readbackOk : Bool)
  | bistAbort (d : Die)
  | programSlot (d : Die) (slot : Fin 4)
  | revokeSlot (d : Die) (slot : Fin 4)
  | programServiceKey (d : Die)
  | registerWrite (d : Die) (addr : Nat) (w : Word)
  | vstkOvervoltageClear (d : Die) (vstk : Nat)
  | faultToneChange (d : Die) (present : Bool)
  | relayOutcomeReceived (d src : Die) (seq : Nat)
  | keyFuseProgrammingDone (d : Die) (readbackOk : Bool)
  | ramEccError (d : Die) (ram : Fin 3) (correctable : Bool) (target : EccTarget)
  deriving DecidableEq, Repr

end Sys2Proof
end

