-- ==== Sys2Proof/Decode.lean ====
section
/-! DEFINITION. The table of operations and events gives no row any bits: the module takes commands, not words of an
instruction memory, and no number spells one. -/
namespace Sys2Proof

/-- The command that `nbits` bits of a word spell by the table: none, for the table's rows carry no bits. -/
def decodeTableWord (_nbits _w : Nat) : Option Instr := none

end Sys2Proof
end

