-- ==== Sys2Proof/Config.lean ====
section
/-! DEFINITION. What the spec leaves open: free values, each a constant without a body, so that a statement holds whatever
they are. -/
namespace Sys2Proof.Config

/-- A byte of data RAM or retention RAM that the spec gives no contents for: by address and draw (assumption 3). -/
opaque ramByte : Nat → Nat → BitVec 8

/-- A byte of a nonce: by draw and index (assumption 5). -/
opaque nonceByte : Nat → Nat → BitVec 8

/-- 2^20 times the sine of a phase given as a fraction of a turn, numerator and denominator, as the part computes it: R198
bounds its error only (assumption 6). -/
opaque sine : Nat → Nat → Int

/-- The gain of H_V of R131 in units of 2^-60, and its phase beyond that of the filters' group delay in turns of 2^-16 (assumption 7): by
FINE corner code, notch centre in force (0 with the notch off), and the bin's K and N. The die holds it exactly; the spec states bounds
of the filters (R66, R68) and no coefficients. -/
opaque fineResponse : Nat → Nat → Nat → Nat → Int × Nat

/-- The calibrated delay of the cuff that a die forwards a ring's beacons across, LSB 0.125 ns (R48): by die, ring (0 A, 1 B) and
T_die in units of 1/16 °C; the spec states that it is calibrated and corrected, and gives no values (assumption 120). -/
opaque cuffDelay : Nat → Nat → Int → Nat

/-- What a corner stage adds to its output for corrections that were not uniform over its window, in units of 1/25,600 µV (R111, R339): by
draw, and 3 times the channel plus 0 for FINE, 1 for LINE, 2 for COMPARE; the spec gives the stages no coefficients (assumption 122). -/
opaque cornerMix : Nat → Nat → Int

/-- What a slice of 512 patterns leaves in the LFSR (R413), from what it held: the spec gives no polynomial (assumption 154). -/
opaque lfsrNext : Nat → Nat

/-- What a slice leaves in the MISR of a partition (R413): from the partition, the LFSR and the MISR before the slice, none before the first,
and what the scan chains return; the spec gives no polynomial and no start (assumption 154). -/
opaque misrNext : Nat → Nat → Option (BitVec 32) → BitVec 32 → BitVec 32

/-- The vendor's seed and signature of a partition (R415, R418): the spec gives no values (assumption 154). -/
opaque vendorSeed : Nat → Nat
opaque vendorSig : Nat → BitVec 32

/-- A drawn value of a number of bits, for a value that an operation leaves undefined or the spec does not state. -/
opaque freeNat : Nat → Nat

end Sys2Proof.Config
end

