-- ==== Sys2Proof/Machine/RegMap.lean ====
section
/-! DEFINITION. The register map: every register of the module by the spec's own name, at its 32-bit address with
the DIE field zero (R19, Table 01.3), and every field by its place in the word. Taken from the location tables and
field maps of the spec's chapters. -/
namespace Sys2Proof.Machine

/-- A field of a register word: bits [lo + w - 1 : lo] (R4). -/
structure Fld where
  lo : Nat
  w  : Nat
  deriving DecidableEq, Repr

/-- The register address of Table 01.3 with DIE = 0: PLANE in [28:27], BLOCK in [26:20], CHANNEL in [19:12] and WORD
in [11:2]. -/
def regAddr (plane block channel word : Nat) : Nat :=
  plane * 0x8000000 + block * 0x100000 + channel * 0x1000 + word * 4

/-- `MOD_TOPOLOGY` (R33, Table 01.7). -/
def MOD_TOPOLOGY : Nat := regAddr 3 0x30 0xFF 0x0
def MOD_TOPOLOGY.DIES_M1 : Fld := ⟨0, 3⟩
def MOD_TOPOLOGY.MASTER : Fld := ⟨4, 3⟩
def MOD_TOPOLOGY.HEAD : Fld := ⟨7, 1⟩
def MOD_TOPOLOGY.ALIVE : Fld := ⟨8, 8⟩
def MOD_TOPOLOGY.LOST : Fld := ⟨16, 8⟩
def MOD_TOPOLOGY.ADDRESS : Fld := ⟨24, 7⟩
/-- `MOD_RING_ROLE` (R36, Table 01.8). -/
def MOD_RING_ROLE : Nat := regAddr 3 0x30 0xFF 0x1
def MOD_RING_ROLE.HEAD : Fld := ⟨0, 1⟩
def MOD_RING_ROLE.ARMED : Fld := ⟨1, 1⟩
def MOD_RING_ROLE.CONFLICT : Fld := ⟨2, 1⟩
def MOD_RING_ROLE.HEAD_PAGE : Fld := ⟨16, 16⟩
/-- `FOL_MODESEL` (R38, Table 01.11). -/
def FOL_MODESEL : Nat := regAddr 2 0x24 0xFF 0x10
def FOL_MODESEL.BAL : Fld := ⟨0, 1⟩
def FOL_MODESEL.OWD : Fld := ⟨1, 1⟩
def FOL_MODESEL.NSRCH : Fld := ⟨2, 1⟩
def FOL_MODESEL.CALTRG : Fld := ⟨3, 1⟩
def FOL_MODESEL.FREACT : Fld := ⟨4, 1⟩
def FOL_MODESEL.THROT : Fld := ⟨5, 1⟩
def FOL_MODESEL.EISDEM : Fld := ⟨6, 1⟩
def FOL_MODESEL.SLCHK : Fld := ⟨7, 1⟩
def FOL_MODESEL.TALIGN : Fld := ⟨8, 1⟩
/-- `FOL_MODENOW` (R39, Table 01.11). -/
def FOL_MODENOW : Nat := regAddr 2 0x24 0xFF 0x11
def FOL_MODENOW.BAL : Fld := ⟨0, 1⟩
def FOL_MODENOW.OWD : Fld := ⟨1, 1⟩
def FOL_MODENOW.NSRCH : Fld := ⟨2, 1⟩
def FOL_MODENOW.CALTRG : Fld := ⟨3, 1⟩
def FOL_MODENOW.FREACT : Fld := ⟨4, 1⟩
def FOL_MODENOW.THROT : Fld := ⟨5, 1⟩
def FOL_MODENOW.EISDEM : Fld := ⟨6, 1⟩
def FOL_MODENOW.SLCHK : Fld := ⟨7, 1⟩
def FOL_MODENOW.TALIGN : Fld := ⟨8, 1⟩
/-- `ULK_STROKE_LO` (R62, Table 02.4). -/
def ULK_STROKE_LO : Nat := regAddr 1 0x7 0xFF 0x1
def ULK_STROKE_LO.COUNT : Fld := ⟨0, 32⟩
/-- `ULK_STROKE_HI` (R62, Table 02.5). -/
def ULK_STROKE_HI : Nat := regAddr 1 0x7 0xFF 0x2
def ULK_STROKE_HI.COUNT_HI : Fld := ⟨0, 16⟩
def ULK_STROKE_HI.VALID : Fld := ⟨16, 1⟩
def ULK_STROKE_HI.ESTIMATED : Fld := ⟨17, 1⟩
/-- `ULK_PLLSTAT` (R62, Table 02.6). -/
def ULK_PLLSTAT : Nat := regAddr 1 0x7 0xFF 0x3
def ULK_PLLSTAT.STATE : Fld := ⟨0, 2⟩
def ULK_PLLSTAT.UNALIGNED : Fld := ⟨2, 1⟩
def ULK_PLLSTAT.PHASE_ERR : Fld := ⟨4, 12⟩
def ULK_PLLSTAT.MISSED : Fld := ⟨16, 8⟩
def ULK_PLLSTAT.FREQ_OFF : Fld := ⟨24, 8⟩
/-- `ULK_BDELAY` (R62, Table 02.7). -/
def ULK_BDELAY : Nat := regAddr 1 0x7 0xFF 0x4
def ULK_BDELAY.HOP_A : Fld := ⟨0, 15⟩
def ULK_BDELAY.ECHO_A_MISS : Fld := ⟨15, 1⟩
def ULK_BDELAY.HOP_B : Fld := ⟨16, 15⟩
def ULK_BDELAY.ECHO_B_MISS : Fld := ⟨31, 1⟩
/-- `ULK_TSTEP_AT` (R62, Table 02.8). -/
def ULK_TSTEP_AT : Nat := regAddr 1 0x7 0xFF 0x5
def ULK_TSTEP_AT.AT : Fld := ⟨0, 32⟩
/-- `ULK_TSTEP_DELTA` (R62, Table 02.8). -/
def ULK_TSTEP_DELTA : Nat := regAddr 1 0x7 0xFF 0x6
def ULK_TSTEP_DELTA.DELTA : Fld := ⟨0, 32⟩
/-- `PWR_SLEEP_RATIO` (R62, Table 02.9). -/
def PWR_SLEEP_RATIO : Nat := regAddr 2 0x28 0xFF 0x10
def PWR_SLEEP_RATIO.RATIO : Fld := ⟨0, 32⟩
/-- `PWR_SLEEP_TICKS_LO` (R62, Table 02.10). -/
def PWR_SLEEP_TICKS_LO : Nat := regAddr 2 0x28 0xFF 0x11
def PWR_SLEEP_TICKS_LO.TICKS : Fld := ⟨0, 32⟩
/-- `PWR_SLEEP_TICKS_HI` (R62, Table 02.10). -/
def PWR_SLEEP_TICKS_HI : Nat := regAddr 2 0x28 0xFF 0x12
def PWR_SLEEP_TICKS_HI.TICKS_HI : Fld := ⟨0, 8⟩
def PWR_SLEEP_TICKS_HI.OVF : Fld := ⟨8, 1⟩
def PWR_SLEEP_TICKS_HI.COMP : Fld := ⟨9, 1⟩
def PWR_SLEEP_TICKS_HI.OUTSIDE : Fld := ⟨10, 1⟩
def PWR_SLEEP_TICKS_HI.ENTRY_PHASE : Fld := ⟨16, 10⟩
/-- `PWR_WAKE_BOUND` (R62, Table 02.11). -/
def PWR_WAKE_BOUND : Nat := regAddr 2 0x28 0xFF 0x13
def PWR_WAKE_BOUND.BOUND : Fld := ⟨0, 32⟩
/-- `PWR_WAKE_CORR` (R62, Table 02.11). -/
def PWR_WAKE_CORR : Nat := regAddr 2 0x28 0xFF 0x14
def PWR_WAKE_CORR.CORR : Fld := ⟨0, 32⟩
/-- `CFE_CONFIG` (R90, Table 03.12). -/
def CFE_CONFIG : Nat := regAddr 1 0x1 0xFF 0x0
def CFE_CONFIG.CELLS : Fld := ⟨0, 5⟩
/-- `CFE_FILTSEL` (R90, Table 03.13). -/
def CFE_FILTSEL : Nat := regAddr 1 0x1 0xFF 0x1
def CFE_FILTSEL.FINE : Fld := ⟨0, 3⟩
def CFE_FILTSEL.LINE : Fld := ⟨4, 3⟩
def CFE_FILTSEL.NOTCH_EN : Fld := ⟨8, 1⟩
/-- `CFE_NOTCH` (R90, Table 03.14). -/
def CFE_NOTCH : Nat := regAddr 1 0x1 0xFF 0x2
def CFE_NOTCH.CENTRE : Fld := ⟨0, 16⟩
def CFE_NOTCH.CLAMPED : Fld := ⟨16, 1⟩
/-- `CFE_STREAMCFG` (R90, Table 03.15). -/
def CFE_STREAMCFG : Nat := regAddr 1 0x1 0xFF 0x3
def CFE_STREAMCFG.FINE_EN : Fld := ⟨0, 1⟩
def CFE_STREAMCFG.LINE_EN : Fld := ⟨1, 1⟩
def CFE_STREAMCFG.PAGE_EN : Fld := ⟨2, 1⟩
def CFE_STREAMCFG.FINE_RING : Fld := ⟨4, 2⟩
def CFE_STREAMCFG.LINE_RING : Fld := ⟨6, 2⟩
def CFE_STREAMCFG.PAGE_RING : Fld := ⟨8, 2⟩
def CFE_STREAMCFG.LINE_DIV : Fld := ⟨10, 4⟩
def CFE_STREAMCFG.LINE_SPAN : Fld := ⟨14, 1⟩
/-- `CFE_SPARE` (R90, Table 03.16). -/
def CFE_SPARE : Nat := regAddr 1 0x1 0xFF 0x4
def CFE_SPARE.TARGET : Fld := ⟨0, 5⟩
def CFE_SPARE.STATE : Fld := ⟨5, 3⟩
def CFE_SPARE.OWNER : Fld := ⟨8, 3⟩
/-- `CFE_AUXCFG` (R90, Table 03.17). -/
def CFE_AUXCFG : Nat := regAddr 1 0x1 0xFF 0x5
def CFE_AUXCFG.RATIO : Fld := ⟨0, 8⟩
def CFE_AUXCFG.PACKI : Fld := ⟨8, 1⟩
/-- `CFE_PACKI_GAIN` (R90, Table 03.18). -/
def CFE_PACKI_GAIN : Nat := regAddr 1 0x1 0xFF 0x6
def CFE_PACKI_GAIN.GAIN : Fld := ⟨0, 32⟩
/-- `CFE_PACKI_OFFSET` (R90, Table 03.18). -/
def CFE_PACKI_OFFSET : Nat := regAddr 1 0x1 0xFF 0x7
def CFE_PACKI_OFFSET.OFFSET : Fld := ⟨0, 24⟩
/-- `CFE_PACKI` (R90, Table 03.19). -/
def CFE_PACKI : Nat := regAddr 1 0x1 0xFF 0x8
def CFE_PACKI.CURRENT : Fld := ⟨0, 24⟩
def CFE_PACKI.STALE : Fld := ⟨24, 1⟩
/-- `CFE_PACKI_AT` (R90, Table 03.19). -/
def CFE_PACKI_AT : Nat := regAddr 1 0x1 0xFF 0x9
def CFE_PACKI_AT.AT : Fld := ⟨0, 32⟩
/-- `CFE_AUX` (R90, Table 03.20). -/
def CFE_AUX (n : Nat) : Nat := regAddr 1 0x1 0xFF (0x10 + n)
def CFE_AUX.VALUE : Fld := ⟨0, 16⟩
def CFE_AUX.RANGE : Fld := ⟨16, 1⟩
/-- `CFE_LINE` (R90, Table 03.21). -/
def CFE_LINE (c : Nat) : Nat := regAddr 1 0x1 c 0x0
def CFE_LINE.SAMPLE : Fld := ⟨0, 24⟩
def CFE_LINE.FLAGS : Fld := ⟨24, 8⟩
/-- `CFE_FINE` (R90, Table 03.21). -/
def CFE_FINE (c : Nat) : Nat := regAddr 1 0x1 c 0x1
def CFE_FINE.SAMPLE : Fld := ⟨0, 24⟩
def CFE_FINE.FLAGS : Fld := ⟨24, 8⟩
/-- `SHD_OV` (R90, Table 03.22). -/
def SHD_OV : Nat := regAddr 1 0x2 0xFF 0x0
def SHD_OV.CODE : Fld := ⟨0, 16⟩
/-- `SHD_UV` (R90, Table 03.22). -/
def SHD_UV : Nat := regAddr 1 0x2 0xFF 0x1
def SHD_UV.CODE : Fld := ⟨0, 16⟩
/-- `SHD_HYST` (R90, Table 03.22). -/
def SHD_HYST : Nat := regAddr 1 0x2 0xFF 0x2
def SHD_HYST.CODE : Fld := ⟨0, 16⟩
/-- `SHD_DISAGREE` (R90, Table 03.22). -/
def SHD_DISAGREE : Nat := regAddr 1 0x2 0xFF 0x3
def SHD_DISAGREE.WINDOW : Fld := ⟨0, 8⟩
/-- `SHD_STATUS` (R90, Table 03.23). -/
def SHD_STATUS : Nat := regAddr 1 0x2 0xFF 0x4
def SHD_STATUS.OV_LIVE : Fld := ⟨0, 16⟩
def SHD_STATUS.UV_LIVE : Fld := ⟨16, 16⟩
/-- `SHD_DIFFMAX` (R90, Table 03.23). -/
def SHD_DIFFMAX : Nat := regAddr 1 0x2 0xFF 0x5
def SHD_DIFFMAX.MAX : Fld := ⟨0, 12⟩
/-- `SHD_SAMPLE` (R90, Table 03.24). -/
def SHD_SAMPLE (c : Nat) : Nat := regAddr 1 0x2 c 0x0
def SHD_SAMPLE.CODE : Fld := ⟨0, 16⟩
def SHD_SAMPLE.OVV : Fld := ⟨16, 1⟩
def SHD_SAMPLE.UVV : Fld := ⟨17, 1⟩
def SHD_SAMPLE.SKIP : Fld := ⟨18, 1⟩
def SHD_SAMPLE.DIFF : Fld := ⟨20, 12⟩
/-- `MOD_FINESEL` (R87, Table 03.25). -/
def MOD_FINESEL (n : Nat) : Nat := regAddr 3 0x30 0xFF (0x10 + n)
def MOD_FINESEL.CELLS : Fld := ⟨0, 32⟩
/-- `OWD_CONFIG` (R118, Table 04.10). -/
def OWD_CONFIG : Nat := regAddr 1 0x3 0xFF 0x0
def OWD_CONFIG.WIRING : Fld := ⟨0, 1⟩
def OWD_CONFIG.BG_EN : Fld := ⟨1, 1⟩
def OWD_CONFIG.BG_CUR : Fld := ⟨2, 1⟩
def OWD_CONFIG.BG_POL : Fld := ⟨3, 2⟩
def OWD_CONFIG.OD_CUR : Fld := ⟨5, 1⟩
def OWD_CONFIG.STEP_EN : Fld := ⟨6, 1⟩
def OWD_CONFIG.DEVTEST_EN : Fld := ⟨7, 1⟩
/-- `OWD_THRESH` (R118, Table 04.11). -/
def OWD_THRESH : Nat := regAddr 1 0x3 0xFF 0x1
def OWD_THRESH.RAMP_TH : Fld := ⟨0, 16⟩
def OWD_THRESH.RPATH_MAX : Fld := ⟨16, 16⟩
/-- `OWD_PAIRCFG` (R118, Table 04.12). -/
def OWD_PAIRCFG : Nat := regAddr 1 0x3 0xFF 0x2
def OWD_PAIRCFG.PS_DEV : Fld := ⟨0, 8⟩
def OWD_PAIRCFG.PS_HOLD : Fld := ⟨8, 8⟩
def OWD_PAIRCFG.SUM_TOL : Fld := ⟨16, 8⟩
def OWD_PAIRCFG.EDGE_TOL : Fld := ⟨24, 8⟩
/-- `OWD_CMD` (R118, Table 04.13). -/
def OWD_CMD : Nat := regAddr 1 0x3 0xFF 0x3
def OWD_CMD.WIRE : Fld := ⟨0, 5⟩
def OWD_CMD.ALL : Fld := ⟨5, 1⟩
def OWD_CMD.CUR : Fld := ⟨6, 1⟩
def OWD_CMD.POL : Fld := ⟨7, 1⟩
def OWD_CMD.GO : Fld := ⟨8, 1⟩
/-- `OWD_STATUS` (R118, Table 04.14). -/
def OWD_STATUS : Nat := regAddr 1 0x3 0xFF 0x4
def OWD_STATUS.BUSY : Fld := ⟨0, 1⟩
def OWD_STATUS.QUEUED : Fld := ⟨1, 1⟩
def OWD_STATUS.DROPPED : Fld := ⟨2, 1⟩
def OWD_STATUS.WIRE : Fld := ⟨3, 5⟩
def OWD_STATUS.STAGE : Fld := ⟨8, 3⟩
def OWD_STATUS.NEXT : Fld := ⟨11, 5⟩
def OWD_STATUS.SKIPCNT : Fld := ⟨16, 8⟩
def OWD_STATUS.INTERLOCK : Fld := ⟨24, 1⟩
/-- `OWD_SUMCHK` (R118, Table 04.15). -/
def OWD_SUMCHK : Nat := regAddr 1 0x3 0xFF 0x5
def OWD_SUMCHK.M : Fld := ⟨0, 16⟩
def OWD_SUMCHK.LIVE : Fld := ⟨16, 1⟩
def OWD_SUMCHK.SKIP : Fld := ⟨17, 1⟩
/-- `OWD_CLASS_LO` (R118, Table 04.16). -/
def OWD_CLASS_LO : Nat := regAddr 1 0x3 0xFF 0x6
def OWD_CLASS_LO.CLASS0 : Fld := ⟨0, 4⟩
def OWD_CLASS_LO.CLASS1 : Fld := ⟨4, 4⟩
def OWD_CLASS_LO.CLASS2 : Fld := ⟨8, 4⟩
def OWD_CLASS_LO.CLASS3 : Fld := ⟨12, 4⟩
def OWD_CLASS_LO.CLASS4 : Fld := ⟨16, 4⟩
def OWD_CLASS_LO.CLASS5 : Fld := ⟨20, 4⟩
def OWD_CLASS_LO.CLASS6 : Fld := ⟨24, 4⟩
def OWD_CLASS_LO.CLASS7 : Fld := ⟨28, 4⟩
/-- `OWD_CLASS_HI` (R118, Table 04.16). -/
def OWD_CLASS_HI : Nat := regAddr 1 0x3 0xFF 0x7
def OWD_CLASS_HI.CLASS0 : Fld := ⟨0, 4⟩
def OWD_CLASS_HI.CLASS1 : Fld := ⟨4, 4⟩
def OWD_CLASS_HI.CLASS2 : Fld := ⟨8, 4⟩
def OWD_CLASS_HI.CLASS3 : Fld := ⟨12, 4⟩
def OWD_CLASS_HI.CLASS4 : Fld := ⟨16, 4⟩
def OWD_CLASS_HI.CLASS5 : Fld := ⟨20, 4⟩
def OWD_CLASS_HI.CLASS6 : Fld := ⟨24, 4⟩
def OWD_CLASS_HI.CLASS7 : Fld := ⟨28, 4⟩
/-- `OWD_LAST` (R118, Table 04.15). -/
def OWD_LAST : Nat := regAddr 1 0x3 0xFF 0x8
def OWD_LAST.RAMP : Fld := ⟨0, 16⟩
def OWD_LAST.DELTA4 : Fld := ⟨16, 16⟩
/-- `OWD_WIRE` (R118, Table 04.17). -/
def OWD_WIRE (n : Nat) : Nat := regAddr 1 0x3 0xFF (0x10 + n)
def OWD_WIRE.RPATH : Fld := ⟨0, 16⟩
def OWD_WIRE.VERDICT : Fld := ⟨16, 2⟩
def OWD_WIRE.OD : Fld := ⟨18, 1⟩
def OWD_WIRE.AGE : Fld := ⟨20, 8⟩
/-- `OWD_RWIRE` (R118, Table 04.17). -/
def OWD_RWIRE (n : Nat) : Nat := regAddr 1 0x3 0xFF (0x30 + n)
def OWD_RWIRE.RWIRE : Fld := ⟨0, 16⟩
def OWD_RWIRE.VALID : Fld := ⟨16, 1⟩
def OWD_RWIRE.LIMIT : Fld := ⟨17, 1⟩
def OWD_RWIRE.AGE : Fld := ⟨18, 8⟩
/-- `EIS_CMD` (R147, Table 05.9). -/
def EIS_CMD : Nat := regAddr 1 0x4 0xFF 0x0
def EIS_CMD.SWEEPER : Fld := ⟨0, 2⟩
def EIS_CMD.PLAN : Fld := ⟨2, 2⟩
def EIS_CMD.CELL : Fld := ⟨4, 4⟩
def EIS_CMD.PASSES : Fld := ⟨8, 8⟩
def EIS_CMD.GO : Fld := ⟨16, 1⟩
def EIS_CMD.STOP : Fld := ⟨17, 1⟩
/-- `EIS_SCHED` (R147, Table 05.10). -/
def EIS_SCHED : Nat := regAddr 1 0x4 0xFF 0x1
def EIS_SCHED.PRIO0 : Fld := ⟨0, 1⟩
def EIS_SCHED.PRIO1 : Fld := ⟨1, 1⟩
def EIS_SCHED.OWD_DEFER : Fld := ⟨2, 1⟩
def EIS_SCHED.WAIT : Fld := ⟨8, 8⟩
/-- `EIS_STATUS` (R147, Table 05.11). -/
def EIS_STATUS (n : Nat) : Nat := regAddr 1 0x4 0xFF (0x2 + n)
def EIS_STATUS.STATE : Fld := ⟨0, 3⟩
def EIS_STATUS.PLAN : Fld := ⟨3, 2⟩
def EIS_STATUS.CELL : Fld := ⟨5, 4⟩
def EIS_STATUS.BIN : Fld := ⟨9, 5⟩
def EIS_STATUS.DONE : Fld := ⟨14, 8⟩
def EIS_STATUS.LASTERR : Fld := ⟨22, 8⟩
/-- `EIS_OVR` (R147, Table 05.10). -/
def EIS_OVR : Nat := regAddr 1 0x4 0xFF 0x5
def EIS_OVR.OVRCNT : Fld := ⟨0, 8⟩
def EIS_OVR.OVR : Fld := ⟨8, 1⟩
/-- `EIS_ZT_CFG` (R147, Table 05.12). -/
def EIS_ZT_CFG : Nat := regAddr 1 0x4 0xFF 0x6
def EIS_ZT_CFG.EN : Fld := ⟨0, 1⟩
def EIS_ZT_CFG.PLAN : Fld := ⟨1, 2⟩
def EIS_ZT_CFG.BIN : Fld := ⟨3, 5⟩
def EIS_ZT_CFG.LIM : Fld := ⟨8, 8⟩
def EIS_ZT_CFG.NIB_AGE : Fld := ⟨16, 8⟩
/-- `EIS_ZT_DEV` (R147, Table 05.12). -/
def EIS_ZT_DEV : Nat := regAddr 1 0x4 0xFF 0x7
def EIS_ZT_DEV.DEV : Fld := ⟨0, 16⟩
def EIS_ZT_DEV.NOREF : Fld := ⟨16, 16⟩
/-- `EIS_PLAN_HDR0` (R147, Table 05.13). -/
def EIS_PLAN_HDR0 (c : Nat) : Nat := regAddr 1 0x4 (0x20 + c) 0x0
def EIS_PLAN_HDR0.MODE : Fld := ⟨0, 1⟩
def EIS_PLAN_HDR0.NBINS_M1 : Fld := ⟨1, 5⟩
def EIS_PLAN_HDR0.ADDPACK : Fld := ⟨6, 1⟩
def EIS_PLAN_HDR0.REST : Fld := ⟨8, 8⟩
def EIS_PLAN_HDR0.MIN_I : Fld := ⟨16, 16⟩
/-- `EIS_PLAN_HDR1` (R147, Table 05.13). -/
def EIS_PLAN_HDR1 (c : Nat) : Nat := regAddr 1 0x4 (0x20 + c) 0x1
def EIS_PLAN_HDR1.IDELAY : Fld := ⟨0, 8⟩
/-- `EIS_BIN_W0` (R147, Table 05.14). -/
def EIS_BIN_W0 (c n : Nat) : Nat := regAddr 1 0x4 (0x20 + c) (0x10 + 2 * n)
def EIS_BIN_W0.N : Fld := ⟨0, 24⟩
/-- `EIS_BIN_W1` (R147, Table 05.14). -/
def EIS_BIN_W1 (c n : Nat) : Nat := regAddr 1 0x4 (0x20 + c) (0x11 + 2 * n)
def EIS_BIN_W1.K : Fld := ⟨0, 12⟩
def EIS_BIN_W1.AMP : Fld := ⟨12, 10⟩
def EIS_BIN_W1.SETTLE : Fld := ⟨22, 8⟩
/-- `EIS_RES_R` of cell channel `c`, plan `p`, bin `b` (R147, Table 05.15). -/
def EIS_RES_R (c p b : Nat) : Nat := regAddr 1 0x4 c (0x80 * p + 4 * b + 0)
def EIS_RES_R.R : Fld := ⟨0, 32⟩
/-- `EIS_RES_X` of cell channel `c`, plan `p`, bin `b` (R147, Table 05.15). -/
def EIS_RES_X (c p b : Nat) : Nat := regAddr 1 0x4 c (0x80 * p + 4 * b + 1)
def EIS_RES_X.X : Fld := ⟨0, 32⟩
/-- `EIS_RES_INFO` of cell channel `c`, plan `p`, bin `b` (R147, Table 05.15). -/
def EIS_RES_INFO (c p b : Nat) : Nat := regAddr 1 0x4 c (0x80 * p + 4 * b + 2)
def EIS_RES_INFO.IAMP : Fld := ⟨0, 16⟩
def EIS_RES_INFO.STATUS : Fld := ⟨16, 8⟩
def EIS_RES_INFO.FLAGS : Fld := ⟨24, 8⟩
/-- `EIS_RES_END` of cell channel `c`, plan `p`, bin `b` (R147, Table 05.15). -/
def EIS_RES_END (c p b : Nat) : Nat := regAddr 1 0x4 c (0x80 * p + 4 * b + 3)
def EIS_RES_END.END : Fld := ⟨0, 32⟩
/-- `EIS_ZTA` (R147, Table 05.15). -/
def EIS_ZTA (c : Nat) : Nat := regAddr 1 0x4 c 0x200
def EIS_ZTA.COEF : Fld := ⟨0, 32⟩
/-- `EIS_ZTB` (R147, Table 05.15). -/
def EIS_ZTB (c : Nat) : Nat := regAddr 1 0x4 c 0x201
def EIS_ZTB.COEF : Fld := ⟨0, 32⟩
/-- `EIS_ZTC` (R147, Table 05.15). -/
def EIS_ZTC (c : Nat) : Nat := regAddr 1 0x4 c 0x202
def EIS_ZTC.COEF : Fld := ⟨0, 32⟩
/-- `EIS_ZTEMP` (R147, Table 05.15). -/
def EIS_ZTEMP (c : Nat) : Nat := regAddr 1 0x4 c 0x203
def EIS_ZTEMP.TEMP : Fld := ⟨0, 16⟩
def EIS_ZTEMP.AGE : Fld := ⟨16, 8⟩
def EIS_ZTEMP.DEV : Fld := ⟨24, 1⟩
def EIS_ZTEMP.NOREF : Fld := ⟨25, 1⟩
def EIS_ZTEMP.RANGE : Fld := ⟨26, 1⟩
def EIS_ZTEMP.NOMODEL : Fld := ⟨27, 1⟩
/-- `CXS_MGR` (R172, Table 06.5). -/
def CXS_MGR : Nat := regAddr 0 0x10 0xFF 0x0
def CXS_MGR.TSRC : Fld := ⟨0, 2⟩
def CXS_MGR.CONV_EN : Fld := ⟨2, 1⟩
def CXS_MGR.BLEED_EN : Fld := ⟨3, 1⟩
def CXS_MGR.MAXBLEED : Fld := ⟨4, 5⟩
def CXS_MGR.BLEED_DUTY : Fld := ⟨9, 9⟩
/-- `CXS_BAND` (R172, Table 06.6). -/
def CXS_BAND : Nat := regAddr 0 0x10 0xFF 0x1
def CXS_BAND.BAND_HI : Fld := ⟨0, 12⟩
def CXS_BAND.BAND_LO : Fld := ⟨12, 12⟩
def CXS_BAND.SWAP : Fld := ⟨24, 8⟩
/-- `CXS_MGR_I` (R172, Table 06.5). -/
def CXS_MGR_I : Nat := regAddr 0 0x10 0xFF 0x2
def CXS_MGR_I.MGR_I : Fld := ⟨0, 16⟩
/-- `CXS_TARGET` (R172, Table 06.7). -/
def CXS_TARGET : Nat := regAddr 0 0x10 0xFF 0x3
def CXS_TARGET.TARGET : Fld := ⟨0, 24⟩
/-- `CXS_TGTUSE` (R172, Table 06.7). -/
def CXS_TGTUSE : Nat := regAddr 0 0x10 0xFF 0x4
def CXS_TGTUSE.TARGET : Fld := ⟨0, 24⟩
def CXS_TGTUSE.VALID : Fld := ⟨24, 1⟩
/-- `CXS_LEVEL` (R172, Table 06.8). -/
def CXS_LEVEL : Nat := regAddr 0 0x10 0xFF 0x5
def CXS_LEVEL.EN : Fld := ⟨0, 1⟩
def CXS_LEVEL.RUN_TGT : Fld := ⟨1, 12⟩
def CXS_LEVEL.SLEEP_TGT : Fld := ⟨13, 12⟩
/-- `CXS_LEVSTAT` (R172, Table 06.8). -/
def CXS_LEVSTAT : Nat := regAddr 0 0x10 0xFF 0x6
def CXS_LEVSTAT.DRAW : Fld := ⟨0, 20⟩
def CXS_LEVSTAT.HEADROOM : Fld := ⟨20, 1⟩
/-- `CXS_STATUS` (R172, Table 06.9). -/
def CXS_STATUS : Nat := regAddr 0 0x10 0xFF 0x7
def CXS_STATUS.THOLD : Fld := ⟨0, 1⟩
def CXS_STATUS.SAFE : Fld := ⟨1, 1⟩
def CXS_STATUS.DIP : Fld := ⟨2, 1⟩
def CXS_STATUS.STEPHOLD : Fld := ⟨3, 1⟩
def CXS_STATUS.CUT : Fld := ⟨4, 1⟩
def CXS_STATUS.RETIRED : Fld := ⟨5, 1⟩
def CXS_STATUS.BLEEDING : Fld := ⟨16, 16⟩
/-- `CXS_BLEED` (R172, Table 06.10). -/
def CXS_BLEED (n : Nat) : Nat := regAddr 0 0x10 0xFF (0x20 + n)
def CXS_BLEED.DUTY : Fld := ⟨0, 9⟩
def CXS_BLEED.FORCED : Fld := ⟨10, 1⟩
def CXS_BLEED.OC : Fld := ⟨11, 1⟩
def CXS_BLEED.ION : Fld := ⟨12, 9⟩
/-- `CXS_QTGT` (R172, Table 06.11). -/
def CXS_QTGT (n : Nat) : Nat := regAddr 0 0x10 0xFF (0x30 + n)
def CXS_QTGT.REMAIN : Fld := ⟨0, 32⟩
/-- `CXS_QSTAT` (R172, Table 06.11). -/
def CXS_QSTAT (n : Nat) : Nat := regAddr 0 0x10 0xFF (0x40 + n)
def CXS_QSTAT.ACTIVE : Fld := ⟨0, 1⟩
def CXS_QSTAT.SUSP : Fld := ⟨1, 1⟩
def CXS_QSTAT.DONE : Fld := ⟨2, 1⟩
def CXS_QSTAT.CH : Fld := ⟨3, 1⟩
/-- `CXS_CFG` (R172, Table 06.12). -/
def CXS_CFG (c : Nat) : Nat := regAddr 0 0x10 c 0x0
def CXS_CFG.ILIM : Fld := ⟨0, 16⟩
def CXS_CFG.DMAX : Fld := ⟨16, 12⟩
def CXS_CFG.EN : Fld := ⟨28, 1⟩
/-- `CXS_SEL` (R172, Table 06.12). -/
def CXS_SEL (c : Nat) : Nat := regAddr 0 0x10 c 0x1
def CXS_SEL.CELL : Fld := ⟨0, 5⟩
def CXS_SEL.OWNER : Fld := ⟨5, 2⟩
def CXS_SEL.DIR : Fld := ⟨7, 1⟩
def CXS_SEL.PENDING : Fld := ⟨8, 1⟩
def CXS_SEL.RAMP : Fld := ⟨9, 1⟩
def CXS_SEL.REFUSE : Fld := ⟨16, 2⟩
/-- `CXS_I` (R172, Table 06.12). -/
def CXS_I (c : Nat) : Nat := regAddr 0 0x10 c 0x2
def CXS_I.ICELL : Fld := ⟨0, 16⟩
def CXS_I.ISPAN : Fld := ⟨16, 16⟩
/-- `CXS_STATE` (R172, Table 06.12). -/
def CXS_STATE (c : Nat) : Nat := regAddr 0 0x10 c 0x3
def CXS_STATE.DUTY : Fld := ⟨0, 12⟩
def CXS_STATE.PEAK : Fld := ⟨12, 1⟩
def CXS_STATE.STOPCAUSE : Fld := ⟨13, 3⟩
def CXS_STATE.ILIM_NOW : Fld := ⟨16, 16⟩
/-- `BCE_STATUS` (R202, Table 07.9). -/
def BCE_STATUS : Nat := regAddr 0 0x11 0xFF 0x0
def BCE_STATUS.OVR : Fld := ⟨0, 4⟩
def BCE_STATUS.SEVERE : Fld := ⟨4, 4⟩
def BCE_STATUS.PROGERR : Fld := ⟨8, 1⟩
def BCE_STATUS.LIMERR : Fld := ⟨9, 4⟩
def BCE_STATUS.PROG_ACTIVE : Fld := ⟨13, 1⟩
/-- `BCE_CYCLES` (R202, Table 07.9). -/
def BCE_CYCLES : Nat := regAddr 0 0x11 0xFF 0x1
def BCE_CYCLES.LAST : Fld := ⟨0, 12⟩
def BCE_CYCLES.PEAK : Fld := ⟨16, 12⟩
/-- `BCE_OVRCNT` (R202, Table 07.9). -/
def BCE_OVRCNT : Nat := regAddr 0 0x11 0xFF 0x2
def BCE_OVRCNT.CNT0 : Fld := ⟨0, 8⟩
def BCE_OVRCNT.CNT1 : Fld := ⟨8, 8⟩
def BCE_OVRCNT.CNT2 : Fld := ⟨16, 8⟩
def BCE_OVRCNT.CNT3 : Fld := ⟨24, 8⟩
/-- `BCE_CTRL` (R202, Table 07.9). -/
def BCE_CTRL : Nat := regAddr 0 0x11 0xFF 0x3
def BCE_CTRL.PROG_EN : Fld := ⟨0, 1⟩
/-- `BCE_HIN` (R202, Table 07.10). -/
def BCE_HIN (n : Nat) : Nat := regAddr 0 0x11 0xFF (0x8 + n)
def BCE_HIN.VALUE : Fld := ⟨0, 16⟩
/-- `BCE_X` (R202, Table 07.10). -/
def BCE_X (n : Nat) : Nat := regAddr 0 0x11 0xFF (0x10 + n)
def BCE_X.VALUE : Fld := ⟨0, 16⟩
/-- `BCE_PROG` (R202, Table 07.10). -/
def BCE_PROG (n : Nat) : Nat := regAddr 0 0x11 0x10 n
def BCE_PROG.STEP : Fld := ⟨0, 32⟩
/-- `BCE_SLOT` (R202, Table 07.11). -/
def BCE_SLOT (c : Nat) : Nat := regAddr 0 0x11 c 0x0
def BCE_SLOT.EN : Fld := ⟨0, 1⟩
def BCE_SLOT.LAW : Fld := ⟨1, 1⟩
def BCE_SLOT.FREEZE : Fld := ⟨2, 1⟩
def BCE_SLOT.FFMODE : Fld := ⟨3, 2⟩
def BCE_SLOT.SPSRC : Fld := ⟨8, 8⟩
def BCE_SLOT.MSRC : Fld := ⟨16, 8⟩
def BCE_SLOT.ADDSRC : Fld := ⟨24, 8⟩
/-- `BCE_OUTLIM` (R202, Table 07.11). -/
def BCE_OUTLIM (c : Nat) : Nat := regAddr 0 0x11 c 0x1
def BCE_OUTLIM.OUT_MIN : Fld := ⟨0, 16⟩
def BCE_OUTLIM.OUT_MAX : Fld := ⟨16, 16⟩
/-- `BCE_B0` (R202, Table 07.12). -/
def BCE_B0 (c : Nat) : Nat := regAddr 0 0x11 c 0x2
def BCE_B0.VALUE : Fld := ⟨0, 16⟩
def BCE_B0.SHIFT : Fld := ⟨16, 3⟩
/-- `BCE_B1` (R202, Table 07.12). -/
def BCE_B1 (c : Nat) : Nat := regAddr 0 0x11 c 0x3
def BCE_B1.VALUE : Fld := ⟨0, 16⟩
def BCE_B1.SHIFT : Fld := ⟨16, 3⟩
/-- `BCE_B2` (R202, Table 07.12). -/
def BCE_B2 (c : Nat) : Nat := regAddr 0 0x11 c 0x4
def BCE_B2.VALUE : Fld := ⟨0, 16⟩
def BCE_B2.SHIFT : Fld := ⟨16, 3⟩
/-- `BCE_B3` (R202, Table 07.12). -/
def BCE_B3 (c : Nat) : Nat := regAddr 0 0x11 c 0x5
def BCE_B3.VALUE : Fld := ⟨0, 16⟩
def BCE_B3.SHIFT : Fld := ⟨16, 3⟩
/-- `BCE_A1` (R202, Table 07.12). -/
def BCE_A1 (c : Nat) : Nat := regAddr 0 0x11 c 0x6
def BCE_A1.VALUE : Fld := ⟨0, 16⟩
def BCE_A1.SHIFT : Fld := ⟨16, 3⟩
/-- `BCE_A2` (R202, Table 07.12). -/
def BCE_A2 (c : Nat) : Nat := regAddr 0 0x11 c 0x7
def BCE_A2.VALUE : Fld := ⟨0, 16⟩
def BCE_A2.SHIFT : Fld := ⟨16, 3⟩
/-- `BCE_A3` (R202, Table 07.12). -/
def BCE_A3 (c : Nat) : Nat := regAddr 0 0x11 c 0x8
def BCE_A3.VALUE : Fld := ⟨0, 16⟩
def BCE_A3.SHIFT : Fld := ⟨16, 3⟩
/-- `BCE_KFF` (R202, Table 07.12). -/
def BCE_KFF (c : Nat) : Nat := regAddr 0 0x11 c 0x9
def BCE_KFF.VALUE : Fld := ⟨0, 16⟩
def BCE_KFF.SHIFT : Fld := ⟨16, 3⟩
/-- `BCE_U` (R202, Table 07.13). -/
def BCE_U (c : Nat) : Nat := regAddr 0 0x11 c 0xA
def BCE_U.U : Fld := ⟨0, 16⟩
def BCE_U.LIMITED : Fld := ⟨16, 1⟩
def BCE_U.HELD : Fld := ⟨17, 1⟩
def BCE_U.FROZEN : Fld := ⟨18, 1⟩
def BCE_U.REST : Fld := ⟨19, 1⟩
def BCE_U.OVR : Fld := ⟨20, 1⟩
def BCE_U.FFVOID : Fld := ⟨21, 1⟩
/-- `BCE_E` (R202, Table 07.13). -/
def BCE_E (c : Nat) : Nat := regAddr 0 0x11 c 0xB
def BCE_E.E : Fld := ⟨0, 16⟩
def BCE_E.SP : Fld := ⟨16, 16⟩
/-- `BCE_POS` (R202, Table 07.14). -/
def BCE_POS (c n : Nat) : Nat := regAddr 0 0x11 c (0x10 + n)
def BCE_POS.OFFSET : Fld := ⟨0, 16⟩
def BCE_POS.GTRIM : Fld := ⟨16, 16⟩
/-- `PGEN_LIM` (R202, Table 07.15). -/
def PGEN_LIM (c : Nat) : Nat := regAddr 0 0x12 c 0x0
def PGEN_LIM.DIDT : Fld := ⟨0, 16⟩
def PGEN_LIM.JERK : Fld := ⟨16, 16⟩
/-- `PGEN_OSLEW` (R202, Table 07.15). -/
def PGEN_OSLEW (c : Nat) : Nat := regAddr 0 0x12 c 0x1
def PGEN_OSLEW.OSLEW : Fld := ⟨0, 16⟩
/-- `PGEN_STAT` (R202, Table 07.15). -/
def PGEN_STAT (c : Nat) : Nat := regAddr 0 0x12 c 0x2
def PGEN_STAT.MODE : Fld := ⟨0, 2⟩
def PGEN_STAT.ILIMIT : Fld := ⟨2, 1⟩
def PGEN_STAT.SP : Fld := ⟨16, 16⟩
/-- `PGEN_ACC` (R202, Table 07.15). -/
def PGEN_ACC (c : Nat) : Nat := regAddr 0 0x12 c 0x3
def PGEN_ACC.ACCEL : Fld := ⟨0, 16⟩
def PGEN_ACC.OVERSHOOT : Fld := ⟨16, 16⟩
/-- `INJ_CFG` (R202, Table 07.16). -/
def INJ_CFG (c : Nat) : Nat := regAddr 0 0x13 c 0x0
def INJ_CFG.MODE : Fld := ⟨0, 3⟩
def INJ_CFG.POINT : Fld := ⟨3, 1⟩
def INJ_CFG.REPEAT : Fld := ⟨4, 1⟩
def INJ_CFG.GO : Fld := ⟨5, 1⟩
def INJ_CFG.STOP : Fld := ⟨6, 1⟩
def INJ_CFG.HOLD : Fld := ⟨8, 8⟩
def INJ_CFG.SEED : Fld := ⟨16, 15⟩
/-- `INJ_AMP` (R202, Table 07.16). -/
def INJ_AMP (c : Nat) : Nat := regAddr 0 0x13 c 0x1
def INJ_AMP.AMP : Fld := ⟨0, 16⟩
/-- `INJ_F0` (R202, Table 07.16). -/
def INJ_F0 (c : Nat) : Nat := regAddr 0 0x13 c 0x2
def INJ_F0.INC : Fld := ⟨0, 32⟩
/-- `INJ_F1` (R202, Table 07.16). -/
def INJ_F1 (c : Nat) : Nat := regAddr 0 0x13 c 0x3
def INJ_F1.INC : Fld := ⟨0, 32⟩
/-- `INJ_DUR` (R202, Table 07.16). -/
def INJ_DUR (c : Nat) : Nat := regAddr 0 0x13 c 0x4
def INJ_DUR.DUR : Fld := ⟨0, 24⟩
/-- `INJ_STAT` (R202, Table 07.16). -/
def INJ_STAT (c : Nat) : Nat := regAddr 0 0x13 c 0x5
def INJ_STAT.RUNNING : Fld := ⟨0, 1⟩
def INJ_STAT.OWNER : Fld := ⟨1, 1⟩
def INJ_STAT.PREEMPT : Fld := ⟨2, 1⟩
def INJ_STAT.CLAMPED : Fld := ⟨3, 1⟩
def INJ_STAT.OUT : Fld := ⟨16, 16⟩
/-- `INJ_CAPCFG` (R202, Table 07.17). -/
def INJ_CAPCFG : Nat := regAddr 0 0x13 0xFF 0x0
def INJ_CAPCFG.SLOT : Fld := ⟨0, 2⟩
def INJ_CAPCFG.MASK : Fld := ⟨2, 4⟩
def INJ_CAPCFG.TRIG : Fld := ⟨6, 1⟩
def INJ_CAPCFG.BLOT_OUT : Fld := ⟨7, 1⟩
def INJ_CAPCFG.DECIM : Fld := ⟨8, 8⟩
def INJ_CAPCFG.PRE : Fld := ⟨16, 12⟩
def INJ_CAPCFG.ARM : Fld := ⟨28, 1⟩
/-- `INJ_CAPSTAT` (R202, Table 07.18). -/
def INJ_CAPSTAT : Nat := regAddr 0 0x13 0xFF 0x1
def INJ_CAPSTAT.STATE : Fld := ⟨0, 2⟩
def INJ_CAPSTAT.OVRSEEN : Fld := ⟨2, 1⟩
def INJ_CAPSTAT.FIRST : Fld := ⟨4, 12⟩
def INJ_CAPSTAT.NREC : Fld := ⟨16, 13⟩
/-- `INJ_CAPAT` (R202, Table 07.18). -/
def INJ_CAPAT : Nat := regAddr 0 0x13 0xFF 0x2
def INJ_CAPAT.AT : Fld := ⟨0, 32⟩
/-- `INJ_CAPBUF` word `w` (R202, Table 07.18). -/
def INJ_CAPBUF (w : Nat) : Nat := regAddr 0 0x13 (0x40 + w / 1024) (w % 1024)
def INJ_CAPBUF.WORD : Fld := ⟨0, 16⟩
/-- `QLN_GOV` (R235, Table 08.13). -/
def QLN_GOV : Nat := regAddr 1 0x5 0xFF 0x0
def QLN_GOV.AMAX : Fld := ⟨0, 8⟩
/-- `QLN_CFG` (R235, Table 08.13). -/
def QLN_CFG (c : Nat) : Nat := regAddr 1 0x5 c 0x0
def QLN_CFG.EN : Fld := ⟨0, 1⟩
def QLN_CFG.AUTOADMIT : Fld := ⟨1, 1⟩
def QLN_CFG.KINDFILT : Fld := ⟨2, 1⟩
def QLN_CFG.KIND : Fld := ⟨16, 16⟩
/-- `QLN_CMD` (R235, Table 08.14). -/
def QLN_CMD (c : Nat) : Nat := regAddr 1 0x5 c 0x1
def QLN_CMD.RESTART : Fld := ⟨0, 1⟩
def QLN_CMD.CENSUS : Fld := ⟨1, 1⟩
def QLN_CMD.STOP : Fld := ⟨2, 1⟩
/-- `QLN_STAT` (R235, Table 08.14). -/
def QLN_STAT (c : Nat) : Nat := regAddr 1 0x5 c 0x2
def QLN_STAT.MODE : Fld := ⟨0, 3⟩
def QLN_STAT.NOPRES : Fld := ⟨3, 1⟩
def QLN_STAT.SHORT : Fld := ⟨4, 1⟩
def QLN_STAT.LANEFULL : Fld := ⟨5, 1⟩
def QLN_STAT.NACTIVE : Fld := ⟨8, 8⟩
def QLN_STAT.NWIN : Fld := ⟨16, 8⟩
/-- `QLN_CYCLE` (R235, Table 08.15). -/
def QLN_CYCLE (c : Nat) : Nat := regAddr 1 0x5 c 0x3
def QLN_CYCLE.LAST : Fld := ⟨0, 20⟩
def QLN_CYCLE.HELD : Fld := ⟨20, 1⟩
/-- `QLN_ERR` (R235, Table 08.15). -/
def QLN_ERR (c : Nat) : Nat := regAddr 1 0x5 c 0x4
def QLN_ERR.CRCCNT : Fld := ⟨0, 8⟩
def QLN_ERR.IDCRC : Fld := ⟨8, 8⟩
def QLN_ERR.VOIDS : Fld := ⟨16, 8⟩
def QLN_ERR.ABSENT : Fld := ⟨24, 8⟩
/-- `QLN_RAW` (R235, Table 08.16). -/
def QLN_RAW (c : Nat) : Nat := regAddr 1 0x5 c 0x5
def QLN_RAW.OP : Fld := ⟨0, 3⟩
def QLN_RAW.NBITS : Fld := ⟨3, 4⟩
def QLN_RAW.DATA : Fld := ⟨8, 8⟩
def QLN_RAW.GO : Fld := ⟨16, 1⟩
/-- `QLN_RAWRES` (R235, Table 08.17). -/
def QLN_RAWRES (c : Nat) : Nat := regAddr 1 0x5 c 0x6
def QLN_RAWRES.DONE : Fld := ⟨0, 1⟩
def QLN_RAWRES.PRESENCE : Fld := ⟨1, 1⟩
def QLN_RAWRES.REFUSED : Fld := ⟨2, 1⟩
def QLN_RAWRES.TALLY : Fld := ⟨3, 4⟩
def QLN_RAWRES.DATA : Fld := ⟨8, 8⟩
def QLN_RAWRES.DIGIT : Fld := ⟨16, 2⟩
/-- `NIB_XCHK` (R235, Table 08.18). -/
def NIB_XCHK : Nat := regAddr 1 0x6 0xFF 0x0
def NIB_XCHK.LIM : Fld := ⟨0, 8⟩
def NIB_XCHK.CNT : Fld := ⟨8, 8⟩
def NIB_XCHK.AGE : Fld := ⟨16, 8⟩
/-- `NIB_CENSUS` (R235, Table 08.18). -/
def NIB_CENSUS : Nat := regAddr 1 0x6 0xFF 0x1
def NIB_CENSUS.PERIOD : Fld := ⟨0, 16⟩
def NIB_CENSUS.RING : Fld := ⟨16, 1⟩
def NIB_CENSUS.MAXID : Fld := ⟨20, 4⟩
def NIB_CENSUS.SKIPS : Fld := ⟨24, 8⟩
/-- `NIB_COUNT` (R235, Table 08.18). -/
def NIB_COUNT : Nat := regAddr 1 0x6 0xFF 0x2
def NIB_COUNT.ACTIVE : Fld := ⟨0, 9⟩
def NIB_COUNT.LOST : Fld := ⟨9, 9⟩
def NIB_COUNT.EXCL : Fld := ⟨18, 9⟩
def NIB_COUNT.FULL : Fld := ⟨27, 1⟩
/-- `MOD_NIB_ID_LO` of roster entry `e` (R235, Table 08.19). -/
def MOD_NIB_ID_LO (e : Nat) : Nat := regAddr 3 0x6 (e / 256) (4 * (e % 256) + 0)
def MOD_NIB_ID_LO.ID : Fld := ⟨0, 32⟩
/-- `MOD_NIB_ID_HI` of roster entry `e` (R235, Table 08.19). -/
def MOD_NIB_ID_HI (e : Nat) : Nat := regAddr 3 0x6 (e / 256) (4 * (e % 256) + 1)
def MOD_NIB_ID_HI.ID : Fld := ⟨0, 32⟩
/-- `MOD_NIB_ENTRY` of roster entry `e` (R235, Table 08.20). -/
def MOD_NIB_ENTRY (e : Nat) : Nat := regAddr 3 0x6 (e / 256) (4 * (e % 256) + 2)
def MOD_NIB_ENTRY.SLOT : Fld := ⟨0, 8⟩
def MOD_NIB_ENTRY.LANE : Fld := ⟨8, 1⟩
def MOD_NIB_ENTRY.STATE : Fld := ⟨9, 3⟩
def MOD_NIB_ENTRY.NSTAT : Fld := ⟨12, 4⟩
def MOD_NIB_ENTRY.ASSOC : Fld := ⟨16, 8⟩
def MOD_NIB_ENTRY.FERR : Fld := ⟨24, 6⟩
def MOD_NIB_ENTRY.ADMIT : Fld := ⟨30, 1⟩
def MOD_NIB_ENTRY.EXCL : Fld := ⟨31, 1⟩
/-- `MOD_NIB_VALUE` of roster entry `e` (R235, Table 08.19). -/
def MOD_NIB_VALUE (e : Nat) : Nat := regAddr 3 0x6 (e / 256) (4 * (e % 256) + 3)
def MOD_NIB_VALUE.TEMP : Fld := ⟨0, 16⟩
def MOD_NIB_VALUE.AUX : Fld := ⟨16, 8⟩
def MOD_NIB_VALUE.AGE : Fld := ⟨24, 8⟩
/-- `ULK_CFG` (R267, Table 09.13). -/
def ULK_CFG : Nat := regAddr 1 0x7 0xFF 0x0
def ULK_CFG.HB_EN : Fld := ⟨0, 1⟩
def ULK_CFG.ECHO_EN : Fld := ⟨1, 1⟩
def ULK_CFG.PORTEVT_EN : Fld := ⟨2, 1⟩
def ULK_CFG.SNOOP : Fld := ⟨3, 1⟩
/-- `ULK_PORT` (R267, Table 09.14). -/
def ULK_PORT (n : Nat) : Nat := regAddr 1 0x7 0xFF (0x10 + n)
def ULK_PORT.STATE : Fld := ⟨0, 2⟩
def ULK_PORT.EXT : Fld := ⟨2, 1⟩
def ULK_PORT.BEACON : Fld := ⟨3, 1⟩
def ULK_PORT.LINKFLT : Fld := ⟨4, 1⟩
def ULK_PORT.OUTDOWN : Fld := ⟨5, 1⟩
def ULK_PORT.UPCNT : Fld := ⟨16, 16⟩
/-- `ULK_ERR` (R267, Table 09.15). -/
def ULK_ERR (n : Nat) : Nat := regAddr 1 0x7 0xFF (0x12 + n)
def ULK_ERR.CRC : Fld := ⟨0, 8⟩
def ULK_ERR.CODE : Fld := ⟨8, 8⟩
def ULK_ERR.FORMAT : Fld := ⟨16, 8⟩
def ULK_ERR.STOMP : Fld := ⟨24, 8⟩
/-- `ULK_MISS` (R267, Table 09.16). -/
def ULK_MISS (n : Nat) : Nat := regAddr 1 0x7 0xFF (0x14 + n)
def ULK_MISS.BMISS : Fld := ⟨0, 16⟩
def ULK_MISS.DISCARD : Fld := ⟨16, 16⟩
/-- `ULK_ECHO` (R267, Table 09.17). -/
def ULK_ECHO (n : Nat) : Nat := regAddr 1 0x7 0xFF (0x16 + n)
def ULK_ECHO.RTT : Fld := ⟨0, 16⟩
def ULK_ECHO.TADJ : Fld := ⟨16, 16⟩
/-- `ULK_TX` (R267, Table 09.18). -/
def ULK_TX : Nat := regAddr 1 0x7 0xFF 0x18
def ULK_TX.QLEVEL : Fld := ⟨0, 12⟩
def ULK_TX.HOLDING : Fld := ⟨12, 1⟩
def ULK_TX.DROPS : Fld := ⟨16, 8⟩
def ULK_TX.LATEBLOT : Fld := ⟨24, 8⟩
/-- `ULK_RING` (R267, Table 09.18). -/
def ULK_RING : Nat := regAddr 1 0x7 0xFF 0x19
def ULK_RING.TONE_IN : Fld := ⟨0, 1⟩
def ULK_RING.TONE_PASS : Fld := ⟨1, 1⟩
def ULK_RING.WAKE_SEEN : Fld := ⟨2, 1⟩
def ULK_RING.WAKE_PORT : Fld := ⟨3, 1⟩
def ULK_RING.ENUM_FULL : Fld := ⟨4, 1⟩
def ULK_RING.ENUM_BAD : Fld := ⟨5, 1⟩
/-- `ULK_BLOT` (R267, Table 09.19). -/
def ULK_BLOT : Nat := regAddr 1 0x7 0xFF 0x1A
def ULK_BLOT.ID : Fld := ⟨0, 8⟩
def ULK_BLOT.PENDING : Fld := ⟨8, 1⟩
/-- `ULK_BLOTAT` (R267, Table 09.19). -/
def ULK_BLOTAT : Nat := regAddr 1 0x7 0xFF 0x1B
def ULK_BLOTAT.AT : Fld := ⟨0, 32⟩
/-- `MOD_SESSION` (R294, Table 10.13). -/
def MOD_SESSION : Nat := regAddr 3 0x30 0xFF 0x8
def MOD_SESSION.SESSION : Fld := ⟨0, 16⟩
/-- `CMD_STAT` (R294, Table 10.13). -/
def CMD_STAT : Nat := regAddr 2 0x20 0xFF 0x0
def CMD_STAT.FWSTATE : Fld := ⟨0, 3⟩
def CMD_STAT.LOOP : Fld := ⟨3, 1⟩
def CMD_STAT.LASTOP : Fld := ⟨8, 8⟩
/-- `JNL_STAT` (R294, Table 10.14). -/
def JNL_STAT : Nat := regAddr 2 0x21 0xFF 0x0
def JNL_STAT.EXPECT : Fld := ⟨0, 16⟩
def JNL_STAT.OPEN : Fld := ⟨16, 7⟩
def JNL_STAT.GAPWAIT : Fld := ⟨23, 1⟩
def JNL_STAT.REJOIN : Fld := ⟨24, 1⟩
def JNL_STAT.NOGUARD : Fld := ⟨25, 1⟩
/-- `JNL_CFG` (R294, Table 10.14). -/
def JNL_CFG : Nat := regAddr 2 0x21 0xFF 0x1
def JNL_CFG.GAPTO : Fld := ⟨0, 8⟩
/-- `JNL_CNT` (R294, Table 10.15). -/
def JNL_CNT : Nat := regAddr 2 0x21 0xFF 0x2
def JNL_CNT.DUPS : Fld := ⟨0, 8⟩
def JNL_CNT.REFUSED : Fld := ⟨8, 8⟩
def JNL_CNT.CRCERR : Fld := ⟨16, 8⟩
def JNL_CNT.STRANDED : Fld := ⟨24, 8⟩
/-- `JNL_GUARD` (R294, Table 10.15). -/
def JNL_GUARD : Nat := regAddr 2 0x21 0xFF 0x3
def JNL_GUARD.GUARDIAN : Fld := ⟨0, 3⟩
def JNL_GUARD.GVALID : Fld := ⟨3, 1⟩
def JNL_GUARD.WARD : Fld := ⟨4, 3⟩
def JNL_GUARD.WLOST : Fld := ⟨7, 1⟩
def JNL_GUARD.MIRRORS : Fld := ⟨8, 7⟩
def JNL_GUARD.WARDS : Fld := ⟨15, 8⟩
def JNL_GUARD.LOSTW : Fld := ⟨23, 8⟩
/-- `CHK_CFG` (R294, Table 10.16). -/
def CHK_CFG : Nat := regAddr 2 0x22 0xFF 0x0
def CHK_CFG.WIDTH : Fld := ⟨0, 7⟩
def CHK_CFG.REFIN : Fld := ⟨7, 1⟩
def CHK_CFG.REFOUT : Fld := ⟨8, 1⟩
/-- `CHK_POLY_LO` (R294, Table 10.17). -/
def CHK_POLY_LO : Nat := regAddr 2 0x22 0xFF 0x1
def CHK_POLY_LO.POLY : Fld := ⟨0, 32⟩
/-- `CHK_POLY_HI` (R294, Table 10.17). -/
def CHK_POLY_HI : Nat := regAddr 2 0x22 0xFF 0x2
def CHK_POLY_HI.POLY : Fld := ⟨0, 32⟩
/-- `CHK_INIT_LO` (R294, Table 10.17). -/
def CHK_INIT_LO : Nat := regAddr 2 0x22 0xFF 0x3
def CHK_INIT_LO.INIT : Fld := ⟨0, 32⟩
/-- `CHK_INIT_HI` (R294, Table 10.17). -/
def CHK_INIT_HI : Nat := regAddr 2 0x22 0xFF 0x4
def CHK_INIT_HI.INIT : Fld := ⟨0, 32⟩
/-- `CHK_XOR_LO` (R294, Table 10.17). -/
def CHK_XOR_LO : Nat := regAddr 2 0x22 0xFF 0x5
def CHK_XOR_LO.XOROUT : Fld := ⟨0, 32⟩
/-- `CHK_XOR_HI` (R294, Table 10.17). -/
def CHK_XOR_HI : Nat := regAddr 2 0x22 0xFF 0x6
def CHK_XOR_HI.XOROUT : Fld := ⟨0, 32⟩
/-- `CHK_ADDR` (R294, Table 10.17). -/
def CHK_ADDR : Nat := regAddr 2 0x22 0xFF 0x7
def CHK_ADDR.ADDR : Fld := ⟨0, 32⟩
/-- `CHK_LEN` (R294, Table 10.17). -/
def CHK_LEN : Nat := regAddr 2 0x22 0xFF 0x8
def CHK_LEN.LEN : Fld := ⟨0, 18⟩
/-- `CHK_CTRL` (R294, Table 10.16). -/
def CHK_CTRL : Nat := regAddr 2 0x22 0xFF 0x9
def CHK_CTRL.GO : Fld := ⟨0, 1⟩
def CHK_CTRL.ABORT : Fld := ⟨1, 1⟩
/-- `CHK_STAT` (R294, Table 10.16). -/
def CHK_STAT : Nat := regAddr 2 0x22 0xFF 0xA
def CHK_STAT.BUSY : Fld := ⟨0, 1⟩
def CHK_STAT.DONE : Fld := ⟨1, 1⟩
def CHK_STAT.ERR : Fld := ⟨2, 1⟩
def CHK_STAT.OWNER : Fld := ⟨3, 1⟩
/-- `CHK_RES_LO` (R294, Table 10.17). -/
def CHK_RES_LO : Nat := regAddr 2 0x22 0xFF 0xB
def CHK_RES_LO.RESULT : Fld := ⟨0, 32⟩
/-- `CHK_RES_HI` (R294, Table 10.17). -/
def CHK_RES_HI : Nat := regAddr 2 0x22 0xFF 0xC
def CHK_RES_HI.RESULT : Fld := ⟨0, 32⟩
/-- `BOOT_STAT` (R317, Table 11.8). -/
def BOOT_STAT : Nat := regAddr 2 0x23 0xFF 0x0
def BOOT_STAT.ROMOK : Fld := ⟨0, 1⟩
def BOOT_STAT.FUSEOK : Fld := ⟨1, 1⟩
def BOOT_STAT.STRAPOK : Fld := ⟨2, 1⟩
def BOOT_STAT.CSTERR : Fld := ⟨3, 1⟩
def BOOT_STAT.CALDONE : Fld := ⟨4, 1⟩
def BOOT_STAT.CALFAIL : Fld := ⟨5, 1⟩
def BOOT_STAT.START : Fld := ⟨6, 2⟩
def BOOT_STAT.CST : Fld := ⟨8, 4⟩
/-- `BOOT_LOAD` (R317, Table 11.9). -/
def BOOT_LOAD : Nat := regAddr 2 0x23 0xFF 0x1
def BOOT_LOAD.LOADID : Fld := ⟨0, 16⟩
def BOOT_LOAD.STATE : Fld := ⟨16, 3⟩
def BOOT_LOAD.ENDSEEN : Fld := ⟨19, 1⟩
def BOOT_LOAD.BLOCKS : Fld := ⟨20, 8⟩
def BOOT_LOAD.ERR : Fld := ⟨28, 4⟩
/-- `BOOT_LOADCRC` (R317, Table 11.9). -/
def BOOT_LOADCRC : Nat := regAddr 2 0x23 0xFF 0x2
def BOOT_LOADCRC.CRC : Fld := ⟨0, 32⟩
/-- `BOOT_IMAGE` (R317, Table 11.10). -/
def BOOT_IMAGE : Nat := regAddr 2 0x23 0xFF 0x3
def BOOT_IMAGE.LENGTH : Fld := ⟨0, 17⟩
def BOOT_IMAGE.SIGNED : Fld := ⟨17, 1⟩
def BOOT_IMAGE.KEYIDX : Fld := ⟨18, 2⟩
def BOOT_IMAGE.VERIFIED : Fld := ⟨20, 1⟩
/-- `BOOT_VERSION` (R317, Table 11.10). -/
def BOOT_VERSION : Nat := regAddr 2 0x23 0xFF 0x4
def BOOT_VERSION.VERSION : Fld := ⟨0, 32⟩
/-- `BOOT_MISS` (R317, Table 11.9). -/
def BOOT_MISS : Nat := regAddr 2 0x23 0xFF 0x5
def BOOT_MISS.FIRSTMISS : Fld := ⟨0, 16⟩
def BOOT_MISS.BADBLK : Fld := ⟨16, 16⟩
/-- `FOL_STAT` (R317, Table 11.11). -/
def FOL_STAT : Nat := regAddr 2 0x24 0xFF 0x0
def FOL_STAT.ACTIVE : Fld := ⟨0, 2⟩
def FOL_STAT.AVALID : Fld := ⟨2, 1⟩
def FOL_STAT.BVALID : Fld := ⟨3, 1⟩
def FOL_STAT.PENDING : Fld := ⟨4, 1⟩
def FOL_STAT.FALLBACK : Fld := ⟨5, 1⟩
def FOL_STAT.CRCERR : Fld := ⟨6, 1⟩
def FOL_STAT.MODEPEND : Fld := ⟨7, 1⟩
def FOL_STAT.SEALERR : Fld := ⟨8, 3⟩
def FOL_STAT.NAPPLIED : Fld := ⟨16, 9⟩
/-- `FOL_SEQA` (R317, Table 11.11). -/
def FOL_SEQA : Nat := regAddr 2 0x24 0xFF 0x1
def FOL_SEQA.SEQ : Fld := ⟨0, 32⟩
/-- `FOL_SEQB` (R317, Table 11.11). -/
def FOL_SEQB : Nat := regAddr 2 0x24 0xFF 0x2
def FOL_SEQB.SEQ : Fld := ⟨0, 32⟩
/-- `FOL_SEALSEQ` (R317, Table 11.11). -/
def FOL_SEALSEQ : Nat := regAddr 2 0x24 0xFF 0x3
def FOL_SEALSEQ.SEQ : Fld := ⟨0, 32⟩
/-- `FOL_SEALCRC` (R317, Table 11.11). -/
def FOL_SEALCRC : Nat := regAddr 2 0x24 0xFF 0x4
def FOL_SEALCRC.CRC : Fld := ⟨0, 32⟩
/-- `FOL_ERR` (R317, Table 11.11). -/
def FOL_ERR : Nat := regAddr 2 0x24 0xFF 0x5
def FOL_ERR.RECORD : Fld := ⟨0, 9⟩
/-- `FOL_DATA` (R317, Table 11.11). -/
def FOL_DATA (n : Nat) : Nat := regAddr 2 0x24 0x0 n
def FOL_DATA.DATA : Fld := ⟨0, 32⟩
/-- `FOL_ACTIVE` (R317, Table 11.11). -/
def FOL_ACTIVE (n : Nat) : Nat := regAddr 2 0x24 0x1 n
def FOL_ACTIVE.DATA : Fld := ⟨0, 32⟩
/-- `THM_CFG` (R338, Table 12.9). -/
def THM_CFG : Nat := regAddr 0 0x14 0xFF 0x0
def THM_CFG.STEP : Fld := ⟨0, 4⟩
def THM_CFG.IFLOOR : Fld := ⟨4, 8⟩
def THM_CFG.CUTMASK : Fld := ⟨16, 5⟩
/-- `THM_STAT` (R338, Table 12.10). -/
def THM_STAT : Nat := regAddr 0 0x14 0xFF 0x1
def THM_STAT.LEVEL : Fld := ⟨0, 3⟩
def THM_STAT.HOLD : Fld := ⟨3, 1⟩
def THM_STAT.CUT : Fld := ⟨4, 1⟩
def THM_STAT.CUTSEEN : Fld := ⟨5, 1⟩
def THM_STAT.DEPTH : Fld := ⟨6, 4⟩
def THM_STAT.PLCAP : Fld := ⟨10, 2⟩
def THM_STAT.SWPAUSE : Fld := ⟨12, 1⟩
def THM_STAT.NOCHECK : Fld := ⟨13, 1⟩
def THM_STAT.TG : Fld := ⟨16, 16⟩
/-- `THM_CMD` (R338, Table 12.9). -/
def THM_CMD : Nat := regAddr 0 0x14 0xFF 0x2
def THM_CMD.HOLDCLR : Fld := ⟨0, 1⟩
/-- `THM_XCHK` (R338, Table 12.9). -/
def THM_XCHK : Nat := regAddr 0 0x14 0xFF 0x3
def THM_XCHK.LIM : Fld := ⟨0, 8⟩
def THM_XCHK.PAGES : Fld := ⟨8, 8⟩
def THM_XCHK.MARGIN : Fld := ⟨16, 8⟩
/-- `THM_TRANS` (R338, Table 12.10). -/
def THM_TRANS : Nat := regAddr 0 0x14 0xFF 0x4
def THM_TRANS.UP : Fld := ⟨0, 16⟩
def THM_TRANS.DOWN : Fld := ⟨16, 16⟩
/-- `THM_HOSTLIM` (R338, Table 12.11). -/
def THM_HOSTLIM : Nat := regAddr 0 0x14 0xFF 0x5
def THM_HOSTLIM.ILIM : Fld := ⟨0, 16⟩
def THM_HOSTLIM.PLCAP : Fld := ⟨16, 2⟩
def THM_HOSTLIM.SWPAUSE : Fld := ⟨18, 1⟩
/-- `THM_TDIE` (R338, Table 12.11). -/
def THM_TDIE : Nat := regAddr 0 0x14 0xFF 0x6
def THM_TDIE.TDIE : Fld := ⟨0, 16⟩
def THM_TDIE.SUBST : Fld := ⟨16, 1⟩
/-- `THM_STOPREC` (R338, Table 12.12). -/
def THM_STOPREC : Nat := regAddr 0 0x14 0xFF 0x7
def THM_STOPREC.SENSOR : Fld := ⟨0, 3⟩
def THM_STOPREC.CUT : Fld := ⟨3, 1⟩
def THM_STOPREC.SENSE : Fld := ⟨4, 1⟩
def THM_STOPREC.TG : Fld := ⟨16, 16⟩
/-- `THM_STOPAT` (R338, Table 12.12). -/
def THM_STOPAT : Nat := regAddr 0 0x14 0xFF 0x8
def THM_STOPAT.AT : Fld := ⟨0, 32⟩
/-- `THM_CELLOT` (R338, Table 12.13). -/
def THM_CELLOT : Nat := regAddr 0 0x14 0xFF 0x9
def THM_CELLOT.NIBLIM : Fld := ⟨0, 8⟩
def THM_CELLOT.ZLIM : Fld := ⟨8, 8⟩
def THM_CELLOT.HYST : Fld := ⟨16, 8⟩
def THM_CELLOT.ZEN : Fld := ⟨24, 1⟩
/-- `THM_CELLSTAT` (R338, Table 12.13). -/
def THM_CELLSTAT : Nat := regAddr 0 0x14 0xFF 0xA
def THM_CELLSTAT.NIB : Fld := ⟨0, 16⟩
def THM_CELLSTAT.Z : Fld := ⟨16, 16⟩
/-- `THM_OTSTAT` (R338, Table 12.13). -/
def THM_OTSTAT : Nat := regAddr 0 0x14 0xFF 0xB
def THM_OTSTAT.AUXHOT : Fld := ⟨0, 8⟩
def THM_OTSTAT.UNASSOC : Fld := ⟨8, 1⟩
/-- `THM_AUX` (R338, Table 12.13). -/
def THM_AUX (n : Nat) : Nat := regAddr 0 0x14 0xFF (0x10 + n)
def THM_AUX.EN : Fld := ⟨0, 1⟩
def THM_AUX.POL : Fld := ⟨1, 1⟩
def THM_AUX.HYST : Fld := ⟨4, 12⟩
def THM_AUX.TH : Fld := ⟨16, 16⟩
/-- `THM_SENS` (R338, Table 12.14). -/
def THM_SENS (c : Nat) : Nat := regAddr 0 0x14 c 0x0
def THM_SENS.READING : Fld := ⟨0, 16⟩
def THM_SENS.INUSE : Fld := ⟨16, 16⟩
/-- `THM_SEST` (R338, Table 12.14). -/
def THM_SEST (c : Nat) : Nat := regAddr 0 0x14 c 0x1
def THM_SEST.EST : Fld := ⟨0, 16⟩
def THM_SEST.STATE : Fld := ⟨16, 2⟩
def THM_SEST.EXCL : Fld := ⟨18, 1⟩
def THM_SEST.DEVPAGES : Fld := ⟨24, 8⟩
/-- `THM_NBR` (R338, Table 12.14). -/
def THM_NBR (c : Nat) : Nat := regAddr 0 0x14 c 0x2
def THM_NBR.R_CX0 : Fld := ⟨0, 8⟩
def THM_NBR.R_CX1 : Fld := ⟨8, 8⟩
def THM_NBR.R_CORE : Fld := ⟨16, 8⟩
/-- `CAL_CFG` (R358, Table 13.6). -/
def CAL_CFG : Nat := regAddr 2 0x25 0xFF 0x0
def CAL_CFG.DTCAL : Fld := ⟨0, 6⟩
def CAL_CFG.WIN : Fld := ⟨6, 2⟩
def CAL_CFG.REFX_EN : Fld := ⟨8, 1⟩
def CAL_CFG.MAXINT : Fld := ⟨16, 16⟩
/-- `CAL_CMD` (R358, Table 13.6). -/
def CAL_CMD : Nat := regAddr 2 0x25 0xFF 0x1
def CAL_CMD.GO : Fld := ⟨0, 1⟩
def CAL_CMD.ABORT : Fld := ⟨1, 1⟩
def CAL_CMD.FBCLR : Fld := ⟨2, 1⟩
/-- `CAL_STAT` (R358, Table 13.7). -/
def CAL_STAT : Nat := regAddr 2 0x25 0xFF 0x2
def CAL_STAT.STATE : Fld := ⟨0, 3⟩
def CAL_STAT.PENDING : Fld := ⟨3, 1⟩
def CAL_STAT.ITEM : Fld := ⟨4, 5⟩
def CAL_STAT.TSUBST : Fld := ⟨9, 1⟩
def CAL_STAT.MERGED : Fld := ⟨16, 8⟩
def CAL_STAT.PASSES : Fld := ⟨24, 8⟩
/-- `CAL_LAST` (R358, Table 13.7). -/
def CAL_LAST : Nat := regAddr 2 0x25 0xFF 0x3
def CAL_LAST.AT : Fld := ⟨0, 32⟩
/-- `CAL_LASTT` (R358, Table 13.7). -/
def CAL_LASTT : Nat := regAddr 2 0x25 0xFF 0x4
def CAL_LASTT.TREF : Fld := ⟨0, 16⟩
def CAL_LASTT.CAUSE : Fld := ⟨16, 3⟩
def CAL_LASTT.ABANDONED : Fld := ⟨19, 1⟩
/-- `CAL_REF` (R358, Table 13.8). -/
def CAL_REF : Nat := regAddr 2 0x25 0xFF 0x5
def CAL_REF.DIS : Fld := ⟨0, 16⟩
def CAL_REF.FALLBACK : Fld := ⟨16, 1⟩
def CAL_REF.DEGRADED : Fld := ⟨17, 1⟩
def CAL_REF.REFXBAD : Fld := ⟨18, 1⟩
def CAL_REF.SUSPECT : Fld := ⟨19, 2⟩
def CAL_REF.RCALBAD : Fld := ⟨21, 1⟩
/-- `CAL_RCAL` (R358, Table 13.8). -/
def CAL_RCAL : Nat := regAddr 2 0x25 0xFF 0x6
def CAL_RCAL.IT : Fld := ⟨0, 16⟩
/-- `CAL_AUX` (R358, Table 13.9). -/
def CAL_AUX : Nat := regAddr 2 0x25 0xFF 0x10
def CAL_AUX.OFFSET : Fld := ⟨0, 16⟩
def CAL_AUX.GAIN : Fld := ⟨16, 16⟩
/-- `CAL_IS` (R358, Table 13.9). -/
def CAL_IS (n : Nat) : Nat := regAddr 2 0x25 0xFF (0x11 + n)
def CAL_IS.OFFSET : Fld := ⟨0, 16⟩
def CAL_IS.GAIN : Fld := ⟨16, 16⟩
/-- `CAL_CH` (R358, Table 13.9). -/
def CAL_CH (c : Nat) : Nat := regAddr 2 0x25 c 0x0
def CAL_CH.OFFSET : Fld := ⟨0, 16⟩
def CAL_CH.GAIN : Fld := ⟨16, 16⟩
/-- `CAL_CHST` (R358, Table 13.9). -/
def CAL_CHST (c : Nat) : Nat := regAddr 2 0x25 c 0x1
def CAL_CHST.ELEM : Fld := ⟨0, 8⟩
def CAL_CHST.STATUS : Fld := ⟨8, 3⟩
def CAL_CHST.AGE : Fld := ⟨16, 16⟩
/-- `CAL_FAC` (R340, Table 13.10). -/
def CAL_FAC (c n : Nat) : Nat := regAddr 2 0x25 (0x30 + c) n
def CAL_FAC.OFFSET : Fld := ⟨0, 16⟩
def CAL_FAC.GAIN : Fld := ⟨16, 16⟩
/-- `CAL_FAC_AUX` (R340, Table 13.10). -/
def CAL_FAC_AUX (c : Nat) : Nat := regAddr 2 0x25 (0x30 + c) 0x18
def CAL_FAC_AUX.AOFF : Fld := ⟨0, 16⟩
def CAL_FAC_AUX.AGAIN : Fld := ⟨16, 16⟩
/-- `CAL_FAC_IS` (R340, Table 13.10). -/
def CAL_FAC_IS (c n : Nat) : Nat := regAddr 2 0x25 (0x30 + c) (0x19 + n)
def CAL_FAC_IS.IOFF : Fld := ⟨0, 16⟩
def CAL_FAC_IS.IGAIN : Fld := ⟨16, 16⟩
/-- `CAL_FAC_REF` (R340, Table 13.10). -/
def CAL_FAC_REF (c : Nat) : Nat := regAddr 2 0x25 (0x30 + c) 0x20
def CAL_FAC_REF.BGTRIM : Fld := ⟨0, 16⟩
def CAL_FAC_REF.ZTRIM : Fld := ⟨16, 16⟩
/-- `CAL_FAC_SH` (R340, Table 13.10). -/
def CAL_FAC_SH (c : Nat) : Nat := regAddr 2 0x25 (0x30 + c) 0x21
def CAL_FAC_SH.SHTRIM : Fld := ⟨0, 16⟩
/-- `CAL_FAC_OSC` (R340, Table 13.10). -/
def CAL_FAC_OSC (c : Nat) : Nat := regAddr 2 0x25 (0x30 + c) 0x22
def CAL_FAC_OSC.MCLKTRIM : Fld := ⟨0, 16⟩
def CAL_FAC_OSC.LFTRIM : Fld := ⟨16, 16⟩
/-- `FCOL_STK` (R385, Table 14.11). -/
def FCOL_STK (n : Nat) : Nat := regAddr 2 0x26 0xFF n
def FCOL_STK.STK : Fld := ⟨0, 32⟩
/-- `FCOL_LIVE` (R385, Table 14.11). -/
def FCOL_LIVE (n : Nat) : Nat := regAddr 2 0x26 0xFF (0x8 + n)
def FCOL_LIVE.LIVE : Fld := ⟨0, 32⟩
/-- `FCOL_STATE` (R385, Table 14.12). -/
def FCOL_STATE : Nat := regAddr 2 0x26 0xFF 0x10
def FCOL_STATE.STATE : Fld := ⟨0, 2⟩
def FCOL_STATE.LATENT : Fld := ⟨2, 1⟩
def FCOL_STATE.INJ : Fld := ⟨3, 1⟩
def FCOL_STATE.HOSTREACT : Fld := ⟨4, 1⟩
/-- `FCOL_CFG` (R385, Table 14.12). -/
def FCOL_CFG : Nat := regAddr 2 0x26 0xFF 0x11
def FCOL_CFG.RESTART : Fld := ⟨0, 1⟩
/-- `FCOL_CTRL` (R385, Table 14.12). -/
def FCOL_CTRL : Nat := regAddr 2 0x26 0xFF 0x12
def FCOL_CTRL.RESUME : Fld := ⟨0, 1⟩
def FCOL_CTRL.EVCLR : Fld := ⟨1, 1⟩
def FCOL_CTRL.KICK : Fld := ⟨2, 1⟩
/-- `FCOL_INJ` (R385, Table 14.12). -/
def FCOL_INJ : Nat := regAddr 2 0x26 0xFF 0x13
def FCOL_INJ.CHECKER : Fld := ⟨0, 5⟩
def FCOL_INJ.COUNT : Fld := ⟨5, 4⟩
def FCOL_INJ.ARMED : Fld := ⟨16, 5⟩
def FCOL_INJ.REMAIN : Fld := ⟨24, 4⟩
/-- `FCOL_CNTCFG` (R366, Table 14.13). -/
def FCOL_CNTCFG (n : Nat) : Nat := regAddr 2 0x26 0xFF (0x20 + n)
def FCOL_CNTCFG.N : Fld := ⟨0, 8⟩
def FCOL_CNTCFG.W_M1 : Fld := ⟨8, 8⟩
def FCOL_CNTCFG.SEVCLASS : Fld := ⟨16, 1⟩
/-- `FCOL_CNTSTAT` (R385, Table 14.13). -/
def FCOL_CNTSTAT (n : Nat) : Nat := regAddr 2 0x26 0xFF (0x30 + n)
def FCOL_CNTSTAT.COUNT : Fld := ⟨0, 9⟩
def FCOL_CNTSTAT.SEVERE : Fld := ⟨9, 1⟩
/-- `FCOL_EVCNT` (R385, Table 14.11). -/
def FCOL_EVCNT (n : Nat) : Nat := regAddr 2 0x26 0xFF (0x40 + n)
def FCOL_EVCNT.CNT0 : Fld := ⟨0, 8⟩
def FCOL_EVCNT.CNT1 : Fld := ⟨8, 8⟩
def FCOL_EVCNT.CNT2 : Fld := ⟨16, 8⟩
def FCOL_EVCNT.CNT3 : Fld := ⟨24, 8⟩
/-- `MOD_FCOL_SUM` (R381, Table 14.7). -/
def MOD_FCOL_SUM : Nat := regAddr 3 0x26 0xFF 0x0
def MOD_FCOL_SUM.SAFE : Fld := ⟨0, 8⟩
def MOD_FCOL_SUM.CONTAINED : Fld := ⟨8, 8⟩
def MOD_FCOL_SUM.SEVERE : Fld := ⟨16, 8⟩
def MOD_FCOL_SUM.DIELOST : Fld := ⟨24, 1⟩
def MOD_FCOL_SUM.FAULTN : Fld := ⟨25, 1⟩
def MOD_FCOL_SUM.INJ : Fld := ⟨26, 1⟩
def MOD_FCOL_SUM.LATENT : Fld := ⟨27, 1⟩
/-- `SNAP_HDR0` (R385, Table 14.14). -/
def SNAP_HDR0 : Nat := regAddr 2 0x27 0xFF 0x0
def SNAP_HDR0.TRIG : Fld := ⟨0, 5⟩
def SNAP_HDR0.ID : Fld := ⟨8, 8⟩
def SNAP_HDR0.HELD : Fld := ⟨16, 1⟩
def SNAP_HDR0.READ : Fld := ⟨17, 1⟩
/-- `SNAP_HDR1` (R385, Table 14.14). -/
def SNAP_HDR1 : Nat := regAddr 2 0x27 0xFF 0x1
def SNAP_HDR1.AT : Fld := ⟨0, 32⟩
/-- `SNAP_HDR2` (R385, Table 14.14). -/
def SNAP_HDR2 : Nat := regAddr 2 0x27 0xFF 0x2
def SNAP_HDR2.AT_HI : Fld := ⟨0, 16⟩
def SNAP_HDR2.CYCLE : Fld := ⟨16, 10⟩
/-- `MOD_SNAP_CFG` (R385, Table 14.14). -/
def MOD_SNAP_CFG : Nat := regAddr 3 0x27 0xFF 0x0
def MOD_SNAP_CFG.PIN_EN : Fld := ⟨0, 1⟩
def MOD_SNAP_CFG.PIN_POL : Fld := ⟨1, 1⟩
def MOD_SNAP_CFG.FAULTLVL : Fld := ⟨2, 2⟩
def MOD_SNAP_CFG.CAP_EN : Fld := ⟨4, 1⟩
def MOD_SNAP_CFG.RING_EN : Fld := ⟨5, 1⟩
/-- `MOD_SNAP_CTRL` (R385, Table 14.14). -/
def MOD_SNAP_CTRL : Nat := regAddr 3 0x27 0xFF 0x1
def MOD_SNAP_CTRL.ARM : Fld := ⟨0, 1⟩
def MOD_SNAP_CTRL.FORCE : Fld := ⟨1, 1⟩
def MOD_SNAP_CTRL.FIRE : Fld := ⟨2, 1⟩
/-- `MOD_SNAP_STAT` (R385, Table 14.14). -/
def MOD_SNAP_STAT : Nat := regAddr 3 0x27 0xFF 0x2
def MOD_SNAP_STAT.STATE : Fld := ⟨0, 1⟩
def MOD_SNAP_STAT.MISSED : Fld := ⟨8, 8⟩
def MOD_SNAP_STAT.UNREAD : Fld := ⟨16, 8⟩
/-- `PWR_STATE` (R411, Table 15.13). -/
def PWR_STATE : Nat := regAddr 2 0x28 0xFF 0x0
def PWR_STATE.STATE : Fld := ⟨0, 3⟩
def PWR_STATE.TARGET : Fld := ⟨3, 3⟩
def PWR_STATE.STEP : Fld := ⟨6, 3⟩
def PWR_STATE.PLAPP : Fld := ⟨9, 2⟩
def PWR_STATE.PLCAP : Fld := ⟨11, 2⟩
def PWR_STATE.PLBUSY : Fld := ⟨13, 1⟩
def PWR_STATE.DIP : Fld := ⟨14, 1⟩
def PWR_STATE.WOUT : Fld := ⟨15, 1⟩
/-- `PWR_CMD` (R411, Table 15.13). -/
def PWR_CMD : Nat := regAddr 2 0x28 0xFF 0x1
def PWR_CMD.WAKE : Fld := ⟨0, 1⟩
def PWR_CMD.WOCLR : Fld := ⟨1, 1⟩
def PWR_CMD.PADREL : Fld := ⟨2, 6⟩
/-- `PWR_CFG` (R411, Table 15.14). -/
def PWR_CFG : Nat := regAddr 2 0x28 0xFF 0x2
def PWR_CFG.PLREQ : Fld := ⟨0, 2⟩
def PWR_CFG.DLYMAX : Fld := ⟨2, 16⟩
def PWR_CFG.RELTO : Fld := ⟨18, 14⟩
/-- `PWR_ENTRY` (R411, Table 15.14). -/
def PWR_ENTRY : Nat := regAddr 2 0x28 0xFF 0x3
def PWR_ENTRY.OUTCOME : Fld := ⟨0, 2⟩
def PWR_ENTRY.TARGET : Fld := ⟨2, 3⟩
def PWR_ENTRY.AP : Fld := ⟨5, 3⟩
def PWR_ENTRY.BLOCK : Fld := ⟨8, 8⟩
def PWR_ENTRY.REASON : Fld := ⟨16, 8⟩
def PWR_ENTRY.DIE : Fld := ⟨24, 3⟩
/-- `PWR_ABORTAT` (R411, Table 15.14). -/
def PWR_ABORTAT : Nat := regAddr 2 0x28 0xFF 0x4
def PWR_ABORTAT.AT : Fld := ⟨0, 32⟩
/-- `PWR_NCFG` (R411, Table 15.15). -/
def PWR_NCFG : Nat := regAddr 2 0x28 0xFF 0x5
def PWR_NCFG.INTERVAL : Fld := ⟨0, 12⟩
def PWR_NCFG.SPANTOL : Fld := ⟨16, 8⟩
/-- `PWR_NSTAT` (R411, Table 15.15). -/
def PWR_NSTAT : Nat := regAddr 2 0x28 0xFF 0x6
def PWR_NSTAT.CHECKS : Fld := ⟨0, 16⟩
def PWR_NSTAT.FAIL : Fld := ⟨16, 1⟩
def PWR_NSTAT.CAUSE : Fld := ⟨17, 3⟩
def PWR_NSTAT.CELL : Fld := ⟨20, 5⟩
/-- `PWR_WAKECFG` (R411, Table 15.16). -/
def PWR_WAKECFG : Nat := regAddr 2 0x28 0xFF 0x7
def PWR_WAKECFG.W0EN : Fld := ⟨0, 1⟩
def PWR_WAKECFG.W0POL : Fld := ⟨1, 1⟩
def PWR_WAKECFG.W0FILT : Fld := ⟨2, 4⟩
def PWR_WAKECFG.W1EN : Fld := ⟨6, 1⟩
def PWR_WAKECFG.W1POL : Fld := ⟨7, 1⟩
def PWR_WAKECFG.W1FILT : Fld := ⟨8, 4⟩
def PWR_WAKECFG.W1OUT : Fld := ⟨12, 1⟩
/-- `PWR_WAKESRC` (R411, Table 15.16). -/
def PWR_WAKESRC : Nat := regAddr 2 0x28 0xFF 0x8
def PWR_WAKESRC.WAKE0 : Fld := ⟨0, 1⟩
def PWR_WAKESRC.WAKE1 : Fld := ⟨1, 1⟩
def PWR_WAKESRC.BURSTA : Fld := ⟨2, 1⟩
def PWR_WAKESRC.BURSTB : Fld := ⟨3, 1⟩
def PWR_WAKESRC.LINE : Fld := ⟨4, 1⟩
def PWR_WAKESRC.NCAP : Fld := ⟨5, 1⟩
def PWR_WAKESRC.CMD : Fld := ⟨6, 1⟩
def PWR_WAKESRC.REG : Fld := ⟨7, 1⟩
/-- `PWR_PAD` (R411, Table 15.16). -/
def PWR_PAD : Nat := regAddr 2 0x28 0xFF 0x9
def PWR_PAD.HELD : Fld := ⟨0, 6⟩
/-- `PWR_SUPPLY` (R411, Table 15.17). -/
def PWR_SUPPLY : Nat := regAddr 2 0x28 0xFF 0xA
def PWR_SUPPLY.VSTK : Fld := ⟨0, 16⟩
def PWR_SUPPLY.VREG5 : Fld := ⟨16, 12⟩
def PWR_SUPPLY.OVLIVE : Fld := ⟨28, 1⟩
/-- `PWR_DIP` (R411, Table 15.17). -/
def PWR_DIP : Nat := regAddr 2 0x28 0xFF 0xB
def PWR_DIP.DIPS : Fld := ⟨0, 8⟩
def PWR_DIP.LAST : Fld := ⟨8, 16⟩
def PWR_DIP.LIVE : Fld := ⟨24, 1⟩
/-- `BIST_CFG` (R437, Table 16.6). -/
def BIST_CFG : Nat := regAddr 2 0x29 0xFF 0x0
def BIST_CFG.PERIODIC : Fld := ⟨0, 1⟩
def BIST_CFG.ELEM_EN : Fld := ⟨1, 1⟩
/-- `BIST_STAT` (R437, Table 16.6). -/
def BIST_STAT : Nat := regAddr 2 0x29 0xFF 0x1
def BIST_STAT.PART : Fld := ⟨0, 5⟩
def BIST_STAT.SLICE : Fld := ⟨5, 3⟩
def BIST_STAT.RUNNING : Fld := ⟨8, 1⟩
def BIST_STAT.INCCNT : Fld := ⟨16, 8⟩
def BIST_STAT.CYCLES : Fld := ⟨24, 8⟩
/-- `BIST_REPAIR` (R437, Table 16.7). -/
def BIST_REPAIR : Nat := regAddr 2 0x29 0xFF 0x2
def BIST_REPAIR.LOSSES : Fld := ⟨0, 2⟩
def BIST_REPAIR.SPAREFAIL : Fld := ⟨2, 1⟩
def BIST_REPAIR.SPARETGT : Fld := ⟨3, 5⟩
def BIST_REPAIR.FUSED : Fld := ⟨8, 1⟩
/-- `BIST_CHFAIL` (R437, Table 16.7). -/
def BIST_CHFAIL : Nat := regAddr 2 0x29 0xFF 0x3
def BIST_CHFAIL.FAILED : Fld := ⟨0, 18⟩
/-- `BIST_RUN` (R437, Table 16.8). -/
def BIST_RUN : Nat := regAddr 2 0x29 0xFF 0x4
def BIST_RUN.STATE : Fld := ⟨0, 3⟩
def BIST_RUN.PART : Fld := ⟨3, 5⟩
def BIST_RUN.MACROS : Fld := ⟨8, 24⟩
/-- `BIST_PROG` (R437, Table 16.8). -/
def BIST_PROG : Nat := regAddr 2 0x29 0xFF 0x5
def BIST_PROG.SEED : Fld := ⟨0, 16⟩
def BIST_PROG.SLICES : Fld := ⟨16, 6⟩
def BIST_PROG.CUSTOM : Fld := ⟨22, 1⟩
/-- `BIST_EXPSIG` (R437, Table 16.8). -/
def BIST_EXPSIG : Nat := regAddr 2 0x29 0xFF 0x6
def BIST_EXPSIG.SIG : Fld := ⟨0, 32⟩
/-- `BIST_FUSE` (R437, Table 16.8). -/
def BIST_FUSE : Nat := regAddr 2 0x29 0xFF 0x7
def BIST_FUSE.GO : Fld := ⟨0, 1⟩
def BIST_FUSE.BUSY : Fld := ⟨1, 1⟩
def BIST_FUSE.DONE : Fld := ⟨2, 1⟩
def BIST_FUSE.ERR : Fld := ⟨3, 1⟩
/-- `BIST_CTRL` (R437, Table 16.6). -/
def BIST_CTRL : Nat := regAddr 2 0x29 0xFF 0x8
def BIST_CTRL.ABORT : Fld := ⟨0, 1⟩
/-- `BIST_ELEM` (R437, Table 16.9). -/
def BIST_ELEM (c : Nat) : Nat := regAddr 2 0x29 c 0x0
def BIST_ELEM.MARKED : Fld := ⟨0, 8⟩
def BIST_ELEM.RANGES : Fld := ⟨8, 3⟩
def BIST_ELEM.REPEATS : Fld := ⟨11, 3⟩
def BIST_ELEM.AGE : Fld := ⟨16, 8⟩
/-- `BIST_PART` (R437, Table 16.9). -/
def BIST_PART (c : Nat) : Nat := regAddr 2 0x29 (0x20 + c) 0x0
def BIST_PART.RESULT : Fld := ⟨0, 2⟩
def BIST_PART.INCOMPLETES : Fld := ⟨8, 8⟩
def BIST_PART.AGE : Fld := ⟨16, 16⟩
/-- `BIST_MAC` (R437, Table 16.9). -/
def BIST_MAC (c : Nat) : Nat := regAddr 2 0x29 (0x40 + c) 0x0
def BIST_MAC.SPROWS : Fld := ⟨0, 2⟩
def BIST_MAC.SPCOL : Fld := ⟨2, 1⟩
def BIST_MAC.UNREP : Fld := ⟨3, 1⟩
def BIST_MAC.ROW : Fld := ⟨4, 6⟩
def BIST_MAC.FAILS : Fld := ⟨16, 8⟩
def BIST_MAC.FUSED : Fld := ⟨24, 1⟩
/-- `LCY_STATE` (R437, Table 16.10). -/
def LCY_STATE : Nat := regAddr 2 0x2A 0xFF 0x0
def LCY_STATE.STATE : Fld := ⟨0, 3⟩
def LCY_STATE.AUTH : Fld := ⟨3, 1⟩
def LCY_STATE.PUMP : Fld := ⟨4, 1⟩
def LCY_STATE.AUTHFAIL : Fld := ⟨8, 8⟩
/-- `LCY_KEYS` (R437, Table 16.10). -/
def LCY_KEYS : Nat := regAddr 2 0x2A 0xFF 0x1
def LCY_KEYS.PROG : Fld := ⟨0, 4⟩
def LCY_KEYS.REVOKED : Fld := ⟨4, 4⟩
def LCY_KEYS.SKEY : Fld := ⟨8, 1⟩
/-- `LCY_UID_LO` (R437, Table 16.10). -/
def LCY_UID_LO : Nat := regAddr 2 0x2A 0xFF 0x2
def LCY_UID_LO.UID : Fld := ⟨0, 32⟩
/-- `LCY_UID_HI` (R437, Table 16.10). -/
def LCY_UID_HI : Nat := regAddr 2 0x2A 0xFF 0x3
def LCY_UID_HI.UID : Fld := ⟨0, 32⟩
/-- `LCY_FUSECMD` (R437, Table 16.11). -/
def LCY_FUSECMD : Nat := regAddr 2 0x2A 0xFF 0x4
def LCY_FUSECMD.OP : Fld := ⟨0, 2⟩
def LCY_FUSECMD.SLOT : Fld := ⟨2, 2⟩
def LCY_FUSECMD.GO : Fld := ⟨4, 1⟩
def LCY_FUSECMD.BUSY : Fld := ⟨8, 1⟩
def LCY_FUSECMD.ERR : Fld := ⟨9, 1⟩
/-- `LCY_FUSEDATA` (R437, Table 16.11). -/
def LCY_FUSEDATA (n : Nat) : Nat := regAddr 2 0x2A 0xFF (0x10 + n)
def LCY_FUSEDATA.DATA : Fld := ⟨0, 32⟩

end Sys2Proof.Machine
end

