-- ==== Sys2Proof/Machine/RegTable.lean ====
section
/-! DEFINITION. The field maps of the spec as one table: for every register its place, and for every field its type
code (Table 00.3, R7), its reset value (R11) and whether it keeps its value across a die reset other than power loss.
Reset values the spec takes from fuses read 0 here (assumption 2); the boot loads the fuses (R295, R340). -/
namespace Sys2Proof.Machine

/-- The type codes of a field map (Table 00.3, R7). -/
inductive FType where
  | ro | rw | wo | w1c | stk | lck
  deriving DecidableEq, Repr

/-- One field of a field map: place, type code, reset value and retention across a die reset. -/
structure FieldDesc where
  fld   : Fld
  ty    : FType
  reset : Nat
  keep  : Bool
  deriving DecidableEq, Repr

/-- One row of the location tables: a register, or an array of like registers, and its field map. -/
structure RegDesc where
  name   : String
  plane  : Nat
  block  : Nat
  chan   : Nat
  nchan  : Nat
  word   : Nat
  nword  : Nat
  stride : Nat
  fields : List FieldDesc
  deriving DecidableEq, Repr

/-- A snapshot word: the copy of a register at the latch (R384, Table 14.9). -/
def SNAP_WORD (block n : Nat) : Nat := regAddr 2 0x27 block n
def SNAP_WORD.COPY : Fld := ⟨0, 32⟩

/-- The registers of block MOD in plane 3. -/
def regsMOD3 : List RegDesc :=
  [⟨"MOD_TOPOLOGY", 3, 0x30, 0xFF, 1, 0x0, 1, 1,
    [⟨MOD_TOPOLOGY.DIES_M1, .ro, 0x7, true⟩, ⟨MOD_TOPOLOGY.MASTER, .ro, 0x0, true⟩,
     ⟨MOD_TOPOLOGY.HEAD, .ro, 0x0, false⟩, ⟨MOD_TOPOLOGY.ALIVE, .ro, 0xFF, true⟩,
     ⟨MOD_TOPOLOGY.LOST, .stk, 0x0, false⟩, ⟨MOD_TOPOLOGY.ADDRESS, .ro, 0x0, true⟩]⟩,
   ⟨"MOD_RING_ROLE", 3, 0x30, 0xFF, 1, 0x1, 1, 1,
    [⟨MOD_RING_ROLE.HEAD, .rw, 0x0, false⟩, ⟨MOD_RING_ROLE.ARMED, .ro, 0x0, false⟩,
     ⟨MOD_RING_ROLE.CONFLICT, .stk, 0x0, false⟩, ⟨MOD_RING_ROLE.HEAD_PAGE, .rw, 0x0, false⟩]⟩,
   ⟨"MOD_FINESEL", 3, 0x30, 0xFF, 1, 0x10, 4, 1,
    [⟨MOD_FINESEL.CELLS, .rw, 0x0, false⟩]⟩,
   ⟨"MOD_SESSION", 3, 0x30, 0xFF, 1, 0x8, 1, 1,
    [⟨MOD_SESSION.SESSION, .ro, 0x0, true⟩]⟩]

/-- The registers of block FOL in plane 2. -/
def regsFOL2 : List RegDesc :=
  [⟨"FOL_MODESEL", 2, 0x24, 0xFF, 1, 0x10, 1, 1,
    [⟨FOL_MODESEL.BAL, .rw, 0x0, true⟩, ⟨FOL_MODESEL.OWD, .rw, 0x0, true⟩,
     ⟨FOL_MODESEL.NSRCH, .rw, 0x0, true⟩, ⟨FOL_MODESEL.CALTRG, .rw, 0x0, true⟩,
     ⟨FOL_MODESEL.FREACT, .rw, 0x0, true⟩, ⟨FOL_MODESEL.THROT, .rw, 0x0, true⟩,
     ⟨FOL_MODESEL.EISDEM, .rw, 0x0, true⟩, ⟨FOL_MODESEL.SLCHK, .rw, 0x0, true⟩,
     ⟨FOL_MODESEL.TALIGN, .rw, 0x0, true⟩]⟩,
   ⟨"FOL_MODENOW", 2, 0x24, 0xFF, 1, 0x11, 1, 1,
    [⟨FOL_MODENOW.BAL, .ro, 0x0, true⟩, ⟨FOL_MODENOW.OWD, .ro, 0x0, true⟩,
     ⟨FOL_MODENOW.NSRCH, .ro, 0x0, true⟩, ⟨FOL_MODENOW.CALTRG, .ro, 0x0, true⟩,
     ⟨FOL_MODENOW.FREACT, .ro, 0x0, true⟩, ⟨FOL_MODENOW.THROT, .ro, 0x0, true⟩,
     ⟨FOL_MODENOW.EISDEM, .ro, 0x0, true⟩, ⟨FOL_MODENOW.SLCHK, .ro, 0x0, true⟩,
     ⟨FOL_MODENOW.TALIGN, .ro, 0x0, true⟩]⟩,
   ⟨"FOL_STAT", 2, 0x24, 0xFF, 1, 0x0, 1, 1,
    [⟨FOL_STAT.ACTIVE, .ro, 0x3, true⟩, ⟨FOL_STAT.AVALID, .ro, 0x0, true⟩,
     ⟨FOL_STAT.BVALID, .ro, 0x0, true⟩, ⟨FOL_STAT.PENDING, .ro, 0x0, true⟩,
     ⟨FOL_STAT.FALLBACK, .stk, 0x0, true⟩, ⟨FOL_STAT.CRCERR, .stk, 0x0, true⟩,
     ⟨FOL_STAT.MODEPEND, .ro, 0x0, true⟩, ⟨FOL_STAT.SEALERR, .ro, 0x0, true⟩,
     ⟨FOL_STAT.NAPPLIED, .ro, 0x0, true⟩]⟩,
   ⟨"FOL_SEQA", 2, 0x24, 0xFF, 1, 0x1, 1, 1,
    [⟨FOL_SEQA.SEQ, .ro, 0x0, true⟩]⟩,
   ⟨"FOL_SEQB", 2, 0x24, 0xFF, 1, 0x2, 1, 1,
    [⟨FOL_SEQB.SEQ, .ro, 0x0, true⟩]⟩,
   ⟨"FOL_SEALSEQ", 2, 0x24, 0xFF, 1, 0x3, 1, 1,
    [⟨FOL_SEALSEQ.SEQ, .rw, 0x0, true⟩]⟩,
   ⟨"FOL_SEALCRC", 2, 0x24, 0xFF, 1, 0x4, 1, 1,
    [⟨FOL_SEALCRC.CRC, .wo, 0x0, true⟩]⟩,
   ⟨"FOL_ERR", 2, 0x24, 0xFF, 1, 0x5, 1, 1,
    [⟨FOL_ERR.RECORD, .ro, 0x0, true⟩]⟩,
   ⟨"FOL_DATA", 2, 0x24, 0x0, 1, 0x0, 1024, 1,
    [⟨FOL_DATA.DATA, .rw, 0x0, true⟩]⟩,
   ⟨"FOL_ACTIVE", 2, 0x24, 0x1, 1, 0x0, 1024, 1,
    [⟨FOL_ACTIVE.DATA, .ro, 0x0, true⟩]⟩]

/-- The registers of block ULK in plane 1, part 1. -/
def regsULK1_0 : List RegDesc :=
  [⟨"ULK_STROKE_LO", 1, 0x7, 0xFF, 1, 0x1, 1, 1,
    [⟨ULK_STROKE_LO.COUNT, .ro, 0x0, false⟩]⟩,
   ⟨"ULK_STROKE_HI", 1, 0x7, 0xFF, 1, 0x2, 1, 1,
    [⟨ULK_STROKE_HI.COUNT_HI, .ro, 0x0, false⟩, ⟨ULK_STROKE_HI.VALID, .ro, 0x0, false⟩,
     ⟨ULK_STROKE_HI.ESTIMATED, .ro, 0x0, false⟩]⟩,
   ⟨"ULK_PLLSTAT", 1, 0x7, 0xFF, 1, 0x3, 1, 1,
    [⟨ULK_PLLSTAT.STATE, .ro, 0x0, false⟩, ⟨ULK_PLLSTAT.UNALIGNED, .ro, 0x1, false⟩,
     ⟨ULK_PLLSTAT.PHASE_ERR, .ro, 0x0, false⟩, ⟨ULK_PLLSTAT.MISSED, .ro, 0x0, false⟩,
     ⟨ULK_PLLSTAT.FREQ_OFF, .ro, 0x0, false⟩]⟩,
   ⟨"ULK_BDELAY", 1, 0x7, 0xFF, 1, 0x4, 1, 1,
    [⟨ULK_BDELAY.HOP_A, .ro, 0x190, true⟩, ⟨ULK_BDELAY.ECHO_A_MISS, .stk, 0x0, true⟩,
     ⟨ULK_BDELAY.HOP_B, .ro, 0x190, true⟩, ⟨ULK_BDELAY.ECHO_B_MISS, .stk, 0x0, true⟩]⟩,
   ⟨"ULK_TSTEP_AT", 1, 0x7, 0xFF, 1, 0x5, 1, 1,
    [⟨ULK_TSTEP_AT.AT, .ro, 0x0, false⟩]⟩,
   ⟨"ULK_TSTEP_DELTA", 1, 0x7, 0xFF, 1, 0x6, 1, 1,
    [⟨ULK_TSTEP_DELTA.DELTA, .ro, 0x0, false⟩]⟩,
   ⟨"ULK_CFG", 1, 0x7, 0xFF, 1, 0x0, 1, 1,
    [⟨ULK_CFG.HB_EN, .rw, 0x1, false⟩, ⟨ULK_CFG.ECHO_EN, .rw, 0x1, false⟩,
     ⟨ULK_CFG.PORTEVT_EN, .rw, 0x1, false⟩, ⟨ULK_CFG.SNOOP, .rw, 0x1, false⟩]⟩,
   ⟨"ULK_PORT", 1, 0x7, 0xFF, 1, 0x10, 2, 1,
    [⟨ULK_PORT.STATE, .ro, 0x0, false⟩, ⟨ULK_PORT.EXT, .ro, 0x0, false⟩,
     ⟨ULK_PORT.BEACON, .ro, 0x0, false⟩, ⟨ULK_PORT.LINKFLT, .stk, 0x0, false⟩,
     ⟨ULK_PORT.OUTDOWN, .ro, 0x0, false⟩, ⟨ULK_PORT.UPCNT, .ro, 0x0, false⟩]⟩,
   ⟨"ULK_ERR", 1, 0x7, 0xFF, 1, 0x12, 2, 1,
    [⟨ULK_ERR.CRC, .ro, 0x0, false⟩, ⟨ULK_ERR.CODE, .ro, 0x0, false⟩,
     ⟨ULK_ERR.FORMAT, .ro, 0x0, false⟩, ⟨ULK_ERR.STOMP, .ro, 0x0, false⟩]⟩,
   ⟨"ULK_MISS", 1, 0x7, 0xFF, 1, 0x14, 2, 1,
    [⟨ULK_MISS.BMISS, .ro, 0x0, false⟩, ⟨ULK_MISS.DISCARD, .ro, 0x0, false⟩]⟩,
   ⟨"ULK_ECHO", 1, 0x7, 0xFF, 1, 0x16, 2, 1,
    [⟨ULK_ECHO.RTT, .ro, 0x0, false⟩, ⟨ULK_ECHO.TADJ, .ro, 0x0, false⟩]⟩,
   ⟨"ULK_TX", 1, 0x7, 0xFF, 1, 0x18, 1, 1,
    [⟨ULK_TX.QLEVEL, .ro, 0x0, false⟩, ⟨ULK_TX.HOLDING, .ro, 0x0, false⟩,
     ⟨ULK_TX.DROPS, .ro, 0x0, false⟩, ⟨ULK_TX.LATEBLOT, .ro, 0x0, false⟩]⟩]

/-- The registers of block ULK in plane 1, part 2. -/
def regsULK1_1 : List RegDesc :=
  [⟨"ULK_RING", 1, 0x7, 0xFF, 1, 0x19, 1, 1,
    [⟨ULK_RING.TONE_IN, .ro, 0x0, true⟩, ⟨ULK_RING.TONE_PASS, .ro, 0x0, true⟩,
     ⟨ULK_RING.WAKE_SEEN, .stk, 0x0, true⟩, ⟨ULK_RING.WAKE_PORT, .ro, 0x0, true⟩,
     ⟨ULK_RING.ENUM_FULL, .stk, 0x0, true⟩, ⟨ULK_RING.ENUM_BAD, .stk, 0x0, true⟩]⟩,
   ⟨"ULK_BLOT", 1, 0x7, 0xFF, 1, 0x1A, 1, 1,
    [⟨ULK_BLOT.ID, .ro, 0x0, false⟩, ⟨ULK_BLOT.PENDING, .ro, 0x0, false⟩]⟩,
   ⟨"ULK_BLOTAT", 1, 0x7, 0xFF, 1, 0x1B, 1, 1,
    [⟨ULK_BLOTAT.AT, .ro, 0x0, false⟩]⟩]

/-- The registers of block PWR in plane 2, part 1. -/
def regsPWR2_0 : List RegDesc :=
  [⟨"PWR_SLEEP_RATIO", 2, 0x28, 0xFF, 1, 0x10, 1, 1,
    [⟨PWR_SLEEP_RATIO.RATIO, .ro, 0x3E80000, true⟩]⟩,
   ⟨"PWR_SLEEP_TICKS_LO", 2, 0x28, 0xFF, 1, 0x11, 1, 1,
    [⟨PWR_SLEEP_TICKS_LO.TICKS, .ro, 0x0, true⟩]⟩,
   ⟨"PWR_SLEEP_TICKS_HI", 2, 0x28, 0xFF, 1, 0x12, 1, 1,
    [⟨PWR_SLEEP_TICKS_HI.TICKS_HI, .ro, 0x0, true⟩, ⟨PWR_SLEEP_TICKS_HI.OVF, .stk, 0x0, true⟩,
     ⟨PWR_SLEEP_TICKS_HI.COMP, .ro, 0x0, true⟩, ⟨PWR_SLEEP_TICKS_HI.OUTSIDE, .stk, 0x0, true⟩,
     ⟨PWR_SLEEP_TICKS_HI.ENTRY_PHASE, .ro, 0x0, true⟩]⟩,
   ⟨"PWR_WAKE_BOUND", 2, 0x28, 0xFF, 1, 0x13, 1, 1,
    [⟨PWR_WAKE_BOUND.BOUND, .ro, 0x0, true⟩]⟩,
   ⟨"PWR_WAKE_CORR", 2, 0x28, 0xFF, 1, 0x14, 1, 1,
    [⟨PWR_WAKE_CORR.CORR, .ro, 0x0, true⟩]⟩,
   ⟨"PWR_STATE", 2, 0x28, 0xFF, 1, 0x0, 1, 1,
    [⟨PWR_STATE.STATE, .ro, 0x0, true⟩, ⟨PWR_STATE.TARGET, .ro, 0x0, true⟩,
     ⟨PWR_STATE.STEP, .ro, 0x0, true⟩, ⟨PWR_STATE.PLAPP, .ro, 0x0, true⟩,
     ⟨PWR_STATE.PLCAP, .ro, 0x3, true⟩, ⟨PWR_STATE.PLBUSY, .ro, 0x0, true⟩,
     ⟨PWR_STATE.DIP, .ro, 0x0, true⟩, ⟨PWR_STATE.WOUT, .ro, 0x0, true⟩]⟩,
   ⟨"PWR_CMD", 2, 0x28, 0xFF, 1, 0x1, 1, 1,
    [⟨PWR_CMD.WAKE, .wo, 0x0, false⟩, ⟨PWR_CMD.WOCLR, .wo, 0x0, false⟩,
     ⟨PWR_CMD.PADREL, .wo, 0x0, false⟩]⟩,
   ⟨"PWR_CFG", 2, 0x28, 0xFF, 1, 0x2, 1, 1,
    [⟨PWR_CFG.PLREQ, .rw, 0x1, true⟩, ⟨PWR_CFG.DLYMAX, .rw, 0x1000, true⟩,
     ⟨PWR_CFG.RELTO, .rw, 0x753, true⟩]⟩,
   ⟨"PWR_ENTRY", 2, 0x28, 0xFF, 1, 0x3, 1, 1,
    [⟨PWR_ENTRY.OUTCOME, .ro, 0x0, true⟩, ⟨PWR_ENTRY.TARGET, .ro, 0x0, true⟩,
     ⟨PWR_ENTRY.AP, .ro, 0x0, true⟩, ⟨PWR_ENTRY.BLOCK, .ro, 0x0, true⟩,
     ⟨PWR_ENTRY.REASON, .ro, 0x0, true⟩, ⟨PWR_ENTRY.DIE, .ro, 0x0, true⟩]⟩,
   ⟨"PWR_ABORTAT", 2, 0x28, 0xFF, 1, 0x4, 1, 1,
    [⟨PWR_ABORTAT.AT, .ro, 0x0, true⟩]⟩,
   ⟨"PWR_NCFG", 2, 0x28, 0xFF, 1, 0x5, 1, 1,
    [⟨PWR_NCFG.INTERVAL, .rw, 0xA, true⟩, ⟨PWR_NCFG.SPANTOL, .rw, 0x14, true⟩]⟩,
   ⟨"PWR_NSTAT", 2, 0x28, 0xFF, 1, 0x6, 1, 1,
    [⟨PWR_NSTAT.CHECKS, .ro, 0x0, true⟩, ⟨PWR_NSTAT.FAIL, .stk, 0x0, true⟩,
     ⟨PWR_NSTAT.CAUSE, .ro, 0x0, true⟩, ⟨PWR_NSTAT.CELL, .ro, 0x1F, true⟩]⟩]

/-- The registers of block PWR in plane 2, part 2. -/
def regsPWR2_1 : List RegDesc :=
  [⟨"PWR_WAKECFG", 2, 0x28, 0xFF, 1, 0x7, 1, 1,
    [⟨PWR_WAKECFG.W0EN, .rw, 0x1, true⟩, ⟨PWR_WAKECFG.W0POL, .rw, 0x0, true⟩,
     ⟨PWR_WAKECFG.W0FILT, .rw, 0x3, true⟩, ⟨PWR_WAKECFG.W1EN, .rw, 0x1, true⟩,
     ⟨PWR_WAKECFG.W1POL, .rw, 0x0, true⟩, ⟨PWR_WAKECFG.W1FILT, .rw, 0x3, true⟩,
     ⟨PWR_WAKECFG.W1OUT, .rw, 0x0, true⟩]⟩,
   ⟨"PWR_WAKESRC", 2, 0x28, 0xFF, 1, 0x8, 1, 1,
    [⟨PWR_WAKESRC.WAKE0, .stk, 0x0, true⟩, ⟨PWR_WAKESRC.WAKE1, .stk, 0x0, true⟩,
     ⟨PWR_WAKESRC.BURSTA, .stk, 0x0, true⟩, ⟨PWR_WAKESRC.BURSTB, .stk, 0x0, true⟩,
     ⟨PWR_WAKESRC.LINE, .stk, 0x0, true⟩, ⟨PWR_WAKESRC.NCAP, .stk, 0x0, true⟩,
     ⟨PWR_WAKESRC.CMD, .stk, 0x0, true⟩, ⟨PWR_WAKESRC.REG, .stk, 0x0, true⟩]⟩,
   ⟨"PWR_PAD", 2, 0x28, 0xFF, 1, 0x9, 1, 1,
    [⟨PWR_PAD.HELD, .ro, 0x0, true⟩]⟩,
   ⟨"PWR_SUPPLY", 2, 0x28, 0xFF, 1, 0xA, 1, 1,
    [⟨PWR_SUPPLY.VSTK, .ro, 0x0, true⟩, ⟨PWR_SUPPLY.VREG5, .ro, 0x0, true⟩,
     ⟨PWR_SUPPLY.OVLIVE, .ro, 0x0, true⟩]⟩,
   ⟨"PWR_DIP", 2, 0x28, 0xFF, 1, 0xB, 1, 1,
    [⟨PWR_DIP.DIPS, .ro, 0x0, true⟩, ⟨PWR_DIP.LAST, .ro, 0x0, true⟩,
     ⟨PWR_DIP.LIVE, .ro, 0x0, true⟩]⟩]

/-- The registers of block CFE in plane 1, part 1. -/
def regsCFE1_0 : List RegDesc :=
  [⟨"CFE_CONFIG", 1, 0x1, 0xFF, 1, 0x0, 1, 1,
    [⟨CFE_CONFIG.CELLS, .rw, 0x10, false⟩]⟩,
   ⟨"CFE_FILTSEL", 1, 0x1, 0xFF, 1, 0x1, 1, 1,
    [⟨CFE_FILTSEL.FINE, .rw, 0x6, false⟩, ⟨CFE_FILTSEL.LINE, .rw, 0x3, false⟩,
     ⟨CFE_FILTSEL.NOTCH_EN, .rw, 0x0, false⟩]⟩,
   ⟨"CFE_NOTCH", 1, 0x1, 0xFF, 1, 0x2, 1, 1,
    [⟨CFE_NOTCH.CENTRE, .rw, 0x7D00, false⟩, ⟨CFE_NOTCH.CLAMPED, .stk, 0x0, false⟩]⟩,
   ⟨"CFE_STREAMCFG", 1, 0x1, 0xFF, 1, 0x3, 1, 1,
    [⟨CFE_STREAMCFG.FINE_EN, .rw, 0x0, false⟩, ⟨CFE_STREAMCFG.LINE_EN, .rw, 0x0, false⟩,
     ⟨CFE_STREAMCFG.PAGE_EN, .rw, 0x1, false⟩, ⟨CFE_STREAMCFG.FINE_RING, .rw, 0x1, false⟩,
     ⟨CFE_STREAMCFG.LINE_RING, .rw, 0x1, false⟩, ⟨CFE_STREAMCFG.PAGE_RING, .rw, 0x3, false⟩,
     ⟨CFE_STREAMCFG.LINE_DIV, .rw, 0x0, false⟩, ⟨CFE_STREAMCFG.LINE_SPAN, .rw, 0x0, false⟩]⟩,
   ⟨"CFE_SPARE", 1, 0x1, 0xFF, 1, 0x4, 1, 1,
    [⟨CFE_SPARE.TARGET, .ro, 0x1F, false⟩, ⟨CFE_SPARE.STATE, .ro, 0x0, false⟩,
     ⟨CFE_SPARE.OWNER, .ro, 0x0, false⟩]⟩,
   ⟨"CFE_AUXCFG", 1, 0x1, 0xFF, 1, 0x5, 1, 1,
    [⟨CFE_AUXCFG.RATIO, .rw, 0x0, false⟩, ⟨CFE_AUXCFG.PACKI, .rw, 0x0, false⟩]⟩,
   ⟨"CFE_PACKI_GAIN", 1, 0x1, 0xFF, 1, 0x6, 1, 1,
    [⟨CFE_PACKI_GAIN.GAIN, .rw, 0x10000, false⟩]⟩,
   ⟨"CFE_PACKI_OFFSET", 1, 0x1, 0xFF, 1, 0x7, 1, 1,
    [⟨CFE_PACKI_OFFSET.OFFSET, .rw, 0x0, false⟩]⟩,
   ⟨"CFE_PACKI", 1, 0x1, 0xFF, 1, 0x8, 1, 1,
    [⟨CFE_PACKI.CURRENT, .ro, 0x800000, false⟩, ⟨CFE_PACKI.STALE, .ro, 0x1, false⟩]⟩,
   ⟨"CFE_PACKI_AT", 1, 0x1, 0xFF, 1, 0x9, 1, 1,
    [⟨CFE_PACKI_AT.AT, .ro, 0x0, false⟩]⟩,
   ⟨"CFE_AUX", 1, 0x1, 0xFF, 1, 0x10, 8, 1,
    [⟨CFE_AUX.VALUE, .ro, 0x0, false⟩, ⟨CFE_AUX.RANGE, .ro, 0x0, false⟩]⟩,
   ⟨"CFE_LINE", 1, 0x1, 0x0, 18, 0x0, 1, 1,
    [⟨CFE_LINE.SAMPLE, .ro, 0x800000, false⟩, ⟨CFE_LINE.FLAGS, .ro, 0x8, false⟩]⟩]

/-- The registers of block CFE in plane 1, part 2. -/
def regsCFE1_1 : List RegDesc :=
  [⟨"CFE_FINE", 1, 0x1, 0x0, 17, 0x1, 1, 1,
    [⟨CFE_FINE.SAMPLE, .ro, 0x800000, false⟩, ⟨CFE_FINE.FLAGS, .ro, 0x8, false⟩]⟩]

/-- The registers of block SHD in plane 1. -/
def regsSHD1 : List RegDesc :=
  [⟨"SHD_OV", 1, 0x2, 0xFF, 1, 0x0, 1, 1,
    [⟨SHD_OV.CODE, .rw, 0xBBE0, false⟩]⟩,
   ⟨"SHD_UV", 1, 0x2, 0xFF, 1, 0x1, 1, 1,
    [⟨SHD_UV.CODE, .rw, 0x4A98, false⟩]⟩,
   ⟨"SHD_HYST", 1, 0x2, 0xFF, 1, 0x2, 1, 1,
    [⟨SHD_HYST.CODE, .rw, 0x1F4, false⟩]⟩,
   ⟨"SHD_DISAGREE", 1, 0x2, 0xFF, 1, 0x3, 1, 1,
    [⟨SHD_DISAGREE.WINDOW, .rw, 0x32, false⟩]⟩,
   ⟨"SHD_STATUS", 1, 0x2, 0xFF, 1, 0x4, 1, 1,
    [⟨SHD_STATUS.OV_LIVE, .ro, 0x0, false⟩, ⟨SHD_STATUS.UV_LIVE, .ro, 0x0, false⟩]⟩,
   ⟨"SHD_DIFFMAX", 1, 0x2, 0xFF, 1, 0x5, 1, 1,
    [⟨SHD_DIFFMAX.MAX, .ro, 0x0, false⟩]⟩,
   ⟨"SHD_SAMPLE", 1, 0x2, 0x0, 16, 0x0, 1, 1,
    [⟨SHD_SAMPLE.CODE, .ro, 0x0, false⟩, ⟨SHD_SAMPLE.OVV, .ro, 0x0, false⟩,
     ⟨SHD_SAMPLE.UVV, .ro, 0x0, false⟩, ⟨SHD_SAMPLE.SKIP, .ro, 0x0, false⟩,
     ⟨SHD_SAMPLE.DIFF, .ro, 0x0, false⟩]⟩,
   ⟨"SHD_SAMPLE", 1, 0x2, 0x11, 1, 0x0, 1, 1,
    [⟨SHD_SAMPLE.CODE, .ro, 0x0, false⟩, ⟨SHD_SAMPLE.OVV, .ro, 0x0, false⟩,
     ⟨SHD_SAMPLE.UVV, .ro, 0x0, false⟩, ⟨SHD_SAMPLE.SKIP, .ro, 0x0, false⟩,
     ⟨SHD_SAMPLE.DIFF, .ro, 0x0, false⟩]⟩]

/-- The registers of block OWD in plane 1. -/
def regsOWD1 : List RegDesc :=
  [⟨"OWD_CONFIG", 1, 0x3, 0xFF, 1, 0x0, 1, 1,
    [⟨OWD_CONFIG.WIRING, .lck, 0x0, false⟩, ⟨OWD_CONFIG.BG_EN, .rw, 0x1, false⟩,
     ⟨OWD_CONFIG.BG_CUR, .rw, 0x0, false⟩, ⟨OWD_CONFIG.BG_POL, .rw, 0x2, false⟩,
     ⟨OWD_CONFIG.OD_CUR, .rw, 0x1, false⟩, ⟨OWD_CONFIG.STEP_EN, .rw, 0x1, false⟩,
     ⟨OWD_CONFIG.DEVTEST_EN, .rw, 0x1, false⟩]⟩,
   ⟨"OWD_THRESH", 1, 0x3, 0xFF, 1, 0x1, 1, 1,
    [⟨OWD_THRESH.RAMP_TH, .rw, 0xC8, false⟩, ⟨OWD_THRESH.RPATH_MAX, .rw, 0x7D0, false⟩]⟩,
   ⟨"OWD_PAIRCFG", 1, 0x3, 0xFF, 1, 0x2, 1, 1,
    [⟨OWD_PAIRCFG.PS_DEV, .rw, 0x1E, false⟩, ⟨OWD_PAIRCFG.PS_HOLD, .rw, 0xA, false⟩,
     ⟨OWD_PAIRCFG.SUM_TOL, .rw, 0x18, false⟩, ⟨OWD_PAIRCFG.EDGE_TOL, .rw, 0xF, false⟩]⟩,
   ⟨"OWD_CMD", 1, 0x3, 0xFF, 1, 0x3, 1, 1,
    [⟨OWD_CMD.WIRE, .wo, 0x0, false⟩, ⟨OWD_CMD.ALL, .wo, 0x0, false⟩,
     ⟨OWD_CMD.CUR, .wo, 0x0, false⟩, ⟨OWD_CMD.POL, .wo, 0x0, false⟩,
     ⟨OWD_CMD.GO, .wo, 0x0, false⟩]⟩,
   ⟨"OWD_STATUS", 1, 0x3, 0xFF, 1, 0x4, 1, 1,
    [⟨OWD_STATUS.BUSY, .ro, 0x0, false⟩, ⟨OWD_STATUS.QUEUED, .ro, 0x0, false⟩,
     ⟨OWD_STATUS.DROPPED, .stk, 0x0, false⟩, ⟨OWD_STATUS.WIRE, .ro, 0x1F, false⟩,
     ⟨OWD_STATUS.STAGE, .ro, 0x0, false⟩, ⟨OWD_STATUS.NEXT, .ro, 0x0, false⟩,
     ⟨OWD_STATUS.SKIPCNT, .ro, 0x0, false⟩, ⟨OWD_STATUS.INTERLOCK, .stk, 0x0, false⟩]⟩,
   ⟨"OWD_SUMCHK", 1, 0x3, 0xFF, 1, 0x5, 1, 1,
    [⟨OWD_SUMCHK.M, .ro, 0x0, false⟩, ⟨OWD_SUMCHK.LIVE, .ro, 0x0, false⟩,
     ⟨OWD_SUMCHK.SKIP, .ro, 0x0, false⟩]⟩,
   ⟨"OWD_CLASS_LO", 1, 0x3, 0xFF, 1, 0x6, 1, 1,
    [⟨OWD_CLASS_LO.CLASS0, .w1c, 0x0, false⟩, ⟨OWD_CLASS_LO.CLASS1, .w1c, 0x0, false⟩,
     ⟨OWD_CLASS_LO.CLASS2, .w1c, 0x0, false⟩, ⟨OWD_CLASS_LO.CLASS3, .w1c, 0x0, false⟩,
     ⟨OWD_CLASS_LO.CLASS4, .w1c, 0x0, false⟩, ⟨OWD_CLASS_LO.CLASS5, .w1c, 0x0, false⟩,
     ⟨OWD_CLASS_LO.CLASS6, .w1c, 0x0, false⟩, ⟨OWD_CLASS_LO.CLASS7, .w1c, 0x0, false⟩]⟩,
   ⟨"OWD_CLASS_HI", 1, 0x3, 0xFF, 1, 0x7, 1, 1,
    [⟨OWD_CLASS_HI.CLASS0, .w1c, 0x0, false⟩, ⟨OWD_CLASS_HI.CLASS1, .w1c, 0x0, false⟩,
     ⟨OWD_CLASS_HI.CLASS2, .w1c, 0x0, false⟩, ⟨OWD_CLASS_HI.CLASS3, .w1c, 0x0, false⟩,
     ⟨OWD_CLASS_HI.CLASS4, .w1c, 0x0, false⟩, ⟨OWD_CLASS_HI.CLASS5, .w1c, 0x0, false⟩,
     ⟨OWD_CLASS_HI.CLASS6, .w1c, 0x0, false⟩, ⟨OWD_CLASS_HI.CLASS7, .w1c, 0x0, false⟩]⟩,
   ⟨"OWD_LAST", 1, 0x3, 0xFF, 1, 0x8, 1, 1,
    [⟨OWD_LAST.RAMP, .ro, 0x0, false⟩, ⟨OWD_LAST.DELTA4, .ro, 0x0, false⟩]⟩,
   ⟨"OWD_WIRE", 1, 0x3, 0xFF, 1, 0x10, 17, 1,
    [⟨OWD_WIRE.RPATH, .ro, 0x3E8, true⟩, ⟨OWD_WIRE.VERDICT, .ro, 0x0, true⟩,
     ⟨OWD_WIRE.OD, .ro, 0x0, true⟩, ⟨OWD_WIRE.AGE, .ro, 0xFF, true⟩]⟩,
   ⟨"OWD_RWIRE", 1, 0x3, 0xFF, 1, 0x30, 17, 1,
    [⟨OWD_RWIRE.RWIRE, .rw, 0x0, true⟩, ⟨OWD_RWIRE.VALID, .ro, 0x0, true⟩,
     ⟨OWD_RWIRE.LIMIT, .stk, 0x0, false⟩, ⟨OWD_RWIRE.AGE, .ro, 0xFF, true⟩]⟩]

/-- The registers of block EIS in plane 1, part 1. -/
def regsEIS1_0 : List RegDesc :=
  [⟨"EIS_CMD", 1, 0x4, 0xFF, 1, 0x0, 1, 1,
    [⟨EIS_CMD.SWEEPER, .wo, 0x0, false⟩, ⟨EIS_CMD.PLAN, .wo, 0x0, false⟩,
     ⟨EIS_CMD.CELL, .wo, 0x0, false⟩, ⟨EIS_CMD.PASSES, .wo, 0x0, false⟩,
     ⟨EIS_CMD.GO, .wo, 0x0, false⟩, ⟨EIS_CMD.STOP, .wo, 0x0, false⟩]⟩,
   ⟨"EIS_SCHED", 1, 0x4, 0xFF, 1, 0x1, 1, 1,
    [⟨EIS_SCHED.PRIO0, .rw, 0x0, false⟩, ⟨EIS_SCHED.PRIO1, .rw, 0x0, false⟩,
     ⟨EIS_SCHED.OWD_DEFER, .rw, 0x1, false⟩, ⟨EIS_SCHED.WAIT, .rw, 0x0, false⟩]⟩,
   ⟨"EIS_STATUS", 1, 0x4, 0xFF, 1, 0x2, 3, 1,
    [⟨EIS_STATUS.STATE, .ro, 0x0, false⟩, ⟨EIS_STATUS.PLAN, .ro, 0x0, false⟩,
     ⟨EIS_STATUS.CELL, .ro, 0x0, false⟩, ⟨EIS_STATUS.BIN, .ro, 0x0, false⟩,
     ⟨EIS_STATUS.DONE, .ro, 0x0, false⟩, ⟨EIS_STATUS.LASTERR, .ro, 0x0, false⟩]⟩,
   ⟨"EIS_OVR", 1, 0x4, 0xFF, 1, 0x5, 1, 1,
    [⟨EIS_OVR.OVRCNT, .ro, 0x0, false⟩, ⟨EIS_OVR.OVR, .stk, 0x0, false⟩]⟩,
   ⟨"EIS_ZT_CFG", 1, 0x4, 0xFF, 1, 0x6, 1, 1,
    [⟨EIS_ZT_CFG.EN, .rw, 0x0, false⟩, ⟨EIS_ZT_CFG.PLAN, .rw, 0x0, false⟩,
     ⟨EIS_ZT_CFG.BIN, .rw, 0x0, false⟩, ⟨EIS_ZT_CFG.LIM, .rw, 0x20, false⟩,
     ⟨EIS_ZT_CFG.NIB_AGE, .rw, 0x20, false⟩]⟩,
   ⟨"EIS_ZT_DEV", 1, 0x4, 0xFF, 1, 0x7, 1, 1,
    [⟨EIS_ZT_DEV.DEV, .ro, 0x0, false⟩, ⟨EIS_ZT_DEV.NOREF, .ro, 0xFFFF, false⟩]⟩,
   ⟨"EIS_PLAN_HDR0", 1, 0x4, 0x20, 4, 0x0, 1, 1,
    [⟨EIS_PLAN_HDR0.MODE, .rw, 0x0, true⟩, ⟨EIS_PLAN_HDR0.NBINS_M1, .rw, 0x0, true⟩,
     ⟨EIS_PLAN_HDR0.ADDPACK, .rw, 0x1, true⟩, ⟨EIS_PLAN_HDR0.REST, .rw, 0x0, true⟩,
     ⟨EIS_PLAN_HDR0.MIN_I, .rw, 0x3E8, true⟩]⟩,
   ⟨"EIS_PLAN_HDR1", 1, 0x4, 0x20, 4, 0x1, 1, 1,
    [⟨EIS_PLAN_HDR1.IDELAY, .rw, 0x0, true⟩]⟩,
   ⟨"EIS_BIN_W0", 1, 0x4, 0x20, 4, 0x10, 32, 2,
    [⟨EIS_BIN_W0.N, .rw, 0x0, true⟩]⟩,
   ⟨"EIS_BIN_W1", 1, 0x4, 0x20, 4, 0x11, 32, 2,
    [⟨EIS_BIN_W1.K, .rw, 0x0, true⟩, ⟨EIS_BIN_W1.AMP, .rw, 0x0, true⟩,
     ⟨EIS_BIN_W1.SETTLE, .rw, 0x0, true⟩]⟩,
   ⟨"EIS_RES_R", 1, 0x4, 0x0, 16, 0x0, 128, 4,
    [⟨EIS_RES_R.R, .ro, 0x80000000, true⟩]⟩,
   ⟨"EIS_RES_X", 1, 0x4, 0x0, 16, 0x1, 128, 4,
    [⟨EIS_RES_X.X, .ro, 0x80000000, true⟩]⟩]

/-- The registers of block EIS in plane 1, part 2. -/
def regsEIS1_1 : List RegDesc :=
  [⟨"EIS_RES_INFO", 1, 0x4, 0x0, 16, 0x2, 128, 4,
    [⟨EIS_RES_INFO.IAMP, .ro, 0x0, true⟩, ⟨EIS_RES_INFO.STATUS, .ro, 0x0, true⟩,
     ⟨EIS_RES_INFO.FLAGS, .ro, 0x0, true⟩]⟩,
   ⟨"EIS_RES_END", 1, 0x4, 0x0, 16, 0x3, 128, 4,
    [⟨EIS_RES_END.END, .ro, 0x0, true⟩]⟩,
   ⟨"EIS_ZTA", 1, 0x4, 0x0, 16, 0x200, 1, 1,
    [⟨EIS_ZTA.COEF, .rw, 0x0, true⟩]⟩,
   ⟨"EIS_ZTB", 1, 0x4, 0x0, 16, 0x201, 1, 1,
    [⟨EIS_ZTB.COEF, .rw, 0x0, true⟩]⟩,
   ⟨"EIS_ZTC", 1, 0x4, 0x0, 16, 0x202, 1, 1,
    [⟨EIS_ZTC.COEF, .rw, 0x0, true⟩]⟩,
   ⟨"EIS_ZTEMP", 1, 0x4, 0x0, 16, 0x203, 1, 1,
    [⟨EIS_ZTEMP.TEMP, .ro, 0x8000, false⟩, ⟨EIS_ZTEMP.AGE, .ro, 0xFF, false⟩,
     ⟨EIS_ZTEMP.DEV, .ro, 0x0, false⟩, ⟨EIS_ZTEMP.NOREF, .ro, 0x1, false⟩,
     ⟨EIS_ZTEMP.RANGE, .ro, 0x0, false⟩, ⟨EIS_ZTEMP.NOMODEL, .ro, 0x1, false⟩]⟩]

/-- The registers of block CXS in plane 0, part 1. -/
def regsCXS0_0 : List RegDesc :=
  [⟨"CXS_MGR", 0, 0x10, 0xFF, 1, 0x0, 1, 1,
    [⟨CXS_MGR.TSRC, .rw, 0x0, false⟩, ⟨CXS_MGR.CONV_EN, .rw, 0x0, false⟩,
     ⟨CXS_MGR.BLEED_EN, .rw, 0x0, false⟩, ⟨CXS_MGR.MAXBLEED, .rw, 0x8, false⟩,
     ⟨CXS_MGR.BLEED_DUTY, .rw, 0x100, false⟩]⟩,
   ⟨"CXS_BAND", 0, 0x10, 0xFF, 1, 0x1, 1, 1,
    [⟨CXS_BAND.BAND_HI, .rw, 0x32, false⟩, ⟨CXS_BAND.BAND_LO, .rw, 0x14, false⟩,
     ⟨CXS_BAND.SWAP, .rw, 0x5, false⟩]⟩,
   ⟨"CXS_MGR_I", 0, 0x10, 0xFF, 1, 0x2, 1, 1,
    [⟨CXS_MGR_I.MGR_I, .rw, 0x3E80, false⟩]⟩,
   ⟨"CXS_TARGET", 0, 0x10, 0xFF, 1, 0x3, 1, 1,
    [⟨CXS_TARGET.TARGET, .rw, 0x800000, false⟩]⟩,
   ⟨"CXS_TGTUSE", 0, 0x10, 0xFF, 1, 0x4, 1, 1,
    [⟨CXS_TGTUSE.TARGET, .ro, 0x800000, false⟩, ⟨CXS_TGTUSE.VALID, .ro, 0x0, false⟩]⟩,
   ⟨"CXS_LEVEL", 0, 0x10, 0xFF, 1, 0x5, 1, 1,
    [⟨CXS_LEVEL.EN, .rw, 0x0, true⟩, ⟨CXS_LEVEL.RUN_TGT, .rw, 0x0, true⟩,
     ⟨CXS_LEVEL.SLEEP_TGT, .rw, 0x0, true⟩]⟩,
   ⟨"CXS_LEVSTAT", 0, 0x10, 0xFF, 1, 0x6, 1, 1,
    [⟨CXS_LEVSTAT.DRAW, .ro, 0x0, true⟩, ⟨CXS_LEVSTAT.HEADROOM, .ro, 0x0, true⟩]⟩,
   ⟨"CXS_STATUS", 0, 0x10, 0xFF, 1, 0x7, 1, 1,
    [⟨CXS_STATUS.THOLD, .ro, 0x0, false⟩, ⟨CXS_STATUS.SAFE, .ro, 0x0, false⟩,
     ⟨CXS_STATUS.DIP, .ro, 0x0, false⟩, ⟨CXS_STATUS.STEPHOLD, .ro, 0x0, false⟩,
     ⟨CXS_STATUS.CUT, .ro, 0x0, false⟩, ⟨CXS_STATUS.RETIRED, .ro, 0x0, false⟩,
     ⟨CXS_STATUS.BLEEDING, .ro, 0x0, false⟩]⟩,
   ⟨"CXS_BLEED", 0, 0x10, 0xFF, 1, 0x20, 16, 1,
    [⟨CXS_BLEED.DUTY, .rw, 0x0, false⟩, ⟨CXS_BLEED.FORCED, .ro, 0x0, false⟩,
     ⟨CXS_BLEED.OC, .stk, 0x0, false⟩, ⟨CXS_BLEED.ION, .ro, 0x0, false⟩]⟩,
   ⟨"CXS_QTGT", 0, 0x10, 0xFF, 1, 0x30, 16, 1,
    [⟨CXS_QTGT.REMAIN, .rw, 0x0, false⟩]⟩,
   ⟨"CXS_QSTAT", 0, 0x10, 0xFF, 1, 0x40, 16, 1,
    [⟨CXS_QSTAT.ACTIVE, .ro, 0x0, false⟩, ⟨CXS_QSTAT.SUSP, .ro, 0x0, false⟩,
     ⟨CXS_QSTAT.DONE, .stk, 0x0, false⟩, ⟨CXS_QSTAT.CH, .ro, 0x0, false⟩]⟩,
   ⟨"CXS_CFG", 0, 0x10, 0x0, 2, 0x0, 1, 1,
    [⟨CXS_CFG.ILIM, .rw, 0x3E80, false⟩, ⟨CXS_CFG.DMAX, .rw, 0x800, false⟩,
     ⟨CXS_CFG.EN, .rw, 0x1, false⟩]⟩]

/-- The registers of block CXS in plane 0, part 2. -/
def regsCXS0_1 : List RegDesc :=
  [⟨"CXS_SEL", 0, 0x10, 0x0, 2, 0x1, 1, 1,
    [⟨CXS_SEL.CELL, .ro, 0x1F, false⟩, ⟨CXS_SEL.OWNER, .ro, 0x0, false⟩,
     ⟨CXS_SEL.DIR, .ro, 0x0, false⟩, ⟨CXS_SEL.PENDING, .ro, 0x0, false⟩,
     ⟨CXS_SEL.RAMP, .ro, 0x0, false⟩, ⟨CXS_SEL.REFUSE, .ro, 0x0, false⟩]⟩,
   ⟨"CXS_I", 0, 0x10, 0x0, 2, 0x2, 1, 1,
    [⟨CXS_I.ICELL, .ro, 0x0, false⟩, ⟨CXS_I.ISPAN, .ro, 0x0, false⟩]⟩,
   ⟨"CXS_STATE", 0, 0x10, 0x0, 2, 0x3, 1, 1,
    [⟨CXS_STATE.DUTY, .ro, 0x0, false⟩, ⟨CXS_STATE.PEAK, .ro, 0x0, false⟩,
     ⟨CXS_STATE.STOPCAUSE, .ro, 0x0, false⟩, ⟨CXS_STATE.ILIM_NOW, .ro, 0x3E80, false⟩]⟩]

/-- The registers of block BCE in plane 0, part 1. -/
def regsBCE0_0 : List RegDesc :=
  [⟨"BCE_STATUS", 0, 0x11, 0xFF, 1, 0x0, 1, 1,
    [⟨BCE_STATUS.OVR, .stk, 0x0, false⟩, ⟨BCE_STATUS.SEVERE, .stk, 0x0, false⟩,
     ⟨BCE_STATUS.PROGERR, .stk, 0x0, false⟩, ⟨BCE_STATUS.LIMERR, .ro, 0x0, false⟩,
     ⟨BCE_STATUS.PROG_ACTIVE, .ro, 0x0, false⟩]⟩,
   ⟨"BCE_CYCLES", 0, 0x11, 0xFF, 1, 0x1, 1, 1,
    [⟨BCE_CYCLES.LAST, .ro, 0x0, false⟩, ⟨BCE_CYCLES.PEAK, .ro, 0x0, false⟩]⟩,
   ⟨"BCE_OVRCNT", 0, 0x11, 0xFF, 1, 0x2, 1, 1,
    [⟨BCE_OVRCNT.CNT0, .ro, 0x0, false⟩, ⟨BCE_OVRCNT.CNT1, .ro, 0x0, false⟩,
     ⟨BCE_OVRCNT.CNT2, .ro, 0x0, false⟩, ⟨BCE_OVRCNT.CNT3, .ro, 0x0, false⟩]⟩,
   ⟨"BCE_CTRL", 0, 0x11, 0xFF, 1, 0x3, 1, 1,
    [⟨BCE_CTRL.PROG_EN, .rw, 0x0, false⟩]⟩,
   ⟨"BCE_HIN", 0, 0x11, 0xFF, 1, 0x8, 4, 1,
    [⟨BCE_HIN.VALUE, .rw, 0x0, false⟩]⟩,
   ⟨"BCE_X", 0, 0x11, 0xFF, 1, 0x10, 8, 1,
    [⟨BCE_X.VALUE, .ro, 0x0, false⟩]⟩,
   ⟨"BCE_PROG", 0, 0x11, 0x10, 1, 0x0, 512, 1,
    [⟨BCE_PROG.STEP, .rw, 0x0, false⟩]⟩,
   ⟨"BCE_SLOT", 0, 0x11, 0x0, 2, 0x0, 1, 1,
    [⟨BCE_SLOT.EN, .rw, 0x1, false⟩, ⟨BCE_SLOT.LAW, .rw, 0x0, false⟩,
     ⟨BCE_SLOT.FREEZE, .rw, 0x0, false⟩, ⟨BCE_SLOT.FFMODE, .rw, 0x0, false⟩,
     ⟨BCE_SLOT.SPSRC, .rw, 0x0, false⟩, ⟨BCE_SLOT.MSRC, .rw, 0x0, false⟩,
     ⟨BCE_SLOT.ADDSRC, .rw, 0x0, false⟩]⟩,
   ⟨"BCE_SLOT", 0, 0x11, 0x2, 2, 0x0, 1, 1,
    [⟨BCE_SLOT.EN, .rw, 0x0, false⟩, ⟨BCE_SLOT.LAW, .rw, 0x0, false⟩,
     ⟨BCE_SLOT.FREEZE, .rw, 0x0, false⟩, ⟨BCE_SLOT.FFMODE, .rw, 0x0, false⟩,
     ⟨BCE_SLOT.SPSRC, .rw, 0x0, false⟩, ⟨BCE_SLOT.MSRC, .rw, 0x0, false⟩,
     ⟨BCE_SLOT.ADDSRC, .rw, 0x0, false⟩]⟩,
   ⟨"BCE_OUTLIM", 0, 0x11, 0x0, 4, 0x1, 1, 1,
    [⟨BCE_OUTLIM.OUT_MIN, .rw, 0xC000, false⟩, ⟨BCE_OUTLIM.OUT_MAX, .rw, 0x4000, false⟩]⟩,
   ⟨"BCE_B0", 0, 0x11, 0x0, 2, 0x2, 1, 1,
    [⟨BCE_B0.VALUE, .rw, 0x200, false⟩, ⟨BCE_B0.SHIFT, .rw, 0x0, false⟩]⟩,
   ⟨"BCE_B0", 0, 0x11, 0x2, 2, 0x2, 1, 1,
    [⟨BCE_B0.VALUE, .rw, 0x0, false⟩, ⟨BCE_B0.SHIFT, .rw, 0x0, false⟩]⟩]

/-- The registers of block BCE in plane 0, part 2. -/
def regsBCE0_1 : List RegDesc :=
  [⟨"BCE_B1", 0, 0x11, 0x0, 4, 0x3, 1, 1,
    [⟨BCE_B1.VALUE, .rw, 0x0, false⟩, ⟨BCE_B1.SHIFT, .rw, 0x0, false⟩]⟩,
   ⟨"BCE_B2", 0, 0x11, 0x0, 4, 0x4, 1, 1,
    [⟨BCE_B2.VALUE, .rw, 0x0, false⟩, ⟨BCE_B2.SHIFT, .rw, 0x0, false⟩]⟩,
   ⟨"BCE_B3", 0, 0x11, 0x0, 4, 0x5, 1, 1,
    [⟨BCE_B3.VALUE, .rw, 0x0, false⟩, ⟨BCE_B3.SHIFT, .rw, 0x0, false⟩]⟩,
   ⟨"BCE_A1", 0, 0x11, 0x0, 2, 0x6, 1, 1,
    [⟨BCE_A1.VALUE, .rw, 0x8000, false⟩, ⟨BCE_A1.SHIFT, .rw, 0x0, false⟩]⟩,
   ⟨"BCE_A1", 0, 0x11, 0x2, 2, 0x6, 1, 1,
    [⟨BCE_A1.VALUE, .rw, 0x0, false⟩, ⟨BCE_A1.SHIFT, .rw, 0x0, false⟩]⟩,
   ⟨"BCE_A2", 0, 0x11, 0x0, 4, 0x7, 1, 1,
    [⟨BCE_A2.VALUE, .rw, 0x0, false⟩, ⟨BCE_A2.SHIFT, .rw, 0x0, false⟩]⟩,
   ⟨"BCE_A3", 0, 0x11, 0x0, 4, 0x8, 1, 1,
    [⟨BCE_A3.VALUE, .rw, 0x0, false⟩, ⟨BCE_A3.SHIFT, .rw, 0x0, false⟩]⟩,
   ⟨"BCE_KFF", 0, 0x11, 0x0, 4, 0x9, 1, 1,
    [⟨BCE_KFF.VALUE, .rw, 0x0, false⟩, ⟨BCE_KFF.SHIFT, .rw, 0x0, false⟩]⟩,
   ⟨"BCE_U", 0, 0x11, 0x0, 4, 0xA, 1, 1,
    [⟨BCE_U.U, .ro, 0x0, false⟩, ⟨BCE_U.LIMITED, .ro, 0x0, false⟩,
     ⟨BCE_U.HELD, .ro, 0x0, false⟩, ⟨BCE_U.FROZEN, .ro, 0x0, false⟩,
     ⟨BCE_U.REST, .ro, 0x0, false⟩, ⟨BCE_U.OVR, .ro, 0x0, false⟩,
     ⟨BCE_U.FFVOID, .ro, 0x0, false⟩]⟩,
   ⟨"BCE_E", 0, 0x11, 0x0, 4, 0xB, 1, 1,
    [⟨BCE_E.E, .ro, 0x0, false⟩, ⟨BCE_E.SP, .ro, 0x0, false⟩]⟩,
   ⟨"BCE_POS", 0, 0x11, 0x0, 2, 0x10, 16, 1,
    [⟨BCE_POS.OFFSET, .rw, 0x0, false⟩, ⟨BCE_POS.GTRIM, .rw, 0x0, false⟩]⟩]

/-- The registers of block PGEN in plane 0. -/
def regsPGEN0 : List RegDesc :=
  [⟨"PGEN_LIM", 0, 0x12, 0x0, 2, 0x0, 1, 1,
    [⟨PGEN_LIM.DIDT, .rw, 0x7D0, false⟩, ⟨PGEN_LIM.JERK, .rw, 0x190, false⟩]⟩,
   ⟨"PGEN_OSLEW", 0, 0x12, 0x0, 2, 0x1, 1, 1,
    [⟨PGEN_OSLEW.OSLEW, .rw, 0x400, false⟩]⟩,
   ⟨"PGEN_STAT", 0, 0x12, 0x0, 2, 0x2, 1, 1,
    [⟨PGEN_STAT.MODE, .ro, 0x0, false⟩, ⟨PGEN_STAT.ILIMIT, .ro, 0x0, false⟩,
     ⟨PGEN_STAT.SP, .ro, 0x0, false⟩]⟩,
   ⟨"PGEN_ACC", 0, 0x12, 0x0, 2, 0x3, 1, 1,
    [⟨PGEN_ACC.ACCEL, .ro, 0x0, false⟩, ⟨PGEN_ACC.OVERSHOOT, .ro, 0x0, false⟩]⟩]

/-- The registers of block INJ in plane 0. -/
def regsINJ0 : List RegDesc :=
  [⟨"INJ_CFG", 0, 0x13, 0x0, 4, 0x0, 1, 1,
    [⟨INJ_CFG.MODE, .rw, 0x0, false⟩, ⟨INJ_CFG.POINT, .rw, 0x0, false⟩,
     ⟨INJ_CFG.REPEAT, .rw, 0x0, false⟩, ⟨INJ_CFG.GO, .wo, 0x0, false⟩,
     ⟨INJ_CFG.STOP, .wo, 0x0, false⟩, ⟨INJ_CFG.HOLD, .rw, 0x0, false⟩,
     ⟨INJ_CFG.SEED, .rw, 0x7FFF, false⟩]⟩,
   ⟨"INJ_AMP", 0, 0x13, 0x0, 4, 0x1, 1, 1,
    [⟨INJ_AMP.AMP, .rw, 0x0, false⟩]⟩,
   ⟨"INJ_F0", 0, 0x13, 0x0, 4, 0x2, 1, 1,
    [⟨INJ_F0.INC, .rw, 0x1A37, false⟩]⟩,
   ⟨"INJ_F1", 0, 0x13, 0x0, 4, 0x3, 1, 1,
    [⟨INJ_F1.INC, .rw, 0x1A37, false⟩]⟩,
   ⟨"INJ_DUR", 0, 0x13, 0x0, 4, 0x4, 1, 1,
    [⟨INJ_DUR.DUR, .rw, 0x7D00, false⟩]⟩,
   ⟨"INJ_STAT", 0, 0x13, 0x0, 4, 0x5, 1, 1,
    [⟨INJ_STAT.RUNNING, .ro, 0x0, false⟩, ⟨INJ_STAT.OWNER, .ro, 0x0, false⟩,
     ⟨INJ_STAT.PREEMPT, .stk, 0x0, false⟩, ⟨INJ_STAT.CLAMPED, .stk, 0x0, false⟩,
     ⟨INJ_STAT.OUT, .ro, 0x0, false⟩]⟩,
   ⟨"INJ_CAPCFG", 0, 0x13, 0xFF, 1, 0x0, 1, 1,
    [⟨INJ_CAPCFG.SLOT, .rw, 0x0, false⟩, ⟨INJ_CAPCFG.MASK, .rw, 0xF, false⟩,
     ⟨INJ_CAPCFG.TRIG, .rw, 0x0, false⟩, ⟨INJ_CAPCFG.BLOT_OUT, .rw, 0x0, false⟩,
     ⟨INJ_CAPCFG.DECIM, .rw, 0x0, false⟩, ⟨INJ_CAPCFG.PRE, .rw, 0x0, false⟩,
     ⟨INJ_CAPCFG.ARM, .wo, 0x0, false⟩]⟩,
   ⟨"INJ_CAPSTAT", 0, 0x13, 0xFF, 1, 0x1, 1, 1,
    [⟨INJ_CAPSTAT.STATE, .ro, 0x0, false⟩, ⟨INJ_CAPSTAT.OVRSEEN, .ro, 0x0, false⟩,
     ⟨INJ_CAPSTAT.FIRST, .ro, 0x0, false⟩, ⟨INJ_CAPSTAT.NREC, .ro, 0x0, false⟩]⟩,
   ⟨"INJ_CAPAT", 0, 0x13, 0xFF, 1, 0x2, 1, 1,
    [⟨INJ_CAPAT.AT, .ro, 0x0, false⟩]⟩,
   ⟨"INJ_CAPBUF", 0, 0x13, 0x40, 4, 0x0, 1024, 1,
    [⟨INJ_CAPBUF.WORD, .ro, 0x0, false⟩]⟩]

/-- The registers of block QLN in plane 1. -/
def regsQLN1 : List RegDesc :=
  [⟨"QLN_GOV", 1, 0x5, 0xFF, 1, 0x0, 1, 1,
    [⟨QLN_GOV.AMAX, .rw, 0x3C, false⟩]⟩,
   ⟨"QLN_CFG", 1, 0x5, 0x0, 2, 0x0, 1, 1,
    [⟨QLN_CFG.EN, .rw, 0x1, false⟩, ⟨QLN_CFG.AUTOADMIT, .rw, 0x1, false⟩,
     ⟨QLN_CFG.KINDFILT, .rw, 0x0, false⟩, ⟨QLN_CFG.KIND, .rw, 0x5D3, false⟩]⟩,
   ⟨"QLN_CMD", 1, 0x5, 0x0, 2, 0x1, 1, 1,
    [⟨QLN_CMD.RESTART, .wo, 0x0, false⟩, ⟨QLN_CMD.CENSUS, .wo, 0x0, false⟩,
     ⟨QLN_CMD.STOP, .wo, 0x0, false⟩]⟩,
   ⟨"QLN_STAT", 1, 0x5, 0x0, 2, 0x2, 1, 1,
    [⟨QLN_STAT.MODE, .ro, 0x0, false⟩, ⟨QLN_STAT.NOPRES, .ro, 0x0, false⟩,
     ⟨QLN_STAT.SHORT, .ro, 0x0, false⟩, ⟨QLN_STAT.LANEFULL, .stk, 0x0, false⟩,
     ⟨QLN_STAT.NACTIVE, .ro, 0x0, false⟩, ⟨QLN_STAT.NWIN, .ro, 0x0, false⟩]⟩,
   ⟨"QLN_CYCLE", 1, 0x5, 0x0, 2, 0x3, 1, 1,
    [⟨QLN_CYCLE.LAST, .ro, 0x0, false⟩, ⟨QLN_CYCLE.HELD, .ro, 0x0, false⟩]⟩,
   ⟨"QLN_ERR", 1, 0x5, 0x0, 2, 0x4, 1, 1,
    [⟨QLN_ERR.CRCCNT, .ro, 0x0, false⟩, ⟨QLN_ERR.IDCRC, .ro, 0x0, false⟩,
     ⟨QLN_ERR.VOIDS, .ro, 0x0, false⟩, ⟨QLN_ERR.ABSENT, .ro, 0x0, false⟩]⟩,
   ⟨"QLN_RAW", 1, 0x5, 0x0, 2, 0x5, 1, 1,
    [⟨QLN_RAW.OP, .wo, 0x0, false⟩, ⟨QLN_RAW.NBITS, .wo, 0x0, false⟩,
     ⟨QLN_RAW.DATA, .wo, 0x0, false⟩, ⟨QLN_RAW.GO, .wo, 0x0, false⟩]⟩,
   ⟨"QLN_RAWRES", 1, 0x5, 0x0, 2, 0x6, 1, 1,
    [⟨QLN_RAWRES.DONE, .ro, 0x0, false⟩, ⟨QLN_RAWRES.PRESENCE, .ro, 0x0, false⟩,
     ⟨QLN_RAWRES.REFUSED, .ro, 0x0, false⟩, ⟨QLN_RAWRES.TALLY, .ro, 0x0, false⟩,
     ⟨QLN_RAWRES.DATA, .ro, 0x0, false⟩, ⟨QLN_RAWRES.DIGIT, .ro, 0x0, false⟩]⟩]

/-- The registers of block NIB in plane 1. -/
def regsNIB1 : List RegDesc :=
  [⟨"NIB_XCHK", 1, 0x6, 0xFF, 1, 0x0, 1, 1,
    [⟨NIB_XCHK.LIM, .rw, 0x18, false⟩, ⟨NIB_XCHK.CNT, .rw, 0x4, false⟩,
     ⟨NIB_XCHK.AGE, .rw, 0x4, false⟩]⟩,
   ⟨"NIB_CENSUS", 1, 0x6, 0xFF, 1, 0x1, 1, 1,
    [⟨NIB_CENSUS.PERIOD, .rw, 0x753, false⟩, ⟨NIB_CENSUS.RING, .rw, 0x0, false⟩,
     ⟨NIB_CENSUS.MAXID, .rw, 0x8, false⟩, ⟨NIB_CENSUS.SKIPS, .ro, 0x0, false⟩]⟩,
   ⟨"NIB_COUNT", 1, 0x6, 0xFF, 1, 0x2, 1, 1,
    [⟨NIB_COUNT.ACTIVE, .ro, 0x0, false⟩, ⟨NIB_COUNT.LOST, .ro, 0x0, false⟩,
     ⟨NIB_COUNT.EXCL, .ro, 0x0, false⟩, ⟨NIB_COUNT.FULL, .stk, 0x0, false⟩]⟩]

/-- The registers of block NIB in plane 3. -/
def regsNIB3 : List RegDesc :=
  [⟨"MOD_NIB_ID_LO", 3, 0x6, 0x0, 12, 0x0, 256, 4,
    [⟨MOD_NIB_ID_LO.ID, .rw, 0x0, true⟩]⟩,
   ⟨"MOD_NIB_ID_HI", 3, 0x6, 0x0, 12, 0x1, 256, 4,
    [⟨MOD_NIB_ID_HI.ID, .rw, 0x0, true⟩]⟩,
   ⟨"MOD_NIB_ENTRY", 3, 0x6, 0x0, 12, 0x2, 256, 4,
    [⟨MOD_NIB_ENTRY.SLOT, .rw, 0xFF, true⟩, ⟨MOD_NIB_ENTRY.LANE, .rw, 0x0, true⟩,
     ⟨MOD_NIB_ENTRY.STATE, .rw, 0x0, true⟩, ⟨MOD_NIB_ENTRY.NSTAT, .ro, 0x0, true⟩,
     ⟨MOD_NIB_ENTRY.ASSOC, .rw, 0x0, true⟩, ⟨MOD_NIB_ENTRY.FERR, .ro, 0x0, true⟩,
     ⟨MOD_NIB_ENTRY.ADMIT, .rw, 0x0, true⟩, ⟨MOD_NIB_ENTRY.EXCL, .w1c, 0x0, true⟩]⟩,
   ⟨"MOD_NIB_VALUE", 3, 0x6, 0x0, 12, 0x3, 256, 4,
    [⟨MOD_NIB_VALUE.TEMP, .ro, 0x8000, true⟩, ⟨MOD_NIB_VALUE.AUX, .ro, 0x0, true⟩,
     ⟨MOD_NIB_VALUE.AGE, .ro, 0xFF, true⟩]⟩]

/-- The registers of block CMD in plane 2. -/
def regsCMD2 : List RegDesc :=
  [⟨"CMD_STAT", 2, 0x20, 0xFF, 1, 0x0, 1, 1,
    [⟨CMD_STAT.FWSTATE, .ro, 0x0, true⟩, ⟨CMD_STAT.LOOP, .ro, 0x0, true⟩,
     ⟨CMD_STAT.LASTOP, .ro, 0x0, false⟩]⟩]

/-- The registers of block JNL in plane 2. -/
def regsJNL2 : List RegDesc :=
  [⟨"JNL_STAT", 2, 0x21, 0xFF, 1, 0x0, 1, 1,
    [⟨JNL_STAT.EXPECT, .ro, 0x0, true⟩, ⟨JNL_STAT.OPEN, .ro, 0x0, true⟩,
     ⟨JNL_STAT.GAPWAIT, .ro, 0x0, true⟩, ⟨JNL_STAT.REJOIN, .stk, 0x0, true⟩,
     ⟨JNL_STAT.NOGUARD, .ro, 0x0, true⟩]⟩,
   ⟨"JNL_CFG", 2, 0x21, 0xFF, 1, 0x1, 1, 1,
    [⟨JNL_CFG.GAPTO, .rw, 0x4, true⟩]⟩,
   ⟨"JNL_CNT", 2, 0x21, 0xFF, 1, 0x2, 1, 1,
    [⟨JNL_CNT.DUPS, .ro, 0x0, true⟩, ⟨JNL_CNT.REFUSED, .ro, 0x0, true⟩,
     ⟨JNL_CNT.CRCERR, .ro, 0x0, true⟩, ⟨JNL_CNT.STRANDED, .ro, 0x0, true⟩]⟩,
   ⟨"JNL_GUARD", 2, 0x21, 0xFF, 1, 0x3, 1, 1,
    [⟨JNL_GUARD.GUARDIAN, .ro, 0x0, true⟩, ⟨JNL_GUARD.GVALID, .ro, 0x0, true⟩,
     ⟨JNL_GUARD.WARD, .ro, 0x0, true⟩, ⟨JNL_GUARD.WLOST, .ro, 0x0, true⟩,
     ⟨JNL_GUARD.MIRRORS, .ro, 0x0, true⟩, ⟨JNL_GUARD.WARDS, .ro, 0x0, true⟩,
     ⟨JNL_GUARD.LOSTW, .ro, 0x0, true⟩]⟩]

/-- The registers of block CHK in plane 2, part 1. -/
def regsCHK2_0 : List RegDesc :=
  [⟨"CHK_CFG", 2, 0x22, 0xFF, 1, 0x0, 1, 1,
    [⟨CHK_CFG.WIDTH, .rw, 0x20, false⟩, ⟨CHK_CFG.REFIN, .rw, 0x1, false⟩,
     ⟨CHK_CFG.REFOUT, .rw, 0x1, false⟩]⟩,
   ⟨"CHK_POLY_LO", 2, 0x22, 0xFF, 1, 0x1, 1, 1,
    [⟨CHK_POLY_LO.POLY, .rw, 0x1EDC6F41, false⟩]⟩,
   ⟨"CHK_POLY_HI", 2, 0x22, 0xFF, 1, 0x2, 1, 1,
    [⟨CHK_POLY_HI.POLY, .rw, 0x0, false⟩]⟩,
   ⟨"CHK_INIT_LO", 2, 0x22, 0xFF, 1, 0x3, 1, 1,
    [⟨CHK_INIT_LO.INIT, .rw, 0xFFFFFFFF, false⟩]⟩,
   ⟨"CHK_INIT_HI", 2, 0x22, 0xFF, 1, 0x4, 1, 1,
    [⟨CHK_INIT_HI.INIT, .rw, 0x0, false⟩]⟩,
   ⟨"CHK_XOR_LO", 2, 0x22, 0xFF, 1, 0x5, 1, 1,
    [⟨CHK_XOR_LO.XOROUT, .rw, 0xFFFFFFFF, false⟩]⟩,
   ⟨"CHK_XOR_HI", 2, 0x22, 0xFF, 1, 0x6, 1, 1,
    [⟨CHK_XOR_HI.XOROUT, .rw, 0x0, false⟩]⟩,
   ⟨"CHK_ADDR", 2, 0x22, 0xFF, 1, 0x7, 1, 1,
    [⟨CHK_ADDR.ADDR, .rw, 0x0, false⟩]⟩,
   ⟨"CHK_LEN", 2, 0x22, 0xFF, 1, 0x8, 1, 1,
    [⟨CHK_LEN.LEN, .rw, 0x0, false⟩]⟩,
   ⟨"CHK_CTRL", 2, 0x22, 0xFF, 1, 0x9, 1, 1,
    [⟨CHK_CTRL.GO, .wo, 0x0, false⟩, ⟨CHK_CTRL.ABORT, .wo, 0x0, false⟩]⟩,
   ⟨"CHK_STAT", 2, 0x22, 0xFF, 1, 0xA, 1, 1,
    [⟨CHK_STAT.BUSY, .ro, 0x0, false⟩, ⟨CHK_STAT.DONE, .stk, 0x0, false⟩,
     ⟨CHK_STAT.ERR, .stk, 0x0, false⟩, ⟨CHK_STAT.OWNER, .ro, 0x0, false⟩]⟩,
   ⟨"CHK_RES_LO", 2, 0x22, 0xFF, 1, 0xB, 1, 1,
    [⟨CHK_RES_LO.RESULT, .ro, 0x0, false⟩]⟩]

/-- The registers of block CHK in plane 2, part 2. -/
def regsCHK2_1 : List RegDesc :=
  [⟨"CHK_RES_HI", 2, 0x22, 0xFF, 1, 0xC, 1, 1,
    [⟨CHK_RES_HI.RESULT, .ro, 0x0, false⟩]⟩]

/-- The registers of block BOOT in plane 2. -/
def regsBOOT2 : List RegDesc :=
  [⟨"BOOT_STAT", 2, 0x23, 0xFF, 1, 0x0, 1, 1,
    [⟨BOOT_STAT.ROMOK, .ro, 0x0, true⟩, ⟨BOOT_STAT.FUSEOK, .ro, 0x0, true⟩,
     ⟨BOOT_STAT.STRAPOK, .ro, 0x0, true⟩, ⟨BOOT_STAT.CSTERR, .stk, 0x0, true⟩,
     ⟨BOOT_STAT.CALDONE, .ro, 0x0, true⟩, ⟨BOOT_STAT.CALFAIL, .stk, 0x0, true⟩,
     ⟨BOOT_STAT.START, .ro, 0x0, true⟩, ⟨BOOT_STAT.CST, .ro, 0x0, true⟩]⟩,
   ⟨"BOOT_LOAD", 2, 0x23, 0xFF, 1, 0x1, 1, 1,
    [⟨BOOT_LOAD.LOADID, .ro, 0x0, true⟩, ⟨BOOT_LOAD.STATE, .ro, 0x0, true⟩,
     ⟨BOOT_LOAD.ENDSEEN, .ro, 0x0, true⟩, ⟨BOOT_LOAD.BLOCKS, .ro, 0x0, true⟩,
     ⟨BOOT_LOAD.ERR, .ro, 0x0, true⟩]⟩,
   ⟨"BOOT_LOADCRC", 2, 0x23, 0xFF, 1, 0x2, 1, 1,
    [⟨BOOT_LOADCRC.CRC, .ro, 0x0, true⟩]⟩,
   ⟨"BOOT_IMAGE", 2, 0x23, 0xFF, 1, 0x3, 1, 1,
    [⟨BOOT_IMAGE.LENGTH, .ro, 0x0, true⟩, ⟨BOOT_IMAGE.SIGNED, .ro, 0x0, true⟩,
     ⟨BOOT_IMAGE.KEYIDX, .ro, 0x0, true⟩, ⟨BOOT_IMAGE.VERIFIED, .ro, 0x0, true⟩]⟩,
   ⟨"BOOT_VERSION", 2, 0x23, 0xFF, 1, 0x4, 1, 1,
    [⟨BOOT_VERSION.VERSION, .ro, 0x0, true⟩]⟩,
   ⟨"BOOT_MISS", 2, 0x23, 0xFF, 1, 0x5, 1, 1,
    [⟨BOOT_MISS.FIRSTMISS, .ro, 0xFFFF, true⟩, ⟨BOOT_MISS.BADBLK, .ro, 0x0, true⟩]⟩]

/-- The registers of block THM in plane 0, part 1. -/
def regsTHM0_0 : List RegDesc :=
  [⟨"THM_CFG", 0, 0x14, 0xFF, 1, 0x0, 1, 1,
    [⟨THM_CFG.STEP, .rw, 0x2, true⟩, ⟨THM_CFG.IFLOOR, .rw, 0x32, true⟩,
     ⟨THM_CFG.CUTMASK, .rw, 0x0, true⟩]⟩,
   ⟨"THM_STAT", 0, 0x14, 0xFF, 1, 0x1, 1, 1,
    [⟨THM_STAT.LEVEL, .ro, 0x0, true⟩, ⟨THM_STAT.HOLD, .ro, 0x0, true⟩,
     ⟨THM_STAT.CUT, .ro, 0x0, true⟩, ⟨THM_STAT.CUTSEEN, .stk, 0x0, true⟩,
     ⟨THM_STAT.DEPTH, .ro, 0x0, true⟩, ⟨THM_STAT.PLCAP, .ro, 0x3, true⟩,
     ⟨THM_STAT.SWPAUSE, .ro, 0x0, true⟩, ⟨THM_STAT.NOCHECK, .ro, 0x0, true⟩,
     ⟨THM_STAT.TG, .ro, 0x0, true⟩]⟩,
   ⟨"THM_CMD", 0, 0x14, 0xFF, 1, 0x2, 1, 1,
    [⟨THM_CMD.HOLDCLR, .wo, 0x0, false⟩]⟩,
   ⟨"THM_XCHK", 0, 0x14, 0xFF, 1, 0x3, 1, 1,
    [⟨THM_XCHK.LIM, .rw, 0x20, false⟩, ⟨THM_XCHK.PAGES, .rw, 0x4, false⟩,
     ⟨THM_XCHK.MARGIN, .rw, 0x28, false⟩]⟩,
   ⟨"THM_TRANS", 0, 0x14, 0xFF, 1, 0x4, 1, 1,
    [⟨THM_TRANS.UP, .ro, 0x0, true⟩, ⟨THM_TRANS.DOWN, .ro, 0x0, true⟩]⟩,
   ⟨"THM_HOSTLIM", 0, 0x14, 0xFF, 1, 0x5, 1, 1,
    [⟨THM_HOSTLIM.ILIM, .rw, 0x3E80, false⟩, ⟨THM_HOSTLIM.PLCAP, .rw, 0x3, false⟩,
     ⟨THM_HOSTLIM.SWPAUSE, .rw, 0x0, false⟩]⟩,
   ⟨"THM_TDIE", 0, 0x14, 0xFF, 1, 0x6, 1, 1,
    [⟨THM_TDIE.TDIE, .ro, 0x0, false⟩, ⟨THM_TDIE.SUBST, .ro, 0x0, false⟩]⟩,
   ⟨"THM_STOPREC", 0, 0x14, 0xFF, 1, 0x7, 1, 1,
    [⟨THM_STOPREC.SENSOR, .ro, 0x0, true⟩, ⟨THM_STOPREC.CUT, .ro, 0x0, true⟩,
     ⟨THM_STOPREC.SENSE, .ro, 0x0, true⟩, ⟨THM_STOPREC.TG, .ro, 0x0, true⟩]⟩,
   ⟨"THM_STOPAT", 0, 0x14, 0xFF, 1, 0x8, 1, 1,
    [⟨THM_STOPAT.AT, .ro, 0x0, true⟩]⟩,
   ⟨"THM_CELLOT", 0, 0x14, 0xFF, 1, 0x9, 1, 1,
    [⟨THM_CELLOT.NIBLIM, .rw, 0x82, false⟩, ⟨THM_CELLOT.ZLIM, .rw, 0x82, false⟩,
     ⟨THM_CELLOT.HYST, .rw, 0x14, false⟩, ⟨THM_CELLOT.ZEN, .rw, 0x0, false⟩]⟩,
   ⟨"THM_CELLSTAT", 0, 0x14, 0xFF, 1, 0xA, 1, 1,
    [⟨THM_CELLSTAT.NIB, .ro, 0x0, false⟩, ⟨THM_CELLSTAT.Z, .ro, 0x0, false⟩]⟩,
   ⟨"THM_OTSTAT", 0, 0x14, 0xFF, 1, 0xB, 1, 1,
    [⟨THM_OTSTAT.AUXHOT, .ro, 0x0, false⟩, ⟨THM_OTSTAT.UNASSOC, .ro, 0x0, false⟩]⟩]

/-- The registers of block THM in plane 0, part 2. -/
def regsTHM0_1 : List RegDesc :=
  [⟨"THM_AUX", 0, 0x14, 0xFF, 1, 0x10, 8, 1,
    [⟨THM_AUX.EN, .rw, 0x0, false⟩, ⟨THM_AUX.POL, .rw, 0x0, false⟩,
     ⟨THM_AUX.HYST, .rw, 0x320, false⟩, ⟨THM_AUX.TH, .rw, 0x0, false⟩]⟩,
   ⟨"THM_SENS", 0, 0x14, 0x0, 5, 0x0, 1, 1,
    [⟨THM_SENS.READING, .ro, 0x0, false⟩, ⟨THM_SENS.INUSE, .ro, 0x0, false⟩]⟩,
   ⟨"THM_SEST", 0, 0x14, 0x0, 5, 0x1, 1, 1,
    [⟨THM_SEST.EST, .ro, 0x0, false⟩, ⟨THM_SEST.STATE, .ro, 0x0, true⟩,
     ⟨THM_SEST.EXCL, .w1c, 0x0, true⟩, ⟨THM_SEST.DEVPAGES, .ro, 0x0, true⟩]⟩,
   ⟨"THM_NBR", 0, 0x14, 0x0, 5, 0x2, 1, 1,
    [⟨THM_NBR.R_CX0, .ro, 0x0, true⟩, ⟨THM_NBR.R_CX1, .ro, 0x0, true⟩,
     ⟨THM_NBR.R_CORE, .ro, 0x0, true⟩]⟩]

/-- The registers of block CAL in plane 2, part 1. -/
def regsCAL2_0 : List RegDesc :=
  [⟨"CAL_CFG", 2, 0x25, 0xFF, 1, 0x0, 1, 1,
    [⟨CAL_CFG.DTCAL, .rw, 0x8, false⟩, ⟨CAL_CFG.WIN, .rw, 0x1, false⟩,
     ⟨CAL_CFG.REFX_EN, .rw, 0x0, false⟩, ⟨CAL_CFG.MAXINT, .rw, 0x493E, false⟩]⟩,
   ⟨"CAL_CMD", 2, 0x25, 0xFF, 1, 0x1, 1, 1,
    [⟨CAL_CMD.GO, .wo, 0x0, false⟩, ⟨CAL_CMD.ABORT, .wo, 0x0, false⟩,
     ⟨CAL_CMD.FBCLR, .wo, 0x0, false⟩]⟩,
   ⟨"CAL_STAT", 2, 0x25, 0xFF, 1, 0x2, 1, 1,
    [⟨CAL_STAT.STATE, .ro, 0x0, false⟩, ⟨CAL_STAT.PENDING, .ro, 0x0, false⟩,
     ⟨CAL_STAT.ITEM, .ro, 0x1F, false⟩, ⟨CAL_STAT.TSUBST, .ro, 0x0, false⟩,
     ⟨CAL_STAT.MERGED, .ro, 0x0, false⟩, ⟨CAL_STAT.PASSES, .ro, 0x0, false⟩]⟩,
   ⟨"CAL_LAST", 2, 0x25, 0xFF, 1, 0x3, 1, 1,
    [⟨CAL_LAST.AT, .ro, 0x0, false⟩]⟩,
   ⟨"CAL_LASTT", 2, 0x25, 0xFF, 1, 0x4, 1, 1,
    [⟨CAL_LASTT.TREF, .ro, 0x0, true⟩, ⟨CAL_LASTT.CAUSE, .ro, 0x0, true⟩,
     ⟨CAL_LASTT.ABANDONED, .ro, 0x0, true⟩]⟩,
   ⟨"CAL_REF", 2, 0x25, 0xFF, 1, 0x5, 1, 1,
    [⟨CAL_REF.DIS, .ro, 0x0, true⟩, ⟨CAL_REF.FALLBACK, .ro, 0x0, true⟩,
     ⟨CAL_REF.DEGRADED, .ro, 0x0, true⟩, ⟨CAL_REF.REFXBAD, .ro, 0x0, true⟩,
     ⟨CAL_REF.SUSPECT, .ro, 0x0, true⟩, ⟨CAL_REF.RCALBAD, .stk, 0x0, true⟩]⟩,
   ⟨"CAL_RCAL", 2, 0x25, 0xFF, 1, 0x6, 1, 1,
    [⟨CAL_RCAL.IT, .ro, 0x0, false⟩]⟩,
   ⟨"CAL_AUX", 2, 0x25, 0xFF, 1, 0x10, 1, 1,
    [⟨CAL_AUX.OFFSET, .ro, 0x0, true⟩, ⟨CAL_AUX.GAIN, .ro, 0x0, true⟩]⟩,
   ⟨"CAL_IS", 2, 0x25, 0xFF, 1, 0x11, 4, 1,
    [⟨CAL_IS.OFFSET, .ro, 0x0, true⟩, ⟨CAL_IS.GAIN, .ro, 0x0, true⟩]⟩,
   ⟨"CAL_CH", 2, 0x25, 0x0, 18, 0x0, 1, 1,
    [⟨CAL_CH.OFFSET, .ro, 0x0, true⟩, ⟨CAL_CH.GAIN, .ro, 0x0, true⟩]⟩,
   ⟨"CAL_CHST", 2, 0x25, 0x0, 18, 0x1, 1, 1,
    [⟨CAL_CHST.ELEM, .ro, 0xF, true⟩, ⟨CAL_CHST.STATUS, .ro, 0x0, false⟩,
     ⟨CAL_CHST.AGE, .ro, 0xFFFF, true⟩]⟩,
   ⟨"CAL_FAC", 2, 0x25, 0x30, 8, 0x0, 18, 1,
    [⟨CAL_FAC.OFFSET, .ro, 0x0, true⟩, ⟨CAL_FAC.GAIN, .ro, 0x0, true⟩]⟩]

/-- The registers of block CAL in plane 2, part 2. -/
def regsCAL2_1 : List RegDesc :=
  [⟨"CAL_FAC_AUX", 2, 0x25, 0x30, 8, 0x18, 1, 1,
    [⟨CAL_FAC_AUX.AOFF, .ro, 0x0, true⟩, ⟨CAL_FAC_AUX.AGAIN, .ro, 0x0, true⟩]⟩,
   ⟨"CAL_FAC_IS", 2, 0x25, 0x30, 8, 0x19, 4, 1,
    [⟨CAL_FAC_IS.IOFF, .ro, 0x0, true⟩, ⟨CAL_FAC_IS.IGAIN, .ro, 0x0, true⟩]⟩,
   ⟨"CAL_FAC_REF", 2, 0x25, 0x30, 8, 0x20, 1, 1,
    [⟨CAL_FAC_REF.BGTRIM, .ro, 0x0, true⟩, ⟨CAL_FAC_REF.ZTRIM, .ro, 0x0, true⟩]⟩,
   ⟨"CAL_FAC_SH", 2, 0x25, 0x30, 8, 0x21, 1, 1,
    [⟨CAL_FAC_SH.SHTRIM, .ro, 0x0, true⟩]⟩,
   ⟨"CAL_FAC_OSC", 2, 0x25, 0x30, 8, 0x22, 1, 1,
    [⟨CAL_FAC_OSC.MCLKTRIM, .ro, 0x0, true⟩, ⟨CAL_FAC_OSC.LFTRIM, .ro, 0x0, true⟩]⟩]

/-- The registers of block FCOL in plane 2, part 1. -/
def regsFCOL2_0 : List RegDesc :=
  [⟨"FCOL_STK", 2, 0x26, 0xFF, 1, 0x0, 8, 1,
    [⟨FCOL_STK.STK, .stk, 0x0, true⟩]⟩,
   ⟨"FCOL_LIVE", 2, 0x26, 0xFF, 1, 0x8, 8, 1,
    [⟨FCOL_LIVE.LIVE, .ro, 0x0, true⟩]⟩,
   ⟨"FCOL_STATE", 2, 0x26, 0xFF, 1, 0x10, 1, 1,
    [⟨FCOL_STATE.STATE, .ro, 0x0, true⟩, ⟨FCOL_STATE.LATENT, .ro, 0x0, true⟩,
     ⟨FCOL_STATE.INJ, .ro, 0x0, true⟩, ⟨FCOL_STATE.HOSTREACT, .ro, 0x0, true⟩]⟩,
   ⟨"FCOL_CFG", 2, 0x26, 0xFF, 1, 0x11, 1, 1,
    [⟨FCOL_CFG.RESTART, .rw, 0x1, true⟩]⟩,
   ⟨"FCOL_CTRL", 2, 0x26, 0xFF, 1, 0x12, 1, 1,
    [⟨FCOL_CTRL.RESUME, .wo, 0x0, false⟩, ⟨FCOL_CTRL.EVCLR, .wo, 0x0, false⟩,
     ⟨FCOL_CTRL.KICK, .wo, 0x0, false⟩]⟩,
   ⟨"FCOL_INJ", 2, 0x26, 0xFF, 1, 0x13, 1, 1,
    [⟨FCOL_INJ.CHECKER, .wo, 0x0, false⟩, ⟨FCOL_INJ.COUNT, .wo, 0x0, false⟩,
     ⟨FCOL_INJ.ARMED, .ro, 0x0, false⟩, ⟨FCOL_INJ.REMAIN, .ro, 0x0, false⟩]⟩,
   ⟨"FCOL_CNTCFG", 2, 0x26, 0xFF, 1, 0x20, 1, 1,
    [⟨FCOL_CNTCFG.N, .rw, 0x8, true⟩, ⟨FCOL_CNTCFG.W_M1, .rw, 0x0, true⟩,
     ⟨FCOL_CNTCFG.SEVCLASS, .rw, 0x1, true⟩]⟩,
   ⟨"FCOL_CNTCFG", 2, 0x26, 0xFF, 1, 0x21, 1, 1,
    [⟨FCOL_CNTCFG.N, .rw, 0x10, true⟩, ⟨FCOL_CNTCFG.W_M1, .rw, 0x1F, true⟩,
     ⟨FCOL_CNTCFG.SEVCLASS, .rw, 0x0, true⟩]⟩,
   ⟨"FCOL_CNTCFG", 2, 0x26, 0xFF, 1, 0x22, 1, 1,
    [⟨FCOL_CNTCFG.N, .rw, 0x4, true⟩, ⟨FCOL_CNTCFG.W_M1, .rw, 0x0, true⟩,
     ⟨FCOL_CNTCFG.SEVCLASS, .rw, 0x0, true⟩]⟩,
   ⟨"FCOL_CNTCFG", 2, 0x26, 0xFF, 1, 0x23, 1, 1,
    [⟨FCOL_CNTCFG.N, .rw, 0x4, true⟩, ⟨FCOL_CNTCFG.W_M1, .rw, 0x0, true⟩,
     ⟨FCOL_CNTCFG.SEVCLASS, .rw, 0x0, true⟩]⟩,
   ⟨"FCOL_CNTCFG", 2, 0x26, 0xFF, 1, 0x24, 1, 1,
    [⟨FCOL_CNTCFG.N, .rw, 0x4, true⟩, ⟨FCOL_CNTCFG.W_M1, .rw, 0x0, true⟩,
     ⟨FCOL_CNTCFG.SEVCLASS, .rw, 0x0, true⟩]⟩,
   ⟨"FCOL_CNTCFG", 2, 0x26, 0xFF, 1, 0x25, 1, 1,
    [⟨FCOL_CNTCFG.N, .rw, 0x4, true⟩, ⟨FCOL_CNTCFG.W_M1, .rw, 0x0, true⟩,
     ⟨FCOL_CNTCFG.SEVCLASS, .rw, 0x0, true⟩]⟩]

/-- The registers of block FCOL in plane 2, part 2. -/
def regsFCOL2_1 : List RegDesc :=
  [⟨"FCOL_CNTCFG", 2, 0x26, 0xFF, 1, 0x26, 1, 1,
    [⟨FCOL_CNTCFG.N, .rw, 0x40, true⟩, ⟨FCOL_CNTCFG.W_M1, .rw, 0x1F, true⟩,
     ⟨FCOL_CNTCFG.SEVCLASS, .rw, 0x0, true⟩]⟩,
   ⟨"FCOL_CNTCFG", 2, 0x26, 0xFF, 1, 0x27, 1, 1,
    [⟨FCOL_CNTCFG.N, .rw, 0x40, true⟩, ⟨FCOL_CNTCFG.W_M1, .rw, 0x1F, true⟩,
     ⟨FCOL_CNTCFG.SEVCLASS, .rw, 0x0, true⟩]⟩,
   ⟨"FCOL_CNTCFG", 2, 0x26, 0xFF, 1, 0x28, 1, 1,
    [⟨FCOL_CNTCFG.N, .rw, 0x20, true⟩, ⟨FCOL_CNTCFG.W_M1, .rw, 0x1F, true⟩,
     ⟨FCOL_CNTCFG.SEVCLASS, .rw, 0x0, true⟩]⟩,
   ⟨"FCOL_CNTCFG", 2, 0x26, 0xFF, 1, 0x29, 1, 1,
    [⟨FCOL_CNTCFG.N, .rw, 0x20, true⟩, ⟨FCOL_CNTCFG.W_M1, .rw, 0x1F, true⟩,
     ⟨FCOL_CNTCFG.SEVCLASS, .rw, 0x0, true⟩]⟩,
   ⟨"FCOL_CNTCFG", 2, 0x26, 0xFF, 1, 0x2A, 1, 1,
    [⟨FCOL_CNTCFG.N, .rw, 0x4, true⟩, ⟨FCOL_CNTCFG.W_M1, .rw, 0x1F, true⟩,
     ⟨FCOL_CNTCFG.SEVCLASS, .rw, 0x0, true⟩]⟩,
   ⟨"FCOL_CNTCFG", 2, 0x26, 0xFF, 1, 0x2B, 1, 1,
    [⟨FCOL_CNTCFG.N, .rw, 0x8, true⟩, ⟨FCOL_CNTCFG.W_M1, .rw, 0xFF, true⟩,
     ⟨FCOL_CNTCFG.SEVCLASS, .rw, 0x0, true⟩]⟩,
   ⟨"FCOL_CNTCFG", 2, 0x26, 0xFF, 1, 0x2C, 1, 1,
    [⟨FCOL_CNTCFG.N, .rw, 0x4, true⟩, ⟨FCOL_CNTCFG.W_M1, .rw, 0x7, true⟩,
     ⟨FCOL_CNTCFG.SEVCLASS, .rw, 0x0, true⟩]⟩,
   ⟨"FCOL_CNTSTAT", 2, 0x26, 0xFF, 1, 0x30, 13, 1,
    [⟨FCOL_CNTSTAT.COUNT, .ro, 0x0, true⟩, ⟨FCOL_CNTSTAT.SEVERE, .ro, 0x0, true⟩]⟩,
   ⟨"FCOL_EVCNT", 2, 0x26, 0xFF, 1, 0x40, 64, 1,
    [⟨FCOL_EVCNT.CNT0, .ro, 0x0, true⟩, ⟨FCOL_EVCNT.CNT1, .ro, 0x0, true⟩,
     ⟨FCOL_EVCNT.CNT2, .ro, 0x0, true⟩, ⟨FCOL_EVCNT.CNT3, .ro, 0x0, true⟩]⟩]

/-- The registers of block FCOL in plane 3. -/
def regsFCOL3 : List RegDesc :=
  [⟨"MOD_FCOL_SUM", 3, 0x26, 0xFF, 1, 0x0, 1, 1,
    [⟨MOD_FCOL_SUM.SAFE, .ro, 0x0, true⟩, ⟨MOD_FCOL_SUM.CONTAINED, .ro, 0x0, true⟩,
     ⟨MOD_FCOL_SUM.SEVERE, .ro, 0x0, true⟩, ⟨MOD_FCOL_SUM.DIELOST, .ro, 0x0, true⟩,
     ⟨MOD_FCOL_SUM.FAULTN, .ro, 0x0, true⟩, ⟨MOD_FCOL_SUM.INJ, .ro, 0x0, true⟩,
     ⟨MOD_FCOL_SUM.LATENT, .ro, 0x0, true⟩]⟩]

/-- The registers of block SNAP in plane 2. -/
def regsSNAP2 : List RegDesc :=
  [⟨"SNAP_HDR0", 2, 0x27, 0xFF, 1, 0x0, 1, 1,
    [⟨SNAP_HDR0.TRIG, .ro, 0x0, false⟩, ⟨SNAP_HDR0.ID, .ro, 0x0, false⟩,
     ⟨SNAP_HDR0.HELD, .ro, 0x0, false⟩, ⟨SNAP_HDR0.READ, .ro, 0x0, false⟩]⟩,
   ⟨"SNAP_HDR1", 2, 0x27, 0xFF, 1, 0x1, 1, 1,
    [⟨SNAP_HDR1.AT, .ro, 0x0, false⟩]⟩,
   ⟨"SNAP_HDR2", 2, 0x27, 0xFF, 1, 0x2, 1, 1,
    [⟨SNAP_HDR2.AT_HI, .ro, 0x0, false⟩, ⟨SNAP_HDR2.CYCLE, .ro, 0x0, false⟩]⟩]

/-- The registers of block SNAP in plane 3. -/
def regsSNAP3 : List RegDesc :=
  [⟨"MOD_SNAP_CFG", 3, 0x27, 0xFF, 1, 0x0, 1, 1,
    [⟨MOD_SNAP_CFG.PIN_EN, .rw, 0x1, false⟩, ⟨MOD_SNAP_CFG.PIN_POL, .rw, 0x0, false⟩,
     ⟨MOD_SNAP_CFG.FAULTLVL, .rw, 0x1, false⟩, ⟨MOD_SNAP_CFG.CAP_EN, .rw, 0x1, false⟩,
     ⟨MOD_SNAP_CFG.RING_EN, .rw, 0x1, false⟩]⟩,
   ⟨"MOD_SNAP_CTRL", 3, 0x27, 0xFF, 1, 0x1, 1, 1,
    [⟨MOD_SNAP_CTRL.ARM, .wo, 0x0, false⟩, ⟨MOD_SNAP_CTRL.FORCE, .wo, 0x0, false⟩,
     ⟨MOD_SNAP_CTRL.FIRE, .wo, 0x0, false⟩]⟩,
   ⟨"MOD_SNAP_STAT", 3, 0x27, 0xFF, 1, 0x2, 1, 1,
    [⟨MOD_SNAP_STAT.STATE, .ro, 0x0, false⟩, ⟨MOD_SNAP_STAT.MISSED, .ro, 0x0, false⟩,
     ⟨MOD_SNAP_STAT.UNREAD, .ro, 0x0, false⟩]⟩]

/-- The registers of block BIST in plane 2. -/
def regsBIST2 : List RegDesc :=
  [⟨"BIST_CFG", 2, 0x29, 0xFF, 1, 0x0, 1, 1,
    [⟨BIST_CFG.PERIODIC, .rw, 0x1, false⟩, ⟨BIST_CFG.ELEM_EN, .rw, 0x1, false⟩]⟩,
   ⟨"BIST_STAT", 2, 0x29, 0xFF, 1, 0x1, 1, 1,
    [⟨BIST_STAT.PART, .ro, 0x0, true⟩, ⟨BIST_STAT.SLICE, .ro, 0x0, true⟩,
     ⟨BIST_STAT.RUNNING, .ro, 0x0, false⟩, ⟨BIST_STAT.INCCNT, .ro, 0x0, true⟩,
     ⟨BIST_STAT.CYCLES, .ro, 0x0, true⟩]⟩,
   ⟨"BIST_REPAIR", 2, 0x29, 0xFF, 1, 0x2, 1, 1,
    [⟨BIST_REPAIR.LOSSES, .ro, 0x0, true⟩, ⟨BIST_REPAIR.SPAREFAIL, .ro, 0x0, true⟩,
     ⟨BIST_REPAIR.SPARETGT, .ro, 0x1F, true⟩, ⟨BIST_REPAIR.FUSED, .ro, 0x0, true⟩]⟩,
   ⟨"BIST_CHFAIL", 2, 0x29, 0xFF, 1, 0x3, 1, 1,
    [⟨BIST_CHFAIL.FAILED, .ro, 0x0, true⟩]⟩,
   ⟨"BIST_RUN", 2, 0x29, 0xFF, 1, 0x4, 1, 1,
    [⟨BIST_RUN.STATE, .ro, 0x0, false⟩, ⟨BIST_RUN.PART, .ro, 0x0, false⟩,
     ⟨BIST_RUN.MACROS, .ro, 0x0, false⟩]⟩,
   ⟨"BIST_PROG", 2, 0x29, 0xFF, 1, 0x5, 1, 1,
    [⟨BIST_PROG.SEED, .rw, 0x1, false⟩, ⟨BIST_PROG.SLICES, .rw, 0x8, false⟩,
     ⟨BIST_PROG.CUSTOM, .rw, 0x0, false⟩]⟩,
   ⟨"BIST_EXPSIG", 2, 0x29, 0xFF, 1, 0x6, 1, 1,
    [⟨BIST_EXPSIG.SIG, .rw, 0x0, false⟩]⟩,
   ⟨"BIST_FUSE", 2, 0x29, 0xFF, 1, 0x7, 1, 1,
    [⟨BIST_FUSE.GO, .wo, 0x0, false⟩, ⟨BIST_FUSE.BUSY, .ro, 0x0, false⟩,
     ⟨BIST_FUSE.DONE, .stk, 0x0, false⟩, ⟨BIST_FUSE.ERR, .stk, 0x0, false⟩]⟩,
   ⟨"BIST_CTRL", 2, 0x29, 0xFF, 1, 0x8, 1, 1,
    [⟨BIST_CTRL.ABORT, .wo, 0x0, false⟩]⟩,
   ⟨"BIST_ELEM", 2, 0x29, 0x0, 18, 0x0, 1, 1,
    [⟨BIST_ELEM.MARKED, .ro, 0x0, true⟩, ⟨BIST_ELEM.RANGES, .ro, 0x0, true⟩,
     ⟨BIST_ELEM.REPEATS, .ro, 0x0, true⟩, ⟨BIST_ELEM.AGE, .ro, 0xFF, true⟩]⟩,
   ⟨"BIST_PART", 2, 0x29, 0x20, 24, 0x0, 1, 1,
    [⟨BIST_PART.RESULT, .ro, 0x0, false⟩, ⟨BIST_PART.INCOMPLETES, .ro, 0x0, true⟩,
     ⟨BIST_PART.AGE, .ro, 0xFFFF, false⟩]⟩,
   ⟨"BIST_MAC", 2, 0x29, 0x40, 18, 0x0, 1, 1,
    [⟨BIST_MAC.SPROWS, .ro, 0x0, true⟩, ⟨BIST_MAC.SPCOL, .ro, 0x0, true⟩,
     ⟨BIST_MAC.UNREP, .ro, 0x0, true⟩, ⟨BIST_MAC.ROW, .ro, 0x0, true⟩,
     ⟨BIST_MAC.FAILS, .ro, 0x0, true⟩, ⟨BIST_MAC.FUSED, .ro, 0x0, true⟩]⟩]

/-- The registers of block LCY in plane 2. -/
def regsLCY2 : List RegDesc :=
  [⟨"LCY_STATE", 2, 0x2A, 0xFF, 1, 0x0, 1, 1,
    [⟨LCY_STATE.STATE, .ro, 0x0, true⟩, ⟨LCY_STATE.AUTH, .ro, 0x0, true⟩,
     ⟨LCY_STATE.PUMP, .ro, 0x0, true⟩, ⟨LCY_STATE.AUTHFAIL, .ro, 0x0, true⟩]⟩,
   ⟨"LCY_KEYS", 2, 0x2A, 0xFF, 1, 0x1, 1, 1,
    [⟨LCY_KEYS.PROG, .ro, 0x0, true⟩, ⟨LCY_KEYS.REVOKED, .ro, 0x0, true⟩,
     ⟨LCY_KEYS.SKEY, .ro, 0x0, true⟩]⟩,
   ⟨"LCY_UID_LO", 2, 0x2A, 0xFF, 1, 0x2, 1, 1,
    [⟨LCY_UID_LO.UID, .ro, 0x0, true⟩]⟩,
   ⟨"LCY_UID_HI", 2, 0x2A, 0xFF, 1, 0x3, 1, 1,
    [⟨LCY_UID_HI.UID, .ro, 0x0, true⟩]⟩,
   ⟨"LCY_FUSECMD", 2, 0x2A, 0xFF, 1, 0x4, 1, 1,
    [⟨LCY_FUSECMD.OP, .wo, 0x0, false⟩, ⟨LCY_FUSECMD.SLOT, .wo, 0x0, false⟩,
     ⟨LCY_FUSECMD.GO, .wo, 0x0, false⟩, ⟨LCY_FUSECMD.BUSY, .ro, 0x0, false⟩,
     ⟨LCY_FUSECMD.ERR, .stk, 0x0, false⟩]⟩,
   ⟨"LCY_FUSEDATA", 2, 0x2A, 0xFF, 1, 0x10, 16, 1,
    [⟨LCY_FUSEDATA.DATA, .rw, 0x0, false⟩]⟩]

/-- The registers of block SNAPWORDS in plane 2, part 1. -/
def regsSNAPWORDS2_0 : List RegDesc :=
  [⟨"SNAP_WORD", 2, 0x27, 0x27, 1, 0x0, 3, 1, [⟨SNAP_WORD.COPY, .ro, 0, true⟩]⟩,
   ⟨"SNAP_WORD", 2, 0x27, 0x1, 1, 0x0, 18, 1, [⟨SNAP_WORD.COPY, .ro, 0, true⟩]⟩,
   ⟨"SNAP_WORD", 2, 0x27, 0x1, 1, 0x20, 17, 1, [⟨SNAP_WORD.COPY, .ro, 0, true⟩]⟩,
   ⟨"SNAP_WORD", 2, 0x27, 0x1, 1, 0x40, 3, 1, [⟨SNAP_WORD.COPY, .ro, 0, true⟩]⟩,
   ⟨"SNAP_WORD", 2, 0x27, 0x2, 1, 0x0, 20, 1, [⟨SNAP_WORD.COPY, .ro, 0, true⟩]⟩,
   ⟨"SNAP_WORD", 2, 0x27, 0x3, 1, 0x0, 2, 1, [⟨SNAP_WORD.COPY, .ro, 0, true⟩]⟩,
   ⟨"SNAP_WORD", 2, 0x27, 0x4, 1, 0x0, 4, 1, [⟨SNAP_WORD.COPY, .ro, 0, true⟩]⟩,
   ⟨"SNAP_WORD", 2, 0x27, 0x5, 1, 0x0, 4, 1, [⟨SNAP_WORD.COPY, .ro, 0, true⟩]⟩,
   ⟨"SNAP_WORD", 2, 0x27, 0x6, 1, 0x0, 1, 1, [⟨SNAP_WORD.COPY, .ro, 0, true⟩]⟩,
   ⟨"SNAP_WORD", 2, 0x27, 0x7, 1, 0x0, 8, 1, [⟨SNAP_WORD.COPY, .ro, 0, true⟩]⟩,
   ⟨"SNAP_WORD", 2, 0x27, 0x10, 1, 0x0, 9, 1, [⟨SNAP_WORD.COPY, .ro, 0, true⟩]⟩,
   ⟨"SNAP_WORD", 2, 0x27, 0x11, 1, 0x0, 10, 1, [⟨SNAP_WORD.COPY, .ro, 0, true⟩]⟩]

/-- The registers of block SNAPWORDS in plane 2, part 2. -/
def regsSNAPWORDS2_1 : List RegDesc :=
  [⟨"SNAP_WORD", 2, 0x27, 0x12, 1, 0x0, 4, 1, [⟨SNAP_WORD.COPY, .ro, 0, true⟩]⟩,
   ⟨"SNAP_WORD", 2, 0x27, 0x13, 1, 0x0, 5, 1, [⟨SNAP_WORD.COPY, .ro, 0, true⟩]⟩,
   ⟨"SNAP_WORD", 2, 0x27, 0x14, 1, 0x0, 6, 1, [⟨SNAP_WORD.COPY, .ro, 0, true⟩]⟩,
   ⟨"SNAP_WORD", 2, 0x27, 0x20, 1, 0x0, 1, 1, [⟨SNAP_WORD.COPY, .ro, 0, true⟩]⟩,
   ⟨"SNAP_WORD", 2, 0x27, 0x21, 1, 0x0, 1, 1, [⟨SNAP_WORD.COPY, .ro, 0, true⟩]⟩,
   ⟨"SNAP_WORD", 2, 0x27, 0x24, 1, 0x0, 1, 1, [⟨SNAP_WORD.COPY, .ro, 0, true⟩]⟩,
   ⟨"SNAP_WORD", 2, 0x27, 0x25, 1, 0x0, 2, 1, [⟨SNAP_WORD.COPY, .ro, 0, true⟩]⟩,
   ⟨"SNAP_WORD", 2, 0x27, 0x26, 1, 0x0, 17, 1, [⟨SNAP_WORD.COPY, .ro, 0, true⟩]⟩,
   ⟨"SNAP_WORD", 2, 0x27, 0x28, 1, 0x0, 4, 1, [⟨SNAP_WORD.COPY, .ro, 0, true⟩]⟩,
   ⟨"SNAP_WORD", 2, 0x27, 0x29, 1, 0x0, 3, 1, [⟨SNAP_WORD.COPY, .ro, 0, true⟩]⟩,
   ⟨"SNAP_WORD", 2, 0x27, 0x2A, 1, 0x0, 1, 1, [⟨SNAP_WORD.COPY, .ro, 0, true⟩]⟩]

/-- Every register of the spec. -/
def regTable : List RegDesc :=
  regsMOD3 ++ regsFOL2 ++ regsULK1_0 ++ regsULK1_1 ++ regsPWR2_0 ++
  regsPWR2_1 ++ regsCFE1_0 ++ regsCFE1_1 ++ regsSHD1 ++ regsOWD1 ++
  regsEIS1_0 ++ regsEIS1_1 ++ regsCXS0_0 ++ regsCXS0_1 ++ regsBCE0_0 ++
  regsBCE0_1 ++ regsPGEN0 ++ regsINJ0 ++ regsQLN1 ++ regsNIB1 ++
  regsNIB3 ++ regsCMD2 ++ regsJNL2 ++ regsCHK2_0 ++ regsCHK2_1 ++
  regsBOOT2 ++ regsTHM0_0 ++ regsTHM0_1 ++ regsCAL2_0 ++ regsCAL2_1 ++
  regsFCOL2_0 ++ regsFCOL2_1 ++ regsFCOL3 ++ regsSNAP2 ++ regsSNAP3 ++
  regsBIST2 ++ regsLCY2 ++ regsSNAPWORDS2_0 ++ regsSNAPWORDS2_1

/-- The registers of one block of one plane (Table 10.10); none where the pair is not assigned. -/
def blockRegs (plane block : Nat) : List RegDesc :=
  if plane = 0 ∧ block = 0x10 then regsCXS0_0 ++ regsCXS0_1
  else if plane = 0 ∧ block = 0x11 then regsBCE0_0 ++ regsBCE0_1
  else if plane = 0 ∧ block = 0x12 then regsPGEN0
  else if plane = 0 ∧ block = 0x13 then regsINJ0
  else if plane = 0 ∧ block = 0x14 then regsTHM0_0 ++ regsTHM0_1
  else if plane = 1 ∧ block = 0x1 then regsCFE1_0 ++ regsCFE1_1
  else if plane = 1 ∧ block = 0x2 then regsSHD1
  else if plane = 1 ∧ block = 0x3 then regsOWD1
  else if plane = 1 ∧ block = 0x4 then regsEIS1_0 ++ regsEIS1_1
  else if plane = 1 ∧ block = 0x5 then regsQLN1
  else if plane = 1 ∧ block = 0x6 then regsNIB1
  else if plane = 1 ∧ block = 0x7 then regsULK1_0 ++ regsULK1_1
  else if plane = 2 ∧ block = 0x20 then regsCMD2
  else if plane = 2 ∧ block = 0x21 then regsJNL2
  else if plane = 2 ∧ block = 0x22 then regsCHK2_0 ++ regsCHK2_1
  else if plane = 2 ∧ block = 0x23 then regsBOOT2
  else if plane = 2 ∧ block = 0x24 then regsFOL2
  else if plane = 2 ∧ block = 0x25 then regsCAL2_0 ++ regsCAL2_1
  else if plane = 2 ∧ block = 0x26 then regsFCOL2_0 ++ regsFCOL2_1
  else if plane = 2 ∧ block = 0x27 then regsSNAP2 ++ regsSNAPWORDS2_0 ++ regsSNAPWORDS2_1
  else if plane = 2 ∧ block = 0x28 then regsPWR2_0 ++ regsPWR2_1
  else if plane = 2 ∧ block = 0x29 then regsBIST2
  else if plane = 2 ∧ block = 0x2A then regsLCY2
  else if plane = 3 ∧ block = 0x6 then regsNIB3
  else if plane = 3 ∧ block = 0x26 then regsFCOL3
  else if plane = 3 ∧ block = 0x27 then regsSNAP3
  else if plane = 3 ∧ block = 0x30 then regsMOD3
  else []

end Sys2Proof.Machine
end

