-- ==== Sys2Proof/Machine/State.lean ====
section
/-! DEFINITION. The state of the module: its registers, and beside them what the spec has a die hold without a
register of its own (counts of consecutive results, pending changes, queues, the journal, RAM). Plain data. A register
is the home of whatever it shows; a structure below holds only what no register shows. -/
namespace Sys2Proof.Machine

/-- What stops the module. -/
inductive Fault where
  /-- The voltage applied at VSTK lies outside the absolute maximum ratings, where R438 says that the behaviour is not
  specified. Raised by VSTK_OVERVOLTAGE above 100 V. Safe: no claim follows from a state that is not answered. -/
  | outsideAbsoluteMaximum
  deriving DecidableEq, Repr

/-- Why a command has no meaning here. -/
inductive Refusal where
  /-- The command's row is not modelled yet. Raised only by an arm of the dispatch. Safe. -/
  | notModelled (mnemonic : String)
  deriving DecidableEq, Repr

/-- A frame of the module's own, before it is inserted (R243): header fields, payload, and the rings it is sent on. -/
structure Frame where
  ftype   : Nat
  flags   : Nat
  dmod    : Nat
  ddie    : Nat
  smod    : Nat
  sdie    : Nat
  tag     : Nat
  seq     : Nat
  payload : List Byte
  ringA   : Bool
  ringB   : Bool
  deriving DecidableEq, Repr

/-- The states of a journal entry (R278). -/
inductive EntryState where
  | held | accepted | executing | committed | answered
  deriving DecidableEq, Repr

/-- An effect a command has formed and not yet applied (R281 step 2): a write of a register word, or the effect of an
opcode on something that is no register. -/
inductive Effect where
  | write (addr : Nat) (w : Word)
  | act (opcode : Nat) (params : List Byte)
  deriving DecidableEq, Repr

/-- An entry of the intake journal, of a guardian's mirror, or both (R278, R280). -/
structure Entry where
  session  : Nat
  seq      : Nat
  tag      : Nat
  smod     : Nat
  packet   : List Byte
  st       : EntryState
  /-- the guardian has acknowledged the mirror -/
  mirrored : Bool
  status   : Nat
  detail   : Nat
  results  : List Byte
  /-- the results were longer than the 32 bytes that an answered entry keeps -/
  lost     : Bool
  effects  : List Effect
  /-- the write reaches several dies, and its answer waits for all of them (R283) -/
  relay    : Bool
  /-- dies that executed every item of a relayed write, dies whose outcome has come, and the outcome of the lowest die
  that did not (R20, R283) -/
  doneMask : Nat
  seenMask : Nat
  /-- the guardian has acknowledged the commit record, so that other dies may take the write (R283) -/
  released : Bool
  /-- the stored CRC-32C of the entry still agrees with it -/
  crcOk    : Bool
  /-- the stroke at which the entry began to wait for a self-test slice (R282) -/
  waitFrom : Option Nat
  /-- strokes for which the entry has waited on a self-test slice (R282) -/
  waited   : Nat
  deriving DecidableEq, Repr

/-- The journal side of a die beyond the JNL registers (R278 to R288). -/
structure JnlX where
  entries  : List Entry
  /-- mirror entries held as a guardian, with the ward each belongs to -/
  mirrors  : List (Die × Entry)
  /-- strokes spent with a gap before the held entries, since it opened or since the last event (R284) -/
  gapStrokes : Nat
  /-- effects that take place at the next stroke edge (R281 step 4) -/
  due      : List Effect
  /-- outcomes of writes relayed to this die, kept until the answer to the write has gone out: destination die, SEQ, status, DETAIL (R20,
  R283) -/
  outcomes : List (Die × Nat × Nat × Nat)
  /-- SEQ of the last command executed in this session (R251) -/
  lastSeq  : Nat
  deriving DecidableEq, Repr

/-- The fault collector of a die beyond the FCOL registers (R360 to R377). -/
structure FcolX where
  /-- events reported by checkers since the last FCOL evaluation, one entry for each -/
  reports    : List Nat
  /-- causes present now, of the sources whose live bit no other register shows -/
  present    : List Nat
  /-- sources whose reaction takes effect at the next stroke edge -/
  react      : List Nat
  /-- UC isolations in force -/
  isolated   : List Nat
  /-- events of each counting source by page, the running page first (R365) -/
  windows    : List (List Nat)
  /-- the settings of the counting sources in force (R366) -/
  cfgNow     : List Word
  /-- counting sources whose settings were written and take effect at the next page boundary -/
  cfgPend    : List Nat
  /-- an accepted RESUME acts at the next line boundary (R369) -/
  resume     : Bool
  /-- the safe state's actions take effect at the next stroke edge -/
  safeDue    : Bool
  /-- pages since the last KICK, and the ages in pages of the restarts made (R375) -/
  kickPages  : Nat
  restarts   : List Nat
  /-- bad and good clock checks in a row (R373) -/
  clkBad     : Nat
  clkGood    : Nat
  deriving DecidableEq, Repr

/-- Time and the PLL beyond the ULK time registers (R41 to R60). -/
structure TimeX where
  /-- the stroke number (R41) -/
  stroke      : Stroke
  /-- beacon supervision has started (R52) -/
  supervised  : Bool
  /-- consecutive strokes within ±10 ns, and beyond ±30 ns (R50) -/
  inRun       : Nat
  outRun      : Nat
  /-- a usable beacon arrived in this stroke, on either port -/
  got         : Bool
  /-- the pack current was copied from a beacon of this stroke -/
  fresh       : Bool
  /-- the die has disciplined to a beacon of this stroke -/
  used        : Bool
  /-- a time step or the replacement of the count waits for the next aligned announced stroke: the announced count
  minus the local count (R53, R60) -/
  stepBy      : Option Int
  replaceBy   : Option Int
  /-- no beacon has been usable since the last wake, or the last cold start (R59) -/
  firstAfterWake : Bool
  /-- strokes in a row with a foreign beacon at an acting Ring Head (R35) -/
  foreignRun  : Nat
  foreignNow  : Option Nat
  /-- stop edge of the last sleep (R56) -/
  strokeAtE   : Stroke
  /-- first stroke without primary samples before the last entry (Table 02.3) -/
  gapFrom     : Stroke
  /-- the stream classes that the sleep has broken, for the record due at the first samples after it; 0 where none is due (R61) -/
  gapMask     : Nat
  /-- the count restarted after a saturated sleep count (R60) -/
  afterOvf    : Bool
  deriving DecidableEq, Repr

/-- A LOAD_MISSING event that a Ring Head has copied (R304): its frame, what it names, the stroke of its arrival, and whether the blocks
have been sent. -/
structure LoadMiss where
  smod   : Nat
  sdie   : Nat
  seq    : Nat
  loadid : Nat
  low    : Nat
  count  : Nat
  at_    : Nat
  served : Bool
  deriving DecidableEq, Repr

/-- A STREAM frame whose offer a slice of the assembler's partition has put off by a stroke (Table 16.1): payload, rings, class, and the strokes
that it spans. -/
structure LateFrame where
  payload : List Byte
  rings   : Nat
  cls     : Nat
  first   : Nat
  stop    : Nat
  deriving DecidableEq, Repr

/-- The ring side of a die beyond the ULK registers (R28, R242, R246, R249, R258 to R262). -/
structure RingX where
  /-- the die's own frames waiting for insertion, in order of origin -/
  queue     : List Frame
  /-- STREAM frames to be offered at the next stroke edge (R412) -/
  late      : List LateFrame
  /-- what the die last sent on the UP and on the DOWN lane -/
  sentUp    : Option Frame
  sentDown  : Option Frame
  /-- whether what was sent ended in /E/, and whether an insertion occupies the lane (R28, R252) -/
  badUp     : Bool
  badDown   : Bool
  busyUp    : Bool
  busyDown  : Bool
  /-- the counters of SEQ by frame type (R246) -/
  seqNext   : List Nat
  /-- frames taken by (SMOD, TYPE, SEQ) with the stroke of arrival (R259) -/
  taken     : List (Nat × Nat × Nat × Nat)
  /-- modules heard, and heard with a fault summary that is not zero, in the page (R260) -/
  heard     : List Nat
  faulted   : List Nat
  /-- frames of this stroke whose CRC check an armed injection has failed at one of the rows that judge them: port, SMOD, TYPE, SEQ
  (R377) -/
  judged    : List (Nat × Nat × Nat × Nat)
  /-- LOAD_MISSING events copied in the last 2 pages (R304) -/
  missing   : List LoadMiss
  /-- SEQ of the pending ring blot, and its stroke (R249) -/
  blotSeq   : Nat
  blotAt    : Stroke
  /-- transit frames held in the elastic buffer behind an insertion, by lane: UP, DOWN, with whether each is to end in
  /E/ (R28, R252) -/
  heldUp    : List (Frame × Bool)
  heldDown  : List (Frame × Bool)
  /-- the die's own BEACON has had to wait for the UP, and for the DOWN lane (R258) -/
  waitUp    : Bool
  waitDown  : Bool
  /-- strokes in a row without, and with, a usable beacon at each port (R242) -/
  missRunA  : Nat
  missRunB  : Nat
  goodRunA  : Nat
  goodRunB  : Nat
  /-- an echo probe is out and its reply not yet in, and a probe whose reply is due (R262) -/
  probeOut  : Bool
  replyDue  : Option Nat
  /-- the last reply sent: TADJ -/
  replied   : Option Nat
  /-- the cable delay last measured at the die's end port, LSB 0.125 ns (R48, R262) -/
  cable     : Option Nat
  /-- strokes in a row without a heartbeat of the die below and above (R31) -/
  hbBelow   : Nat
  hbAbove   : Nat
  /-- the fault order last sent on the DOWN lane (R27) -/
  orderSent : Bool
  deriving DecidableEq, Repr

/-- The power controller of a die beyond the PWR registers (R386 to R408). -/
structure PwrX where
  /-- the domains D0 to D8 that are powered (R386) -/
  on         : Vector Bool 9
  /-- MCLK runs -/
  mclk       : Bool
  /-- the die is in OFF: only the wake detectors are powered (R386) -/
  off        : Bool
  /-- the block of the step being asked has answered ACK, and the stroke of its answer (R393) -/
  acked      : Bool
  ackAt      : Nat
  /-- by block code, the strokes of DELAY that a block has answered in this entry (R393) -/
  delays     : List (Nat × Nat)
  /-- the highest step passed (R397) -/
  passed     : Nat
  /-- strokes since SETTLED began (R395) -/
  relStrokes   : Nat
  /-- the last step has ended and the commit is due (R396) -/
  commitDue  : Bool
  /-- stroke of the last abandonment, whole (R397, Table 10.4) -/
  abortAt    : Stroke
  /-- the entry is to be abandoned: outcome, block, reason, die (R397) -/
  abandon    : Option (Nat × Nat × Nat × Nat)
  /-- domains of an abandoned entry still to restart, in order (R397) -/
  restart    : List Nat
  /-- first stroke without primary samples since the front-ends stopped (R394) -/
  stopStroke : Option Nat
  /-- strokes in a row with VREG5 above 4.60 V, and strokes since the fall (R407) -/
  dipGood    : Nat
  dipLen     : Nat
  /-- a supply dip began and takes effect at the next stroke edge -/
  dipDue     : Bool
  /-- the level that the transition in progress leads to (R389) -/
  plNext     : Option Nat
  /-- the last-gasp sequence in progress: cause, and the last stroke whose edge the die latched; whether LASTGASP was sent
  (R408, R251) -/
  gasp       : Option (Nat × Nat)
  gaspSent   : Bool
  /-- the thresholds and settings copied for the nightcap checks (Table 15.5) -/
  ncOv       : Nat
  ncUv       : Nat
  ncCfg      : Word
  /-- the check runs throughout this sleep at intervals of at most 60 s (R58), and a check waits to be run again -/
  ncComp     : Bool
  ncAgain    : Bool
  /-- sources whose sticky bits a failed check has set, for the first FCOL window after wake (R404) -/
  ncSources  : List Nat
  /-- the wake line, asserted by another die, has still to be taken -/
  lineDue    : Bool
  /-- a qualified wake has still to be carried out -/
  wakeDue    : Bool
  /-- the die sends a wake burst: on NA, on SB (R266) -/
  burstNA    : Bool
  burstSB    : Bool
  /-- strokes since D2 powered up, up to 16 (R299) -/
  shdWarm    : Nat
  deriving DecidableEq, Repr

/-- Start-up and the firmware load beyond the BOOT registers (R295 to R309). -/
structure BootX where
  /-- the boot ROM has ended boot step 2 (R370) -/
  done       : Bool
  /-- the die stays in the boot ROM (R17, R295) -/
  stuck      : Bool
  /-- code RAM, by byte; an unlisted byte is 0 (R300) -/
  code       : List (Nat × Byte)
  /-- blocks of the load received -/
  blocks     : List Nat
  nblocks    : Nat
  /-- the check of a complete image runs (R305) -/
  checking   : Bool
  /-- pages since the last LOAD_MISSING, and LOAD_RESULT was sent for the load (R303) -/
  missPages  : Nat
  resultSent : Bool
  /-- retransmissions made as Ring Head: LOADID and count (R304) -/
  retxId     : Nat
  retxCount  : Nat
  /-- the core ran when the die was reset or put to sleep -/
  ranBefore  : Bool
  /-- registers with an LCK field written since the last reset (R9) -/
  locked     : List Nat
  /-- the copy of the folio is re-applied at the next line boundary, and with which cause (R314) -/
  reapply    : Option Nat
  /-- a FOLIO event waits for the module's address -/
  folioEvent : Option Nat
  deriving DecidableEq, Repr

/-- The two folio copies of a die (R310 to R315): words by index, an unlisted word is 0. -/
structure FolX where
  copyA : List (Nat × Word)
  copyB : List (Nat × Word)
  crcA  : Word
  crcB  : Word
  /-- the value that a re-application holds for the first line boundary with LOOP = 1 (R314) -/
  held  : Option Word
  deriving DecidableEq, Repr

/-- The check-value unit beyond the CHK registers (R291 to R293): the run in progress, over a memory range or over a payload,
and the SEQ of the CHECK command it serves; jobs that wait, each started by the firmware or not. -/
structure ChkX where
  addr    : Nat
  len     : Nat
  payload : Option (List Byte)
  serves  : Option Nat
  waiting : List Bool
  deriving DecidableEq, Repr

/-- Snapshots beyond the SNAP registers (R382, R383): triggers seen within the latch delay, and the ID of a ring blot
among them; a re-arming accepted for the next stroke edge; BLOT_IN's level. The first trigger's stroke and MCLK cycle set the latch. -/
structure SnapX where
  trig    : Nat
  id      : Nat
  stroke  : Nat
  cycle   : Nat
  armDue  : Bool
  pin     : Bool
  deriving DecidableEq, Repr

/-- One record of a FINE or LINE frame: channel, sample word and flag byte in ascending channel order, the span last. -/
abbrev StreamRec := List (Nat × Nat × Nat)

/-- A FINE or LINE frame being assembled (R85): its first stroke, the header fields it was opened with, its records. -/
structure OpenFrame where
  first    : Nat
  dieflags : Nat
  cellmask : Nat
  sub      : Nat
  rings    : Nat
  recs     : List StreamRec
  deriving DecidableEq, Repr

/-- What a page has gathered of one channel (R88): minimum, maximum, sum and count of the included samples, and the OR of
the flag bytes. -/
structure PageStat where
  lo    : Int
  hi    : Int
  sum   : Int
  count : Nat
  flags : Nat
  deriving DecidableEq, Repr

/-- The primary path beyond the CFE registers (R63 to R73, R83 to R89). -/
structure CfeX where
  /-- the corners, the notch and its centre, the stream settings and the FINE selection in force (R67, R68, R83) -/
  fineNow   : Nat
  lineNow   : Nat
  notchNow  : Bool
  centre    : Nat
  streamNow : Word
  selNow    : List Word
  /-- strokes of SETTLE left by channel, for FINE and for LINE (R67, R68) -/
  setFine   : List Nat
  setLine   : List Nat
  /-- strokes by channel since its stages last took the spare's output, test current, and a correction of R111 -/
  subAge    : List Nat
  testAge   : List Nat
  compAge   : List Nat
  /-- the offset and gain that act on each channel's FIR1 output, and its Shared-mode correction in units of 1/25,600 µV, as they were last
  uniform, with the strokes since they last changed (R111, R339) -/
  calNow    : List (Int × Int)
  calAge    : List Nat
  corrNow   : List Int
  corrAge   : List Nat
  /-- the harness current of each cell in the four FIR1 intervals of the stroke that ended, in units of 1/256 mA (R110) -/
  harness   : List (List Int)
  /-- channels marked INVALID (R101), and channels that take the shadow sample for good (R429) -/
  invalid   : List Nat
  shadowOnly : List Nat
  /-- the front-ends have stopped for an entry (R394) -/
  stopped   : Bool
  /-- COMPARE outputs of the stroke by channel, corrected without compensation, and the flag bytes that go with them -/
  cmp       : List Int
  cmpFlags  : List Nat
  /-- the frames being assembled, and the page gathered -/
  fineOpen  : Option OpenFrame
  lineOpen  : Option OpenFrame
  /-- a record latched in this stroke and not yet taken into a frame -/
  fineRec   : Bool
  lineRec   : Bool
  page      : List PageStat
  auxSum    : List (Int × Nat)
  /-- AUX results latched at the next stroke edge (R80): input, value, range -/
  auxDue    : List (Nat × Nat × Bool)
  /-- pack current measured on SD0 with its stamp, latched and waiting for its stroke edge (R81) -/
  packNow   : Option (Int × Nat)
  packDue   : Option (Int × Nat)
  /-- last beacon count minus local count, and phase offset, in HOSTSTAMP (R55) -/
  hsDelta   : Int
  hsPhase   : Int
  /-- the FINE sample of the span, and its flag byte (R64) -/
  spanFine  : Int
  spanFlags : Nat
  /-- the LINE samples of the last three lines by line number: samples and flag bytes of channels 0 to 17 (R159) -/
  lines     : List (Nat × List (Int × Nat))
  /-- the failed channel that REPAIR takes the spare for at the next line boundary (R428), and the spare has been given up and is released
  there (R72) -/
  repair    : Option Nat
  spareDue  : Bool
  deriving DecidableEq, Repr

/-- The shadow path beyond the SHD registers (R74 to R78, R372). -/
structure ShdX where
  /-- violating conversions in a row by cell, and conversions in a row inside the narrowed band -/
  ovRun   : List Nat
  uvRun   : List Nat
  inRun   : List Nat
  /-- comparisons waiting for their evaluation window: strokes to go, channel, shadow code, COMPARE value, skip (R78) -/
  waiting : List (Nat × Nat × Nat × Int × Bool)
  /-- failing and good test slots in a row (R372) -/
  badRun  : Nat
  goodRun : Nat
  /-- strokes since the die left reset, up to 16 -/
  since   : Nat
  deriving DecidableEq, Repr

/-- A loop slot of the control engine beyond its registers (R180 to R188): the history e[n-1] to e[n-3] and y_L[n-1] to
y_L[n-3], the output computed last, and the output applied at the present stroke edge. -/
structure SlotX where
  e       : List Int
  y       : List Int
  out     : Int
  applied : Int
  deriving DecidableEq, Repr

/-- An injection generator beyond its registers (R198, R199): a GO or a STOP for the next stroke edge, strokes since the start,
phase in units of 2^-32 cycle, the PRBS register, strokes its bit has been held and the bit; for a sweeper, K and N of
its bin and whether its sine runs. -/
structure GenX where
  go      : Bool
  stop    : Bool
  m       : Nat
  phase   : Nat
  prbs    : Nat
  count   : Nat
  high    : Bool
  k       : Nat
  n       : Nat
  sweep   : Bool
  deriving DecidableEq, Repr

/-- The capture buffer beyond its registers (R200, R201): recording starts with the next stroke, the blot has latched, strokes
since the last record, the place of the next record, and the records still to write. -/
structure CapX where
  start   : Bool
  trig    : Bool
  skipped : Nat
  pos     : Nat
  left    : Option Nat
  deriving DecidableEq, Repr

/-- The control engine, the injection generators and the capture buffer (chapter Control Engine). -/
structure EngX where
  /-- the values still in force of registers written in this stroke (R193) -/
  held  : List (Nat × Word)
  slots : List SlotX
  gens  : List GenX
  cap   : CapX
  /-- accesses of the command port to data RAM in this stroke, of READ and WRITE (R44) -/
  port  : Nat
  deriving DecidableEq, Repr

/-- A profile generator beyond its registers (R189 to R192): current i, a and i0 in units of 125 µA × 2^-16, and the set-point for
the next stroke. -/
structure PgenX where
  i    : Int
  a    : Int
  i0   : Int
  next : Int
  deriving DecidableEq, Repr

/-- A converter channel beyond its registers (R149, R153, R167, R191). -/
structure ChanX where
  /-- a stop ramp runs -/
  stopping : Bool
  /-- the selection wanted at this line boundary: cell, owner, direction -/
  want     : Option (Nat × Nat × Nat)
  /-- charge since the last target ended, LSB 1/256 µC, until the channel is free -/
  past     : Option Int
  /-- the direction last applied: +1, -1 or 0, and whether the first switching period of the stroke switches nothing -/
  sign     : Int
  skip     : Bool
  /-- a severe overrun of the bound slot has still to deselect the channel (R197) -/
  severe   : Bool
  /-- the peak limit ended an on-time of the running stroke (R150) -/
  peak     : Bool
  deriving DecidableEq, Repr

/-- The balancing stage beyond the CXS registers (chapter Balancing Stage). -/
structure CxsX where
  pgen     : List PgenX
  chans    : List ChanX
  /-- remaining charge by cell, LSB 1/256 µC, and writes of it that take effect at the next stroke edge (R163, R164) -/
  rem      : List Int
  qPend    : List (Nat × Int)
  /-- the manager: candidates, errors in µV, duties (R160 to R162) -/
  cand     : List Bool
  err      : List Int
  mgr      : List Nat
  /-- the bleed duties applied in this line (R155), those the line began with (R156), and duties held by an active bin (R127) -/
  applied  : List Nat
  begun    : List Nat
  holdDuty : List (Nat × Nat)
  /-- cells whose switch has been turned off in this line before its duty ended, with the line's MCLK cycle (R110, R157); and those whose
  current limit has acted in the isolation of source 116 (R157) -/
  cutAt    : List (Nat × Nat)
  ocHeld   : List Nat
  /-- host targets suspended for a sweep, by channel and cell, until the channel is released (R139) -/
  swept    : List (Nat × Nat)
  /-- the leveller's dummy load, LSB 0.1 µA (R169) -/
  dummy    : Nat
  /-- a sleep entry has stopped the stage (Table 06.3) -/
  asleep   : Bool
  /-- HOLD is set at the next line boundary after a cut (R331); an accepted HOLDCLR acts at the next one (R330) -/
  holdDue  : Bool
  holdClr  : Bool
  deriving DecidableEq, Repr

/-- Thermal evaluation beyond the THM registers (R318 to R335). -/
structure ThmX where
  /-- the evaluation of R324: direction (0 none, 1 up, 2 down), run and the level confirmed -/
  dir      : Nat
  run      : Nat
  ext      : Nat
  /-- evaluations made since the die started, 0 or 1; the last reading of each sensor while VALID (R322) -/
  started  : Bool
  lastGood : List Int
  /-- the values in use and the sensor states at the end of the previous evaluation (R320) -/
  prevUse  : List Int
  prevStates : List Nat
  /-- by sensor: sum of deviations and evaluations of the page, out-of-range evaluations in a row, whole page within LIM -/
  devSum   : List Nat
  devCount : Nat
  outRun   : List Nat
  calm     : List Bool
  /-- sensors that return to VALID at the next line boundary -/
  exclClr  : List Nat
  /-- sum and count of the value in use of sensor 3 over the page (R319) -/
  dieSum   : Int
  dieCount : Nat
  /-- pages since the throttle depth last changed (R326) -/
  sinceDepth : Nat
  /-- the loss of each channel in the last four strokes, V_cell·ICELL − V_span·ISPAN in µV × 125 µA (R320) -/
  loss0    : List Int
  loss1    : List Int
  /-- an orderly stop takes effect at the next stroke edge (Table 12.5) -/
  stopDue  : Bool
  /-- comparators that are tripped -/
  cuts     : List Nat
  /-- roster entries in over-temperature, and runs of hot and cool frames (R332), by entry -/
  hotNibs  : List Nat
  nibHot   : List (Nat × Nat)
  nibCool  : List (Nat × Nat)
  /-- runs of hot and cool updates of the Z-temperature by cell (R333), and of AUX conversions by input (R334) -/
  zHot     : List Nat
  zCool    : List Nat
  auxHot   : List Nat
  auxCool  : List Nat
  /-- the trims as they stand: MCLK, LF, bandgap, Zener, shadow reference, current leveller sense; and the reference trims of the next
  line boundary (R336) -/
  trims    : List Int
  trimsDue : Option (List Int)
  deriving DecidableEq, Repr

/-- An open-wire test (R98, R104, R105, R107): all-wire or one wire, ordered by the rotation or by a deviating cell, at 400 µA,
pull-down; the line of its start, and whether its verdict has been given. -/
structure OwdTest where
  all    : Bool
  bg     : Bool
  dev    : Bool
  wire   : Nat
  cur    : Bool
  down   : Bool
  line   : Nat
  judged : Bool
  deriving DecidableEq, Repr

/-- Open-wire tests beyond the OWD registers (R94 to R113). -/
structure OwdX where
  /-- the test that runs, and a reading of it fell in a line that spoils it (R103) -/
  test     : Option OwdTest
  spoilt   : Bool
  /-- the request that waits, with a test to be retried ahead of it; the tests of deviating cells that wait (R104, R107) -/
  queue    : List OwdTest
  devQueue : List OwdTest
  /-- the first page in which the retried test may start -/
  retryAt  : Option Nat
  /-- pull-down in the present rotation (BG_POL = 2) -/
  down     : Bool
  /-- the page's background test has started or been skipped; pages in a row each wire has been deferred (R141) -/
  pageDone : Bool
  defer    : List Nat
  /-- wires whose verdict OPEN marks stand (R101), and wires whose marks clear at the next line boundary -/
  marked   : List Nat
  clearDue : List Nat
  /-- channels carrying test current, with what the die adds to each in µV (R100, R105) -/
  shift    : List (Nat × Int)
  /-- the step stage: wire, step cell's channel, line of its start; and the on-current summed over its on lines so far, mA (R112) -/
  step     : Option (Nat × Nat × Nat)
  stepIon  : Nat
  /-- runs of mismatching and matching lines of the sum check (R106) -/
  sumBad   : Nat
  sumGood  : Nat
  /-- page references by cell, of the span and of the supply span (R107) -/
  ref      : List Int
  refSpan  : Int
  refSup   : Int
  /-- lines in a row in which each cell deviated, and the deviation of each deviating cell, else 0 -/
  devRun   : List Nat
  devNow   : List Int
  /-- cells being classified: channel, whether the pair test holds, verdicts of lower and upper wire so far -/
  pairs    : List (Nat × Bool × Option Nat × Option Nat)
  deriving DecidableEq, Repr

/-- A sweeper beyond its register (R120 to R142). -/
structure SweepX where
  /-- passes left to run, none where the plan repeats until stopped -/
  passes  : Option Nat
  /-- a bin runs: L, n0 and E of Table 05.2 -/
  running : Bool
  lineAt  : Nat
  opens   : Nat
  ends    : Nat
  /-- where the next bin may start -/
  restAt  : Nat
  /-- the channel is held for the sweep -/
  held    : Bool
  /-- pages spent in WAIT_CH in one stretch -/
  waited  : Nat
  /-- a STOP acts at the next stroke edge -/
  stopDue : Bool
  /-- EISDEM as it was where the running bin started (R134, Table 05.5) -/
  host    : Bool
  deriving DecidableEq, Repr

/-- The sums that R131 forms of the samples x_i of a window: Σ x, Σ i·x, and Σ x·cos and Σ x·sin of 2πKi/N in units of 2^-60. -/
structure EisSum where
  s0 : Int
  s1 : Int
  sc : Int
  ss : Int
  deriving DecidableEq, Repr

/-- Sums of no sample. -/
def EisSum.zero : EisSum := ⟨0, 0, 0, 0⟩

/-- The window of a bin whose result is not yet written (R130, R135). -/
structure WinX where
  sw      : Nat
  plan    : Nat
  bin     : Nat
  cells   : List Nat
  passive : Bool
  addpack : Bool
  host    : Bool
  /-- N, K, MIN_I and IDELAY of the bin, as they stood where the window opened (R121, R131) -/
  n       : Nat
  k       : Nat
  minI    : Nat
  idelay  : Nat
  opens   : Nat
  ends    : Nat
  /-- the stroke that the correlator takes next -/
  next    : Nat
  /-- the OR of the FINE flag bytes by channel, and what else befell the window -/
  flags   : List Nat
  nocur   : Bool
  time    : Bool
  supply  : Bool
  cross   : Bool
  /-- the sums of the voltage samples by cell, and of the converter and the pack component of the reference current -/
  volts   : List EisSum
  conv    : EisSum
  pack    : EisSum
  deriving DecidableEq, Repr

/-- A result written in the page (R146): channel, plan, passive, bin, R, X, IAMP, status, flags, last window stroke. -/
structure EisRec where
  chan    : Nat
  plan    : Nat
  passive : Bool
  bin     : Nat
  r       : Word
  x       : Word
  iamp    : Nat
  status  : Nat
  flags   : Nat
  stop    : Nat
  /-- the stroke in which it was written -/
  wrote   : Nat
  deriving DecidableEq, Repr

/-- What the correlator keeps of a stroke until it takes it: stroke, FINE flags by channel, supply-degraded, LOCKED. -/
structure EisHist where
  stroke   : Nat
  flags    : List Nat
  degraded : Bool
  locked   : Bool
  /-- the FINE samples by channel in µV, ICELL of the two channels, and the sum of ISPAN over the channels that run (R128) -/
  fine     : List Int
  icell    : List Int
  ispan    : Int
  deriving DecidableEq, Repr

/-- Impedance spectroscopy beyond the EIS registers (chapter Impedance Spectroscopy and Z-Temperature). -/
structure EisX where
  sweeps  : List SweepX
  wins    : List WinX
  hist    : List EisHist
  /-- the pack current's newest samples by stamp, in mA; none for NODATA (R82, R129) -/
  pack    : List (Nat × Option Int)
  results : List EisRec
  deriving DecidableEq, Repr

/-- A voltage item that runs (R348): its ITEM code, the line at which its next pair of windows ends, the candidate offset, gain
and combination, combinations tried so far with those in use before, whether a window was taken again, the line from which its present
windows are taken, and whether one of them fell in a degraded line. -/
structure CalItem where
  code  : Nat
  due   : Nat
  cand  : Option (Int × Int × Nat)
  elem  : Nat
  tried : List Nat
  redo  : Bool
  begun : Nat
  spoilt : Bool
  deriving DecidableEq, Repr

/-- A calibration pass (R347 to R356). -/
structure CalPass where
  cause    : Nat
  /-- every item of the pass, the voltage items still to run, those that run, and the current-sense items still to run -/
  all      : List Nat
  items    : List Nat
  running  : List CalItem
  senses   : List Nat
  /-- the correction formed by each accepted item: ITEM code, offset, gain, ELEM -/
  accepted : List (Nat × Int × Int × Nat)
  failed   : List Nat
  /-- T_die at the start, W, pages since the start, and the line at which the AUX item and the reference item have ended -/
  tref     : Nat
  window   : Nat
  age      : Nat
  calmAt   : Nat
  /-- the line in which the last item that has ended did so (R351) -/
  endAt    : Nat
  deriving DecidableEq, Repr

/-- Calibration beyond the CAL registers. -/
structure CalX where
  pass      : Option CalPass
  /-- `CAL_CFG` as it stood at the last pass start, which is in force (R355) -/
  cfgNow    : Word
  /-- a full calibration has been ordered and starts at the next line boundary (R356) -/
  service   : Bool
  /-- cause of the pending pass -/
  pendCause : Nat
  /-- the current-sense item that runs: n of `CAL_ISn`, and the line at which it ends -/
  sense     : Option (Nat × Nat)
  /-- pages since the start of the last pass that ended (R352) -/
  since     : Nat
  /-- pages of disagreement in a row, and below the limit in a row (R343, R345) -/
  disRun    : Nat
  okRun     : Nat
  /-- pages the current-sense items have waited (R355) -/
  senseWait : List Nat
  /-- the factory corrections in force: offset and gain of channels 0 to 17, AUX, four senses; and those of the next line
  boundary (R340) -/
  fac       : List (Int × Int)
  facNext   : List (Int × Int)
  deriving DecidableEq, Repr

/-- A Quill lane beyond its QLN registers (R205, R207, R223, R226, R229): a lane start or a census is due, the lane was stopped by
the host, a retry after a short is out, the windows of a host's STREAM, and the duty governor's account in µs. -/
structure LaneX where
  start   : Bool
  census  : Bool
  stopped : Bool
  retry   : Bool
  rawWin  : Option Nat
  account : Nat
  /-- the governor holds a cycle's start; it has held an edge in the cycle that runs (R205) -/
  edge    : Bool
  heldCyc : Bool
  /-- what the die has driven in write slots since the last roll-call slot, in order: orders, functions and their data (R210, R214, R215) -/
  wire    : List Bool
  deriving DecidableEq, Repr

/-- The lanes and the roster beyond the registers: by roster entry, consecutive missed frames, the previous frame's COUNT, deviating
checks in a row (R222, R231), and what the page has seen (bit 0 a valid frame, 3 a CRC error, 5 a status bit; R232). -/
structure NibX where
  lanes   : List LaneX
  missed  : List (Nat × Nat)
  count   : List (Nat × Nat)
  broken  : List (Nat × Nat)
  seen    : List (Nat × Nat)
  /-- RETIRED entries, the one retired longest first (R227) -/
  retired : List Nat
  /-- entries changed and not yet sent to the other dies; entries sent, with the dies that have still to take them (R224) -/
  dirty   : List Nat
  sent    : List (Nat × Nat)
  deriving DecidableEq, Repr

/-- A programmed self-test run (R418): its kind, custom seed and signature, the partitions still to test, slices done of the first, the
windows of the row tests still to run, and whether something has failed. -/
structure BistRun where
  kind   : Nat
  custom : Bool
  parts  : List Nat
  slice  : Nat
  rows   : Nat
  failed : Bool
  deriving DecidableEq, Repr

/-- Self-test beyond the BIST registers (R412 to R431). -/
structure BistX where
  /-- blocks held by a self-test started with SELFTEST_RUN -/
  held    : List Nat
  /-- the element test that runs: channel, line of its start; the channel the rotation comes to next, and whether the page's
  test has started or been skipped (R425) -/
  elem    : Option (Nat × Nat)
  elemNext : Nat
  pageDone : Bool
  /-- the window of the 192-window cycle that the row tests come to next (R421) -/
  window  : Nat
  /-- the LFSR and the MISR of the test that runs, which each slice continues (R413); no MISR before the first slice -/
  lfsr    : Nat
  misr    : Option Word
  run     : Option BistRun
  /-- row remaps: macro, row; columns: macro, bit; and bit positions that have failed: macro, row, bit (R422) -/
  rows    : List (Nat × Nat)
  cols    : List (Nat × Nat)
  seen    : List (Nat × Nat × Nat)
  /-- the fuse pump programs repair fuses (R431) -/
  pump    : Bool
  deriving DecidableEq, Repr

/-- What the repair fuses hold (R431): row and column remaps, marked units by channel, the spare's target, and
shadow-only channels. -/
structure FuseX where
  /-- the factory words that the boot ROM copies into `CAL_FACs` and `THM_NBRi`, by register address; one not listed is 0 (R340, R338) -/
  factory : List (Nat × Word)
  rows    : List (Nat × Nat)
  cols    : List (Nat × Nat)
  marked  : List (Nat × Nat)
  target  : Option Nat
  spareFail : Bool
  shadow  : List Nat
  deriving DecidableEq, Repr

/-- The fuses and the lifecycle beyond the LCY registers (R431 to R437). -/
structure LcyX where
  /-- SHA-256 key hashes of the four slots, and the service key, as fused -/
  keyHash    : List Nat
  serviceKey : List Byte
  /-- the fused state, slots programmed and revoked, and the service key's mark (R433, R436) -/
  state      : Nat
  prog       : Nat
  revoked    : Nat
  skey       : Nat
  fuses      : FuseX
  /-- the nonce of the last challenge, and pages since it (R435) -/
  nonce      : Option (List Byte)
  age        : Nat
  /-- pages since the challenge that the authority in force was granted on (R435) -/
  authAge    : Nat
  /-- a fuse transition in progress: the state it leads to, and the die and SEQ of the command it answers (R434) -/
  target     : Option (Nat × Nat × Nat)
  /-- a key fuse operation in progress: OP, slot, and the bytes to program (R436) -/
  keyOp      : Option (Nat × Nat × List Byte)
  deriving DecidableEq, Repr

/-- What a die holds beside its registers. -/
structure DieX where
  time : TimeX
  ring : RingX
  jnl  : JnlX
  fcol : FcolX
  pwr  : PwrX
  boot : BootX
  fol  : FolX
  chk  : ChkX
  snap : SnapX
  cfe  : CfeX
  shd  : ShdX
  eng  : EngX
  cxs  : CxsX
  thm  : ThmX
  owd  : OwdX
  eis  : EisX
  cal  : CalX
  nib  : NibX
  bist : BistX
  lcy  : LcyX
  deriving DecidableEq, Repr

/-- The lines and pins that belong to no one die. -/
structure ModX where
  /-- FAULT_N is low (R370) -/
  faultLow : Bool
  /-- dies whose fault order stands at SD0 (R27) -/
  orders   : List Die
  /-- the levels of the WAKE pins -/
  wake0    : Bool
  wake1    : Bool
  deriving DecidableEq, Repr

/-- The module: its registers, the hidden state of each die, its lines, and the counter that free values are drawn
with (the model's own field; no statement rests on its value). -/
structure Chip where
  regs : List (Nat × Word)
  dies : Vector DieX 8
  mod  : ModX
  free : Nat
  deriving DecidableEq, Repr

/-- The module, and the commands that wait, first in, first out. -/
structure State where
  chip    : Chip
  pending : List Instr
  deriving DecidableEq, Repr

/-! ### Reset: every die without power (R295). What the spec gives no reset value for starts at 0, false, empty or none
(assumption 9). -/

def JnlX.reset : JnlX := ⟨[], [], 0, [], [], 0⟩

/-- The settings of the counting sources at reset (Table 14.2). -/
def countReset : List Word :=
  [0x10008, 0x01F10, 0x00004, 0x00004, 0x00004, 0x00004, 0x01F40, 0x01F40, 0x01F20, 0x01F20, 0x01F04, 0x0FF08, 0x00704]

def FcolX.reset : FcolX :=
  { reports := [], present := [], react := [], isolated := [], windows := List.replicate 13 [0], cfgNow := countReset, cfgPend := []
    resume := false, safeDue := false, kickPages := 0, restarts := [], clkBad := 0, clkGood := 0 }

def TimeX.reset : TimeX :=
  { stroke := 0, supervised := false, inRun := 0, outRun := 0, got := false, fresh := false, used := false, stepBy := none, replaceBy := none
    firstAfterWake := true, foreignRun := 0, foreignNow := none, strokeAtE := 0, gapFrom := 0, gapMask := 0, afterOvf := false }

def RingX.reset : RingX :=
  { queue := [], late := [], sentUp := none, sentDown := none, badUp := false, badDown := false, busyUp := false, busyDown := false
    seqNext := List.replicate 16 0, taken := [], heard := [], faulted := [], judged := [], missing := [], blotSeq := 0, blotAt := 0, heldUp := [], heldDown := [], waitUp := false, waitDown := false
    missRunA := 0, missRunB := 0, goodRunA := 0, goodRunB := 0, probeOut := false, replyDue := none, replied := none, cable := none
    hbBelow := 0, hbAbove := 0, orderSent := false }

def PwrX.reset : PwrX :=
  { on := Vector.replicate 9 false, mclk := false, off := false, acked := false, ackAt := 0, delays := [], passed := 0
    relStrokes := 0, commitDue := false, abortAt := 0, abandon := none, restart := [], stopStroke := none, dipGood := 0, dipLen := 0, dipDue := false
    plNext := none, gasp := none, gaspSent := false, ncOv := 0, ncUv := 0, ncCfg := 0, ncComp := false, ncAgain := false
    ncSources := [], lineDue := false, wakeDue := false, burstNA := false, burstSB := false, shdWarm := 0 }

def BootX.reset : BootX :=
  { done := false, stuck := false, code := [], blocks := [], nblocks := 0, checking := false, missPages := 0, resultSent := false
    retxId := 0, retxCount := 0, ranBefore := false, locked := [], reapply := none, folioEvent := none }

def FolX.reset : FolX := ⟨[], [], 0, 0, none⟩

def ChkX.reset : ChkX := ⟨0, 0, none, none, []⟩

def SnapX.reset : SnapX := ⟨0, 0, 0, 0, false, false⟩

/-- The filters, the notch and the streams start on the reset values of their registers (Tables 03.13 to 03.15). -/
def CfeX.reset : CfeX :=
  { fineNow := 6, lineNow := 3, notchNow := false, centre := 32000, streamNow := 0x354, selNow := List.replicate 4 0
    setFine := List.replicate 18 16, setLine := List.replicate 18 224, subAge := List.replicate 18 4095
    testAge := List.replicate 18 4095, compAge := List.replicate 18 4095, calNow := [], calAge := List.replicate 18 4095
    corrNow := List.replicate 18 0, corrAge := List.replicate 18 4095, harness := [], invalid := [], shadowOnly := [], stopped := false
    cmp := List.replicate 18 0, cmpFlags := List.replicate 18 8, fineOpen := none, lineOpen := none, fineRec := false, lineRec := false
    page := [], auxSum := List.replicate 8 (0, 0), auxDue := [], packNow := none, packDue := none, hsDelta := 0, hsPhase := 0
    spanFine := 0, spanFlags := 0, lines := [], repair := none, spareDue := false }

def ShdX.reset : ShdX := ⟨List.replicate 16 0, List.replicate 16 0, List.replicate 16 0, [], 0, 0, 0⟩

def SlotX.reset : SlotX := ⟨[0, 0, 0], [0, 0, 0], 0, 0⟩

/-- A generator starts its PRBS register at all ones (R198). -/
def GenX.reset : GenX :=
  { go := false, stop := false, m := 0, phase := 0, prbs := 0x7FFF, count := 0, high := false, k := 0, n := 0, sweep := false }

def EngX.reset : EngX := ⟨[], List.replicate 4 SlotX.reset, List.replicate 4 GenX.reset, ⟨false, false, 0, 0, none⟩, 0⟩

def CxsX.reset : CxsX :=
  { pgen := List.replicate 2 ⟨0, 0, 0, 0⟩, chans := List.replicate 2 ⟨false, none, none, 0, false, false, false⟩, rem := List.replicate 16 0
    qPend := [], cand := List.replicate 16 false, err := List.replicate 16 0, mgr := List.replicate 16 0
    applied := List.replicate 16 0, begun := List.replicate 16 0, swept := [], holdDuty := [], cutAt := [], ocHeld := []
    dummy := 0, asleep := false, holdDue := false
    holdClr := false }

def ThmX.reset : ThmX :=
  { dir := 0, run := 0, ext := 0, started := false, lastGood := List.replicate 5 (-32768), devSum := List.replicate 5 0, devCount := 0
    prevUse := List.replicate 5 0, prevStates := List.replicate 5 0, outRun := List.replicate 5 0, calm := List.replicate 5 false, exclClr := []
    dieSum := 0, dieCount := 0, sinceDepth := 15
    loss0 := [], loss1 := [], stopDue := false, cuts := [], hotNibs := [], nibHot := [], nibCool := [], zHot := List.replicate 16 0
    zCool := List.replicate 16 0, auxHot := List.replicate 8 0, auxCool := List.replicate 8 0, trims := List.replicate 6 0, trimsDue := none }

def OwdX.reset : OwdX :=
  { test := none, spoilt := false, queue := [], devQueue := [], retryAt := none, down := false, pageDone := false
    defer := List.replicate 17 0, marked := [], clearDue := [], shift := [], step := none, stepIon := 0, sumBad := 0, sumGood := 0
    ref := List.replicate 16 (-8388608), refSpan := -8388608, refSup := 0, devRun := List.replicate 16 0, devNow := List.replicate 16 0, pairs := [] }

def SweepX.reset : SweepX := ⟨none, false, 0, 0, 0, 0, false, 0, false, false⟩

def EisX.reset : EisX := ⟨List.replicate 3 SweepX.reset, [], [], [], []⟩

def CalX.reset : CalX :=
  { pass := none, cfgNow := 0x493E0048, service := false, pendCause := 0, sense := none, since := 0, disRun := 0, okRun := 0, senseWait := [0, 0, 0, 0]
    fac := List.replicate 23 (0, 0), facNext := List.replicate 23 (0, 0) }

def LaneX.reset : LaneX := ⟨false, false, false, false, none, 0, false, false, []⟩

def NibX.reset : NibX := ⟨List.replicate 2 LaneX.reset, [], [], [], [], [], [], []⟩

def BistX.reset : BistX :=
  { held := [], elem := none, elemNext := 0, pageDone := false, window := 0, lfsr := 0, misr := none, run := none, rows := [], cols := [], seen := []
    pump := false }

def FuseX.reset : FuseX := ⟨[], [], [], [], none, false, []⟩

/-- The fuses of a die in BLANK with nothing programmed (assumption 2). -/
def LcyX.reset : LcyX :=
  { keyHash := List.replicate 4 0, serviceKey := [], state := 0, prog := 0, revoked := 0, skey := 0, fuses := FuseX.reset, nonce := none
    age := 0, authAge := 0, target := none, keyOp := none }

/-- A die without power. -/
def DieX.reset : DieX :=
  { time := TimeX.reset, ring := RingX.reset, jnl := JnlX.reset, fcol := FcolX.reset, pwr := PwrX.reset, boot := BootX.reset
    fol := FolX.reset, chk := ChkX.reset, snap := SnapX.reset, cfe := CfeX.reset, shd := ShdX.reset, eng := EngX.reset
    cxs := CxsX.reset, thm := ThmX.reset, owd := OwdX.reset, eis := EisX.reset, cal := CalX.reset, nib := NibX.reset
    bist := BistX.reset, lcy := LcyX.reset }

/-- The module before the start of any die: every register at its Reset column (R11), no die powered, FAULT_N low (R370). -/
def Chip.reset : Chip :=
  { regs := [], dies := Vector.replicate 8 DieX.reset, mod := ⟨true, [], false, false⟩, free := 0 }

/-- The machine right after reset: no command waits. -/
def State.reset : State := ⟨Chip.reset, []⟩

end Sys2Proof.Machine
end

