-- ==== Sys2Proof/Machine/Ops.lean ====
section
/-! DEFINITION. The named operations over the registers of the module: a field of a word, the sparse register store in
its canonical form, and reads and writes of registers and fields of one die. -/
namespace Sys2Proof.Machine

/-! ### Fields of a word (R4) -/

/-- The bits of a field, in place. -/
def Fld.mask (f : Fld) : Word := BitVec.ofNat 32 ((2 ^ f.w - 1) * 2 ^ f.lo)

/-- The value of field `f` in word `w`. -/
def Fld.read (f : Fld) (w : Word) : Nat := (w.toNat / 2 ^ f.lo) % 2 ^ f.w

/-- Word `w` with field `f` set to `v` (its low bits), the other bits kept. -/
def Fld.write (f : Fld) (w : Word) (v : Nat) : Word :=
  (w &&& ~~~ f.mask) ||| BitVec.ofNat 32 ((v % 2 ^ f.w) * 2 ^ f.lo)

/-- A field value read as two's complement. -/
def toSigned (n w : Nat) : Int := if n < 2 ^ (w - 1) then (n : Int) else (n : Int) - (2 ^ w : Nat)

/-- A value as the two's complement of `w` bits. -/
def ofSigned (v : Int) (w : Nat) : Nat := (v % (2 ^ w : Nat)).toNat

/-- A value limited to the range of `w` bits in two's complement. -/
def satSigned (v : Int) (w : Nat) : Int := max (-(2 ^ (w - 1) : Nat)) (min v ((2 ^ (w - 1) : Nat) - 1))

/-- A value limited to the Q1.15 range of 16 bits. -/
def sat16 (v : Int) : Int := satSigned v 16

/-- A quotient rounded to the nearest integer, ties to the even one, for a positive divisor. -/
def roundDiv (a b : Int) : Int :=
  let q := a / b
  let r := a % b
  if 2 * r < b then q else if b < 2 * r then q + 1 else if q % 2 = 0 then q else q + 1

/-- The sign of a value: -1, 0 or 1. -/
def sgn (v : Int) : Int := if 0 < v then 1 else if v < 0 then -1 else 0

/-- The bits of a root from bit `b` down. -/
def isqrtBits (n : Nat) : Nat → Nat → Nat
  | 0, r => r
  | b + 1, r => if (r + 2 ^ b) * (r + 2 ^ b) ≤ n then isqrtBits n b (r + 2 ^ b) else isqrtBits n b r

/-- The integer square root, rounded down (R190), for values below 2^128. -/
def isqrt (n : Nat) : Nat := isqrtBits n 64 0

/-- The sum of a list. -/
def sumInt (l : List Int) : Int := l.foldl (· + ·) 0

/-! ### The register store -/

/-- The entry of the store at an address. -/
def storeGet : List (Nat × Word) → Nat → Option Word
  | [], _ => none
  | (k, w) :: rest, a => if k = a then some w else storeGet rest a

/-- The store with the entry at an address removed. -/
def storeDel : List (Nat × Word) → Nat → List (Nat × Word)
  | [], _ => []
  | (k, w) :: rest, a => if k = a then rest else (k, w) :: storeDel rest a

/-- The store with an entry put in its place by address. -/
def storePut : List (Nat × Word) → Nat → Word → List (Nat × Word)
  | [], a, v => [(a, v)]
  | (k, w) :: rest, a, v =>
    if a < k then (a, v) :: (k, w) :: rest
    else if k = a then (a, v) :: rest
    else (k, w) :: storePut rest a v

/-- The full address of a register of a die: the DIE field in [31:29] (R19). -/
def fullAddr (d : Die) (a : Nat) : Nat := d.val * 0x20000000 + a % 0x20000000

/-- The register of a block that lies at a channel and word, with the places inside an array of like registers. -/
def RegDesc.covers (r : RegDesc) (chan word : Nat) : Bool :=
  r.chan ≤ chan && chan < r.chan + r.nchan && r.word ≤ word && (word - r.word) % r.stride == 0
    && (word - r.word) / r.stride < r.nword

/-- The description of the register at an address; none where CHANNEL or WORD is not assigned (R23). -/
def regDesc (a : Nat) : Option RegDesc :=
  (blockRegs (a / 0x8000000 % 4) (a / 0x100000 % 128)).find? fun r => r.covers (a / 0x1000 % 256) (a / 4 % 1024)

/-- The word whose fields have their reset values (R11). -/
def resetOf (fields : List FieldDesc) : Word := fields.foldl (fun w f => f.fld.write w f.reset) 0

/-- What an address reads as that nothing has written: the Reset column (R11), and 0 where no register lies (R23). -/
def resetWord (a : Nat) : Word :=
  match regDesc a with
  | some r => resetOf r.fields
  | none   => 0

/-- The canonical form of the register store: addresses strictly rising, and no entry equal to what an unlisted address
reads as. -/
def storeWf : List (Nat × Word) → Bool
  | [] => true
  | (k, w) :: rest => (w != resetWord k) && rest.all (fun e => decide (k < e.1)) && storeWf rest

/-- The store after a write: the entry takes its place by address, or goes where the word is what an unlisted address reads
as. -/
def storeSet : List (Nat × Word) → Nat → Word → List (Nat × Word)
  | [], a, w => if w = resetWord a then [] else [(a, w)]
  | (k, v) :: rest, a, w =>
    if a < k then (if w = resetWord a then (k, v) :: rest else (a, w) :: (k, v) :: rest)
    else if k = a then (if w = resetWord a then rest else (a, w) :: rest)
    else (k, v) :: storeSet rest a w

/-! ### Bytes of frames and packets (R5) -/

/-- `n` bytes of a value, least-significant first. -/
def leBytes : Nat → Nat → List Byte
  | 0, _ => []
  | n + 1, v => BitVec.ofNat 8 v :: leBytes n (v / 256)

/-- The value of bytes sent least-significant first. -/
def leValue : List Byte → Nat
  | [] => 0
  | b :: rest => b.toNat + 256 * leValue rest

/-- The value of `n` bytes of a packet from an offset. -/
def field (p : List Byte) (off n : Nat) : Nat := leValue ((p.drop off).take n)

/-- The dies in order. -/
def allDies : List Die := [0, 1, 2, 3, 4, 5, 6, 7]

/-! ### Registers and fields of a die -/

namespace Chip

/-- The word a register of die `d` holds. -/
def reg (s : Chip) (d : Die) (a : Nat) : Word := (storeGet s.regs (fullAddr d a)).getD (resetWord (fullAddr d a))

/-- The module with a register of die `d` holding `w`. -/
def setReg (s : Chip) (d : Die) (a : Nat) (w : Word) : Chip := { s with regs := storeSet s.regs (fullAddr d a) w }

/-- A field of a register of die `d`. -/
def get (s : Chip) (d : Die) (a : Nat) (f : Fld) : Nat := f.read (s.reg d a)

/-- A field read as two's complement. -/
def getI (s : Chip) (d : Die) (a : Nat) (f : Fld) : Int := toSigned (s.get d a f) f.w

/-- A one-bit field as a truth value. -/
def bit (s : Chip) (d : Die) (a : Nat) (f : Fld) : Bool := s.get d a f == 1

/-- The module with a field of a register of die `d` set. -/
def put (s : Chip) (d : Die) (a : Nat) (f : Fld) (v : Nat) : Chip := s.setReg d a (f.write (s.reg d a) v)

/-- A field set to the two's complement of a value, limited to the field's range. -/
def putI (s : Chip) (d : Die) (a : Nat) (f : Fld) (v : Int) : Chip := s.put d a f (ofSigned (satSigned v f.w) f.w)

/-- A one-bit field set to a truth value. -/
def putB (s : Chip) (d : Die) (a : Nat) (f : Fld) (b : Bool) : Chip := s.put d a f b.toNat

/-- A field set to a value, limited to the largest the field holds. -/
def putSat (s : Chip) (d : Die) (a : Nat) (f : Fld) (v : Nat) : Chip := s.put d a f (min v (2 ^ f.w - 1))

/-- A counting field advanced by `n`, saturating. -/
def inc (s : Chip) (d : Die) (a : Nat) (f : Fld) (n : Nat := 1) : Chip := s.putSat d a f (s.get d a f + n)

/-- The hidden state of die `d`. -/
def die (s : Chip) (d : Die) : DieX := s.dies[d]

/-- The module with the hidden state of die `d` changed. -/
def upd (s : Chip) (d : Die) (f : DieX → DieX) : Chip := { s with dies := s.dies.set d (f s.dies[d]) }

/-- A change made where a condition holds. -/
def cond (s : Chip) (b : Bool) (f : Chip → Chip) : Chip := if b then f s else s

/-- A change made once for each element of a list, in order. -/
def each {α : Type} (s : Chip) (l : List α) (f : α → Chip → Chip) : Chip := l.foldl (fun s x => f x s) s

/-- The next number of the counter a free value is drawn with. -/
def draw (s : Chip) : Chip := { s with free := s.free + 1 }

/-! ### Dies, domains and roles -/

/-- The die is fitted (R33: DIES_M1 is the number of fitted dies minus 1). -/
def fitted (s : Chip) (d : Die) : Bool := d.val ≤ s.get 0 MOD_TOPOLOGY MOD_TOPOLOGY.DIES_M1

/-- The top die (R17). -/
def isTop (s : Chip) (d : Die) : Bool := d.val == s.get 0 MOD_TOPOLOGY MOD_TOPOLOGY.DIES_M1

/-- Domain `k` of die `d` is powered (R386). -/
def on (s : Chip) (d : Die) (k : Fin 9) : Bool := (s.die d).pwr.on[k]

/-- The die is fitted, powered, has MCLK and has left the boot ROM's self-check: it runs its scheduled work. -/
def runs (s : Chip) (d : Die) : Bool :=
  s.fitted d && s.on d 0 && (s.die d).pwr.mclk && (s.die d).boot.done && !(s.die d).boot.stuck

/-- An entry into a power state is in progress (R393). -/
def entering (s : Chip) (d : Die) : Bool := s.get d PWR_STATE PWR_STATE.STATE == 2 || s.get d PWR_STATE PWR_STATE.STATE == 3

/-- The entry step that asks a domain whose own work stops with its step (Table 15.4, R394): D8, D7, D1 and D5. The engine
and the stage stop part by part, and the ring works on. -/
def stopStep (k : Fin 9) : Option Nat := match k.val with | 8 => some 1 | 7 => some 2 | 1 => some 5 | 5 => some 6 | _ => none

/-- A DOZE entry leaves D7 and D1 on and does not ask their steps (R393). -/
def stepSkipped (s : Chip) (d : Die) (n : Nat) : Bool := s.get d PWR_STATE PWR_STATE.TARGET == 1 && (n == 2 || n == 5)

/-- The entry in progress has come to step `n` at die `d`. -/
def stepAsked (s : Chip) (d : Die) (n : Nat) : Bool :=
  s.entering d && decide (n ≤ s.get d PWR_STATE PWR_STATE.STEP) && !(s.stepSkipped d n)

/-- The blocks that step `n` asks have stopped their own work at die `d`: they have answered ACK (R394). -/
def stepRests (s : Chip) (d : Die) (n : Nat) : Bool :=
  s.entering d && (decide (n ≤ (s.die d).pwr.passed) || (s.get d PWR_STATE PWR_STATE.STEP == n && (s.die d).pwr.acked))
    && !(s.stepSkipped d n)

/-- The blocks of a domain have stopped their work for an entry, or wait to restart after an abandoned one (R394, R397): D8 and D7 from
their ACK, the front-ends and the core from the end of their step. -/
def resting (s : Chip) (d : Die) (k : Fin 9) : Bool :=
  match stopStep k with
  | none => false
  | some n => (s.stepRests d n && (decide (n ≤ 2) || decide (n ≤ (s.die d).pwr.passed))) || (s.die d).pwr.restart.contains k.val

/-- The die runs, domain `k` is powered, and its blocks have not stopped for an entry. -/
def runsOn (s : Chip) (d : Die) (k : Fin 9) : Bool := s.runs d && s.on d k && !(s.resting d k)

/-- The die takes and sends frames of its own: D6 is powered, or it stays in the boot ROM, from where it still answers PING and FAULT_READ
(R17, R295). -/
def linked (s : Chip) (d : Die) : Bool := s.on d 6 || (s.die d).boot.stuck

/-- Die `n` is alive in the copy of MOD:TOPOLOGY that die `d` holds (R18, R31). -/
def alive (s : Chip) (d n : Die) : Bool := (s.get d MOD_TOPOLOGY MOD_TOPOLOGY.ALIVE).testBit n.val

/-- The module master as die `d` knows it (R18, MOD:TOPOLOGY.MASTER). -/
def master (s : Chip) (d : Die) : Die := Fin.ofNat 8 (s.get d MOD_TOPOLOGY MOD_TOPOLOGY.MASTER)

/-- The lowest-numbered die alive as die `d` knows it, which the role of master falls to (R18). -/
def lowestLive (s : Chip) (d : Die) : Die := (allDies.find? (s.alive d)).getD 0

/-- The dies that are fitted, powered and alive. -/
def liveDies (s : Chip) : List Die := allDies.filter fun d => s.fitted d && s.on d 0 && s.alive d d

/-- A field of a module-common register set in every powered die (R21). -/
def putAll (s : Chip) (a : Nat) (f : Fld) (v : Nat) : Chip :=
  s.each (allDies.filter fun d => s.on d 0) fun d s => s.put d a f v

/-- The ring address of the module; 0 where it has none (R33). -/
def address (s : Chip) (d : Die) : Nat := s.get d MOD_TOPOLOGY MOD_TOPOLOGY.ADDRESS

/-- The module acts as Ring Head (R34). -/
def isHead (s : Chip) (d : Die) : Bool := s.bit d MOD_TOPOLOGY MOD_TOPOLOGY.HEAD

/-- The stroke number of die `d`. -/
def stroke (s : Chip) (d : Die) : Nat := (s.die d).time.stroke.toNat

/-- The line stroke, 0 to 3 (R41). -/
def lineStroke (s : Chip) (d : Die) : Nat := s.stroke d % 4

/-- A function is in host-assisted mode (R39). -/
def mode (s : Chip) (d : Die) (f : Fld) : Bool := s.bit d FOL_MODENOW f

/-- Connected cells of the die (R296). -/
def cells (s : Chip) (d : Die) : Nat := s.get d CFE_CONFIG CFE_CONFIG.CELLS

/-! ### Own frames and events -/

/-- The next SEQ of a frame type, and the module after it is used (R246). -/
def takeSeq (s : Chip) (d : Die) (t : Nat) : Nat × Chip :=
  let q := (s.die d).ring.seqNext.getD t 0
  (q, s.upd d fun x => { x with ring := { x.ring with seqNext := x.ring.seqNext.set t ((q + 1) % 65536) } })

/-- A frame queued for insertion by die `d`. -/
def enqueue (s : Chip) (d : Die) (f : Frame) : Chip :=
  s.upd d fun x => { x with ring := { x.ring with queue := x.ring.queue ++ [f] } }

/-- A frame of a type that carries its own counter, originated by die `d` toward the host bridge. A module originates
no frame while its address is 0 (R244). -/
def originate (s : Chip) (d : Die) (t : Nat) (payload : List Byte) (a b : Bool) : Chip :=
  if s.address d = 0 then s else
    let q := s.takeSeq d t
    q.2.enqueue d ⟨t, 0, 0, 0, s.address d, d.val, 0, q.1, payload, a, b⟩

/-- A STREAM frame put into the die's stream buffer, with or without an address; its SMOD is set when it is inserted (R89). -/
def stream (s : Chip) (d : Die) (payload : List Byte) (a b : Bool) : Chip :=
  let q := s.takeSeq d 4
  q.2.enqueue d ⟨4, 0, 0, 0, s.address d, d.val, 0, q.1, payload, a, b⟩

/-- An EVENT frame on both rings (R250): CODE, the stroke at which the event arose, and its body. The boot ROM of a die that it keeps sends
none (R360). -/
def event (s : Chip) (d : Die) (code : Nat) (body : List Byte) : Chip :=
  if (s.die d).boot.stuck then s else s.originate d 5 (leBytes 2 code ++ leBytes 6 (s.stroke d) ++ body) true true

/-! ### Reports to the fault collector -/

/-- A checker reports an event of a source; the collector takes it in its next window (R360). -/
def report (s : Chip) (d : Die) (src : Nat) : Chip :=
  s.upd d fun x => { x with fcol := { x.fcol with reports := x.fcol.reports ++ [src] } }

/-- A checker shows the cause of a source as present or gone. -/
def cause (s : Chip) (d : Die) (src : Nat) (b : Bool) : Chip :=
  s.upd d fun x => { x with fcol := { x.fcol with
    present := if b then (if src ∈ x.fcol.present then x.fcol.present else src :: x.fcol.present)
               else x.fcol.present.filter (· != src) } }

/-- A cause appears: it is present, and the source has fired in this stroke (R360). -/
def raise (s : Chip) (d : Die) (src : Nat) : Chip := (s.cause d src true).report d src

/-- The sticky bit of a source. -/
def sticky (s : Chip) (d : Die) (src : Nat) : Bool := (s.reg d (FCOL_STK (src / 32))).getLsbD (src % 32)

/-- The live bit of a source. -/
def live (s : Chip) (d : Die) (src : Nat) : Bool := (s.reg d (FCOL_LIVE (src / 32))).getLsbD (src % 32)

/-- A UC isolation is in force. -/
def isolated (s : Chip) (d : Die) (src : Nat) : Bool := (s.die d).fcol.isolated.contains src

/-- The actions of the safe state are in force (R362). -/
def safeActs (s : Chip) (d : Die) : Bool := s.bit d CXS_STATUS CXS_STATUS.SAFE

/-- The die is in its safe state (R362). -/
def isSafe (s : Chip) (d : Die) : Bool := s.get d FCOL_STATE FCOL_STATE.STATE == 2

/-- The samples of the die are supply-degraded (R407). -/
def degraded (s : Chip) (d : Die) : Bool := s.bit d PWR_STATE PWR_STATE.DIP

end Chip

/-- A command's effect on everything but the queue. -/
def State.run (s : State) (f : Chip → Chip) : Host.Outcome State Fault Refusal := .next { s with chip := f s.chip }

end Sys2Proof.Machine
end

