-- ==== Sys2Proof/Machine/Flags.lean ====
section
/-! DEFINITION. The flags of the fault collector: class and live bit of every source, the sticky bits, the counting
windows and the die fault state (chapter Faults, Safety Mechanisms and Blot Snapshots). -/
namespace Sys2Proof.Machine

/-- The classes of Table 14.1. -/
inductive SrcClass where
  | corrected | contained | fatal | counting | unassigned
  deriving DecidableEq, Repr

/-- The class of a source (Table 14.3, R371). -/
def srcClass (n : Nat) : SrcClass :=
  if n < 32 then .fatal
  else if n ≤ 48 then .contained
  else if n ≤ 65 then .corrected
  else if n ≤ 83 then .contained
  else if n ≤ 107 then .fatal
  else if n ∈ [110, 112, 114, 119, 151, 163, 164, 166, 167] then .fatal
  else if n ∈ [109, 118, 120, 121, 122, 123, 132, 133, 140, 141, 142, 160, 161] then .counting
  else if n ∈ [111, 117, 124, 125, 136, 137, 143, 144, 145, 147, 148, 149, 154, 156, 159, 162, 165] then .corrected
  else if n < 168 then .contained
  else .unassigned

/-- The sources marked P in Table 14.3, whose reactions are taken in both fault-reaction modes. -/
def srcP (n : Nat) : Bool := n < 32 || n == 110 || n == 127 || n == 128 || n == 129

/-- The counting sources in the order k = 0 to 12 of Table 14.2. -/
def countSources : List Nat := [109, 118, 120, 121, 122, 123, 132, 133, 140, 141, 142, 160, 161]

/-- The index k of a counting source. -/
def countIndex (n : Nat) : Option Nat := countSources.findIdx? (· == n)

/-- The sources without a live bit (the Live column of Table 14.3 is a dash). -/
def noLive (n : Nat) : Bool :=
  (84 ≤ n && n ≤ 107) || (147 ≤ n && n ≤ 154) || (165 ≤ n)
    || [111, 112, 116, 124, 125, 136, 137, 143, 144, 145, 156, 158, 159, 162].contains n

/-- The sources whose Reaction column names a release of its own chapter (R368). -/
def ownRelease (n : Nat) : Bool :=
  (32 ≤ n && n ≤ 83) || (120 ≤ n && n ≤ 123) || [113, 126, 127, 128, 129, 130, 131, 134, 135, 138, 139, 146, 150,
    152, 153, 155, 157].contains n

namespace Chip

/-- The junction sensors that are EXCLUDED (R321: state 2). -/
def excludedSensors (s : Chip) (d : Die) : Nat :=
  ([0, 1, 2, 3, 4].filter fun i => s.get d (THM_SEST i) THM_SEST.STATE == 2).length

/-- Whether the cause of a source is present, by the Live column of Table 14.3; a counting source shows its severe
state. -/
def liveNow (s : Chip) (d : Die) (n : Nat) : Bool :=
  if n < 16 then (s.get d SHD_STATUS SHD_STATUS.OV_LIVE).testBit n
  else if n < 32 then (s.get d SHD_STATUS SHD_STATUS.UV_LIVE).testBit (n - 16)
  else if n ≤ 48 then s.get d (OWD_WIRE (n - 32)) OWD_WIRE.VERDICT == 2
  else if n ≤ 65 then s.get d (OWD_WIRE (n - 49)) OWD_WIRE.VERDICT == 3
  else if n = 108 then s.bit d OWD_SUMCHK OWD_SUMCHK.LIVE
  else if n = 113 then s.get d EIS_ZT_DEV EIS_ZT_DEV.DEV != 0
  else if n = 114 then s.reg d THM_CELLSTAT != 0 || s.bit d THM_OTSTAT THM_OTSTAT.UNASSOC
  else if n = 115 then s.get d THM_OTSTAT THM_OTSTAT.AUXHOT != 0
  else if n = 117 then s.bit d CXS_LEVSTAT CXS_LEVSTAT.HEADROOM
  else if n = 119 then s.bit d PWR_SUPPLY PWR_SUPPLY.OVLIVE
  else if n = 126 then s.excludedSensors d != 0
  else if n = 127 then 3 ≤ s.excludedSensors d
  else if n = 128 then s.bit d THM_STAT THM_STAT.HOLD
  else if n = 129 then s.bit d THM_STAT THM_STAT.CUT
  else if n = 130 then s.bit d (QLN_STAT 0) QLN_STAT.SHORT
  else if n = 131 then s.bit d (QLN_STAT 1) QLN_STAT.SHORT
  else if n = 134 then s.get d NIB_COUNT NIB_COUNT.LOST != 0
  else if n = 135 then s.get d NIB_COUNT NIB_COUNT.EXCL != 0
  else if n = 146 then !(allDies.all fun k => !(s.fitted k) || s.alive d k)
  else if n = 155 then s.get d CMD_STAT CMD_STAT.FWSTATE == 4 && s.get d LCY_STATE LCY_STATE.STATE != 4
  else match countIndex n with
    | some k => s.bit d (FCOL_CNTSTAT k) FCOL_CNTSTAT.SEVERE
    | none   => !(noLive n) && (s.die d).fcol.present.contains n

/-- The field of the event counter of a source (Table 14.11). -/
def evField (n : Nat) : Fld := ⟨8 * (n % 4), 8⟩

/-- The sticky bit of a source set. -/
def setSticky (s : Chip) (d : Die) (n : Nat) : Chip := s.put d (FCOL_STK (n / 32)) ⟨n % 32, 1⟩ 1

/-- The settings in force of counting source k: N (0 acts as 1), W and the mapped class Fatal (R365, R366). -/
def countN (s : Chip) (d : Die) (k : Nat) : Nat := max 1 (FCOL_CNTCFG.N.read ((s.die d).fcol.cfgNow.getD k 0))
def countW (s : Chip) (d : Die) (k : Nat) : Nat := FCOL_CNTCFG.W_M1.read ((s.die d).fcol.cfgNow.getD k 0) + 1
def countFatal (s : Chip) (d : Die) (k : Nat) : Bool := FCOL_CNTCFG.SEVCLASS.read ((s.die d).fcol.cfgNow.getD k 0) == 1

/-- The events of counting source k in its window: the running page and the W − 1 pages before it (R365). -/
def windowCount (s : Chip) (d : Die) (k : Nat) : Nat :=
  (((s.die d).fcol.windows.getD k []).take (s.countW d k)).foldl (· + ·) 0

/-- Whether counting source k is severe. -/
def severe (s : Chip) (d : Die) (k : Nat) : Bool := s.bit d (FCOL_CNTSTAT k) FCOL_CNTSTAT.SEVERE

/-- The number of a counting source's window set to empty, and its count to 0. -/
def emptyWindow (s : Chip) (d : Die) (k : Nat) : Chip :=
  (s.upd d fun x => { x with fcol := { x.fcol with windows := x.fcol.windows.set k [0] } }).put d (FCOL_CNTSTAT k)
    FCOL_CNTSTAT.COUNT 0

/-- The end of a severe state (R366). -/
def endSevere (s : Chip) (d : Die) (k : Nat) : Chip := (s.emptyWindow d k).put d (FCOL_CNTSTAT k) FCOL_CNTSTAT.SEVERE 0

/-- Sticky bits cleared by software: word w, the bits of `mask` (R367). A counting source's severe state ends and its
window empties (R366). -/
def clearSticky (s : Chip) (d : Die) (w : Nat) (mask : Word) : Chip :=
  ((List.range 13).filter fun k => countSources.getD k 0 / 32 == w && mask.getLsbD (countSources.getD k 0 % 32)).foldl
    (fun s k => s.endSevere d k) (s.setReg d (FCOL_STK w) (s.reg d (FCOL_STK w) &&& ~~~ mask))

/-- A source of class UC, or a counting source mapped to UC that is severe, holds the die at CONTAINED (R363). -/
def containedNow (s : Chip) (d : Die) : Bool :=
  ((List.range 168).any fun n => srcClass n == .contained && s.sticky d n)
    || (List.range 13).any fun k => s.severe d k && !(s.countFatal d k)

/-- The lowest source that keeps RESUME from being accepted (R369): a Fatal source with its sticky or live bit set, or a
severe counting source mapped to Fatal. -/
def resumeBlocker (s : Chip) (d : Die) : Option Nat :=
  (List.range 168).find? fun n =>
    (srcClass n == .fatal && (s.sticky d n || s.live d n))
      || (match countIndex n with | some k => s.severe d k && s.countFatal d k | none => false)

/-- The body of a FAULT EVENT (Table 14.5). -/
def faultEvent (s : Chip) (d : Die) (src kind : Nat) : Chip :=
  let die := kind == 4 || kind == 5 || kind == 7 || kind == 8
  s.event d 0x0100
    (leBytes 1 (if die then 0xFF else src) ++ leBytes 1 kind ++ leBytes 1 (s.reg d FCOL_STATE).toNat
      ++ leBytes 1 (if die then 0 else s.get d (FCOL_EVCNT (src / 4)) (evField src))
      ++ leBytes 4 (if die then 0 else (s.reg d (FCOL_LIVE (src / 32))).toNat))

/-- The FAULT EVENT of a change of the die fault state (R360, kinds 4, 5, 7 and 8); none for an entry to BOOTFAIL. -/
def stateEvent (s : Chip) (d : Die) (old new : Nat) : Chip :=
  if old = new ∨ new = 3 then s
  else if new = 2 then s.faultEvent d 0xFF 4
  else if old = 2 then s.faultEvent d 0xFF 5
  else if new = 1 then s.faultEvent d 0xFF 7
  else s.faultEvent d 0xFF 8

/-- The die fault state moved to `v`, with the FAULT EVENT of the change. -/
def setFaultState (s : Chip) (d : Die) (v : Nat) : Chip :=
  (s.put d FCOL_STATE FCOL_STATE.STATE v).stateEvent d (s.get d FCOL_STATE FCOL_STATE.STATE) v

/-- An injection of a checker of Table 14.4 is armed. -/
def injected (s : Chip) (d : Die) (checker : Nat) : Bool :=
  s.get d FCOL_INJ FCOL_INJ.ARMED == checker && s.get d FCOL_INJ FCOL_INJ.REMAIN != 0

/-- One armed check has run: the count that remains falls (R377). -/
def useInjection (s : Chip) (d : Die) : Chip :=
  let r := s.get d FCOL_INJ FCOL_INJ.REMAIN - 1
  ((s.put d FCOL_INJ FCOL_INJ.REMAIN r).cond (r == 0) fun s => s.put d FCOL_INJ FCOL_INJ.ARMED 0).putB d FCOL_STATE
    FCOL_STATE.INJ (r != 0)

/-- A trigger of a blot at die `d`: a bit of Table 14.8 joins the mask taken within the latch delay (R30, R382); the first sets
the MCLK cycle. An engine capture counts where CAP_EN lets it. -/
def trigger (s : Chip) (d : Die) (bitNo cycle : Nat) : Chip :=
  if bitNo = 3 ∧ !(s.bit d MOD_SNAP_CFG MOD_SNAP_CFG.CAP_EN) then s else
  s.upd d fun x => { x with snap := { x.snap with
    trig := x.snap.trig ||| 2 ^ bitNo, cycle := if x.snap.trig = 0 then cycle else x.snap.cycle
    stroke := if x.snap.trig = 0 then s.stroke d else x.snap.stroke } }

/-- The logic partition that a self-test slice tests in this stroke's BIST window, MCLK cycles 320 to 909 (R412, R414, R418). -/
def slicing (s : Chip) (d : Die) : Option Nat :=
  if !(s.runsOn d 8 && s.stroke d % 32 == 2 && s.get d PWR_STATE PWR_STATE.STATE == 0) then none else
  match (s.die d).bist.run with
  | some r => r.parts.head?
  | none => if s.bit d BIST_CFG BIST_CFG.PERIODIC then some (s.get d BIST_STAT BIST_STAT.PART) else none

/-- SD0 drives FAULT_N from the conditions of R370. -/
def driveFaultN (s : Chip) : Chip :=
  let die := fun d => s.on d 0 && (2 ≤ s.get d FCOL_STATE FCOL_STATE.STATE)
  let low := die 0 || !(s.mod.orders.isEmpty)
    || !(allDies.all fun k => !(s.fitted k) || s.alive 0 k)
    || !(allDies.all fun k => !(s.fitted k) || (s.die k).boot.done)
    || (allDies.any fun k => s.fitted k && (s.die k).boot.stuck)
  (({ s with mod := { s.mod with faultLow := low } } : Chip)).each (allDies.filter fun d => s.on d 0) fun d s =>
    s.putB d MOD_FCOL_SUM MOD_FCOL_SUM.FAULTN low

/-- A die's indication follows its fault state: SD0 drives FAULT_N, another die sends its fault order or ends it (R27, R370). -/
def showFaultOrder (s : Chip) (d : Die) : Chip :=
  if d.val = 0 then s.driveFaultN
  else s.upd d fun x => { x with ring := { x.ring with orderSent := decide (2 ≤ s.get d FCOL_STATE FCOL_STATE.STATE) || s.liveNow d 146 } }

/-- A die's fault order sent directly, whatever its fault state (R374): at SD0 FAULT_N falls. -/
def directOrder (s : Chip) (d : Die) : Chip :=
  if d.val = 0 then
    (({ s with mod := { s.mod with faultLow := true } } : Chip)).each (allDies.filter fun d => s.on d 0) fun d s =>
      s.putB d MOD_FCOL_SUM MOD_FCOL_SUM.FAULTN true
  else s.upd d fun x => { x with ring := { x.ring with orderSent := true } }

end Chip

end Sys2Proof.Machine
end

