-- ==== Sys2Proof/Machine/Fault.lean ====
section
/-! DEFINITION. The fault collector at work: the evaluation of every source in the FCOL window, its windows, the lifting
of isolations, RESUME, the clock monitor, and the register writes of block FCOL (chapter Faults, Safety Mechanisms and
Blot Snapshots). -/
namespace Sys2Proof.Machine

namespace Chip

/-- The events of a source since the last evaluation (R360): rises of its live bit, or one for each report of a source
without a live bit and of a counting source. -/
def sourceEvents (s : Chip) (d : Die) (n : Nat) : Nat :=
  let r := (s.die d).fcol.reports.count n
  if noLive n || (countIndex n).isSome then r
  else if (s.liveNow d n || r != 0) && !(s.live d n) then 1 else 0

/-- The event counter, the sticky bit and, for a counting source, the count of the running page take the events of a
source (R360, R365). A sticky bit whose cause is still present is restored without an event (R367). -/
def countEvents (s : Chip) (d : Die) (n ev : Nat) (present : Bool) : Chip :=
  let t := (s.cond (ev != 0) fun s => s.inc d (FCOL_EVCNT (n / 4)) (evField n) ev).cond
    (ev != 0 || (present && (countIndex n).isNone)) fun s => s.setSticky d n
  match countIndex n with
  | none   => t
  | some k =>
    let page : List Nat → List Nat := fun w => match w with | [] => [ev] | p :: rest => (p + ev) :: rest
    let u := t.upd d fun x =>
      { x with fcol := { x.fcol with windows := x.fcol.windows.set k (page (x.fcol.windows.getD k [])) } }
    u.putSat d (FCOL_CNTSTAT k) FCOL_CNTSTAT.COUNT (u.windowCount d k)

/-- Counting source k becomes severe where its count reaches N (R365). -/
def escalate (s : Chip) (d : Die) (k : Nat) : Chip :=
  s.cond (s.countN d k ≤ s.windowCount d k) fun s => s.put d (FCOL_CNTSTAT k) FCOL_CNTSTAT.SEVERE 1

/-- The live bits as the causes stand (R359). -/
def refreshLive (s : Chip) (d : Die) : Chip :=
  s.each (List.range 168) fun n t => t.put d (FCOL_LIVE (n / 32)) ⟨n % 32, 1⟩ (if !(noLive n) && t.liveNow d n then 1 else 0)

/-- Whether a blot is triggered by what an evaluation raised (Table 14.8, bit 2): the classes that FAULTLVL chooses. -/
def faultTriggers (lvl : Nat) (fatal contained first severe severeFatal : Bool) : Bool :=
  (1 ≤ lvl && (fatal || severeFatal)) || (2 ≤ lvl && (contained || severe)) || (lvl == 3 && first)

/-- FCOL_EVALUATION (R360 to R365, R370, R374, R378): every source is evaluated, the fault state follows, the reactions
are kept for the next stroke edge, and FAULT_N or the fault order follows the state. `parityOk` and `readbackOk` are
the collector's checks of its stores and, on SD0, of the pin. A Fatal event after an accepted RESUME keeps the die SAFE, and needs another
RESUME (DEDUCED from R363: SAFE lasts from a Fatal event until an accepted RESUME). -/
def fcolEvaluation (d : Die) (parityOk readbackOk : Bool) (s : Chip) : Chip :=
  if !(s.fitted d && s.on d 0 && (s.die d).pwr.mclk) then s else
  let s := if parityOk && (readbackOk || d.val != 0) then s else s.report d 164
  let host := s.mode d FOL_MODENOW.FREACT
  let old := s.get d FCOL_STATE FCOL_STATE.STATE
  let bad := !(parityOk && (readbackOk || d.val != 0))
  let evs := (List.range 168).map fun n => (n, s.sourceEvents d n, s.liveNow d n || (n == 164 && bad))
  let fired := (evs.filter fun e => e.2.1 != 0).map (·.1)
  let rises := fired.filter fun n => !(s.sticky d n)
  let t := s.each evs fun e t => t.countEvents d e.1 e.2.1 e.2.2
  let u := (t.each (List.range 13) fun k t => t.escalate d k).refreshLive d |>.cond bad fun t => t.put d (FCOL_LIVE 5) ⟨4, 1⟩ 1
  let severe := (List.range 13).filter fun k => u.severe d k && !(s.severe d k)
  let fatals := (fired.filter fun n => srcClass n == .fatal)
    ++ (severe.filter fun k => s.countFatal d k).map fun k => countSources.getD k 0
  let ucs := (fired.filter fun n => srcClass n == .contained)
    ++ (severe.filter fun k => !(s.countFatal d k)).map fun k => countSources.getD k 0
  let acts := fatals.any fun n => !host || srcP n
  let taken := ucs.filter fun n => !host || srcP n
  let withheld := host && ((fatals ++ ucs).any fun n => !(srcP n))
  let state := if old = 3 ∨ 166 ∈ fatals ∨ 167 ∈ fatals then 3
    else if old = 2 ∨ fatals ≠ [] then 2
    else if u.containedNow d then 1 else 0
  let v := ((u.put d FCOL_STATE FCOL_STATE.STATE state).putB d FCOL_STATE FCOL_STATE.LATENT (u.severe d 12)).cond withheld
    fun s => s.put d FCOL_STATE FCOL_STATE.HOSTREACT 1
  let v := v.upd d fun x => { x with fcol := { x.fcol with
    reports := [], react := x.fcol.react ++ taken, safeDue := x.fcol.safeDue || acts, resume := x.fcol.resume && fatals.isEmpty } }
  let v := v.cond (2 ≤ state) fun s => s.put d ULK_RING ULK_RING.TONE_PASS 0
  let v := (v.each rises fun n s => match srcClass n with
      | .contained => s.faultEvent d n 1
      | .fatal     => s.faultEvent d n 2
      | .counting  => s.faultEvent d n 6
      | _          => s).each severe fun k s => s.faultEvent d (countSources.getD k 0) 3
  let v := v.stateEvent d old state
  let v := v.cond (faultTriggers (s.get d MOD_SNAP_CFG MOD_SNAP_CFG.FAULTLVL)
      (rises.any fun n => srcClass n == .fatal) (rises.any fun n => srcClass n == .contained)
      (rises.any fun n => srcClass n == .counting) (severe != []) (severe.any fun k => s.countFatal d k))
    fun s => (s.trigger d 2 (960 + Config.freeNat s.free % 32)).draw
  let sum := fun (s : Chip) (f : Fld) (b : Bool) => s.put d MOD_FCOL_SUM ⟨f.lo + d.val, 1⟩ b.toNat
  let v := sum (sum (sum v MOD_FCOL_SUM.SAFE (2 ≤ state)) MOD_FCOL_SUM.CONTAINED (state == 1)) MOD_FCOL_SUM.SEVERE
    ((List.range 13).any fun k => v.severe d k)
  let some_ := fun f => v.liveDies.any fun k => v.bit k FCOL_STATE f
  let v := (v.putB d MOD_FCOL_SUM MOD_FCOL_SUM.INJ (some_ FCOL_STATE.INJ)).putB d MOD_FCOL_SUM MOD_FCOL_SUM.LATENT
    (some_ FCOL_STATE.LATENT)
  let v := v.putB d MOD_FCOL_SUM MOD_FCOL_SUM.DIELOST (v.liveNow d 146)
  v.showFaultOrder d

/-- COUNT_WINDOW_ROLL (R365, R366): at a page boundary a new page opens in each window, of which 256 are kept, and
settings written since the last boundary come into force on an empty window. -/
def rollWindows (d : Die) (s : Chip) : Chip :=
  let t := s.each (s.die d).fcol.cfgPend fun k s =>
    (s.upd d fun x => { x with fcol := { x.fcol with cfgNow := x.fcol.cfgNow.set k (s.reg d (FCOL_CNTCFG k)) } }).emptyWindow d k
  let u := t.upd d fun x => { x with fcol := { x.fcol with
    cfgPend := [], windows := x.fcol.windows.map fun w => (0 :: w).take 256 } }
  u.each (List.range 13) fun k s => s.putSat d (FCOL_CNTSTAT k) FCOL_CNTSTAT.COUNT (s.windowCount d k)

/-- A request for RESUME (R369): the lowest source that stands against it, or acceptance at the next line boundary. -/
def requestResume (s : Chip) (d : Die) : Chip :=
  if s.get d FCOL_STATE FCOL_STATE.STATE = 3 ∨ (s.resumeBlocker d).isSome then s
  else s.upd d fun x => { x with fcol := { x.fcol with resume := true } }

/-- A write of FCOL_INJ (R377): checker 0x01 to 0x0D with a count arms; COUNT = 0 cancels. Nothing is armed in RETIRED
or for a checker that Table 14.4 does not list. -/
def armInjection (s : Chip) (d : Die) (checker count : Nat) : Chip :=
  if s.get d LCY_STATE LCY_STATE.STATE = 4 then s
  else if count = 0 then
    ((s.put d FCOL_INJ FCOL_INJ.ARMED 0).put d FCOL_INJ FCOL_INJ.REMAIN 0).put d FCOL_STATE FCOL_STATE.INJ 0
  else if 1 ≤ checker ∧ checker ≤ 0x0D then
    ((s.put d FCOL_INJ FCOL_INJ.ARMED checker).put d FCOL_INJ FCOL_INJ.REMAIN count).put d FCOL_STATE FCOL_STATE.INJ 1
  else s

/-- All event counters cleared (Table 14.12, EVCLR). -/
def clearEventCounters (s : Chip) (d : Die) : Chip := s.each (List.range 64) fun w s => s.setReg d (FCOL_EVCNT w) 0

end Chip

/-- FCOL_EVALUATION (R360). -/
def execFcolEvaluation (d : Die) (parityOk readbackOk : Bool) (s : State) : Host.Outcome State Fault Refusal :=
  s.run (Chip.fcolEvaluation d parityOk readbackOk)

/-- UC_ISOLATION_LIFT (R368): at a line boundary the isolations end whose sticky bit is cleared and live bit is 0, but
for those with a release of their own chapter. -/
def execUcIsolationLift (d : Die) (s : State) : Host.Outcome State Fault Refusal :=
  s.run fun c => if c.runs d && c.lineStroke d == 0 then
      let stays := (c.die d).fcol.isolated.filter fun n => ownRelease n || c.sticky d n || c.live d n
      c.upd d fun x => { x with fcol := { x.fcol with isolated := stays } }
    else c

/-- RESUME_APPLY (R369): an accepted RESUME acts at the line boundary: the state becomes NORMAL or CONTAINED, the safe
state's actions end, an EVENT of kind 5 is sent, and the fault order or FAULT_N follows (R370). -/
def execResumeApply (d : Die) (s : State) : Host.Outcome State Fault Refusal :=
  s.run fun c => if c.runs d && c.lineStroke d == 0 && (c.die d).fcol.resume then
      let t := c.upd d fun x => { x with fcol := { x.fcol with resume := false } }
      let u := (t.put d CXS_STATUS CXS_STATUS.SAFE 0).put d FCOL_STATE FCOL_STATE.HOSTREACT 0
      if c.isSafe d then (u.setFaultState d (if c.containedNow d then 1 else 0)).showFaultOrder d else u
    else c

/-- CLOCK_MONITOR_CHECK (R373): every 16 lines. A count outside 64,000 ± 2.5% in 2 consecutive checks, or an LF
oscillator that gives no cycle within 2 lines, raises source 163; its live bit clears after 4 good checks. -/
def execClockMonitorCheck (d : Die) (count : Nat) (lfAlive : Bool) (s : State) : Host.Outcome State Fault Refusal :=
  s.run fun c => if c.runs d then
      let good := lfAlive && decide (62400 ≤ count) && decide (count ≤ 65600)
      let bad := if good then 0 else (c.die d).fcol.clkBad + 1
      let run := if good then (c.die d).fcol.clkGood + 1 else 0
      let t := c.upd d fun x => { x with fcol := { x.fcol with clkBad := bad, clkGood := run } }
      (t.cond (decide (2 ≤ bad) || !lfAlive) fun s => if (s.die d).fcol.present.contains 163 then s else s.raise d 163).cond
        (decide (4 ≤ run)) fun s => s.cause d 163 false
    else c

/-- FCOL_STK_WRITE (R367): bits written 1 clear, and severe states of the counting sources among them end. Bits of
unassigned sources ignore the write. -/
def execFcolStkWrite (d : Die) (n : Fin 8) (w : Word) (s : State) : Host.Outcome State Fault Refusal :=
  s.run fun c => if c.on d 0 then c.clearSticky d n.val w else c

/-- RESUME (R369): a write of FCOL_CTRL.RESUME requests RESUME, refused while a Fatal cause stands. -/
def execResume (d : Die) (s : State) : Host.Outcome State Fault Refusal :=
  s.run fun c => if c.on d 0 then c.requestResume d else c

/-- EVCLR (R385): every fault event counter becomes 0. -/
def execEvclr (d : Die) (s : State) : Host.Outcome State Fault Refusal :=
  s.run fun c => if c.on d 0 then c.clearEventCounters d else c

/-- KICK (R375): the firmware watchdog's deadline starts again. -/
def execKick (d : Die) (s : State) : Host.Outcome State Fault Refusal :=
  s.run fun c => c.upd d fun x => { x with fcol := { x.fcol with kickPages := 0 } }

/-- FCOL_INJ_WRITE (R377): a checker is armed, or the count of the armed one cancelled. -/
def execFcolInjWrite (d : Die) (w : Word) (s : State) : Host.Outcome State Fault Refusal :=
  s.run fun c => if c.on d 0 then c.armInjection d (FCOL_INJ.CHECKER.read w) (FCOL_INJ.COUNT.read w) else c

end Sys2Proof.Machine
end

