-- ==== Sys2Proof/Machine/Operands.lean ====
section
/-! DEFINITION. The forms in which operands and results travel: the CRC of the check-value unit, the frame header, the
response packet, the stream payload header and the GAP record, and the parameter block of a command packet. -/
namespace Sys2Proof.Machine

/-! ### CRC (R253, R292) -/

/-- The low `w` bits of a value in reverse order. -/
def reflect : Nat → Nat → Nat
  | 0, _ => 0
  | w + 1, v => (v % 2) * 2 ^ w + reflect w (v / 2)

/-- One bit of the check-value unit (R292). -/
def crcBit (w poly reg : Nat) (b : Bool) : Nat :=
  let top := (reg.testBit (w - 1)).xor b
  let r := (reg * 2) % 2 ^ w
  if top then r ^^^ poly else r

/-- One byte of the check-value unit, bit 7 first. -/
def crcByte (w poly : Nat) (refin : Bool) (reg : Nat) (b : Byte) : Nat :=
  let v := if refin then reflect 8 b.toNat else b.toNat
  [7, 6, 5, 4, 3, 2, 1, 0].foldl (fun r i => crcBit w poly r (v.testBit i)) reg

/-- The register after the bytes of a string; the match has each value worked out before the next byte is taken. -/
def crcFold (f : Nat → Byte → Nat) : List Byte → Nat → Nat
  | [], r => r
  | b :: rest, r =>
    match f r b with
    | 0 => crcFold f rest 0
    | n + 1 => crcFold f rest (n + 1)

/-- The check value of a byte string (R292). -/
def crcOf (w poly init xorout : Nat) (refin refout : Bool) (l : List Byte) : Nat :=
  let r := crcFold (crcByte w poly refin) l init
  ((if refout then reflect w r else r) ^^^ xorout) % 2 ^ w

/-- CRC-32C (R253). -/
def crc32c (l : List Byte) : Nat := crcOf 32 0x1EDC6F41 0xFFFFFFFF 0xFFFFFFFF true true l

/-- The CRC-8 of a nib frame (Table 10.11, set 3). -/
def crc8nib (l : List Byte) : Nat := crcOf 8 0x2F 0xFF 0 false false l

/-! ### Frames (R243) -/

/-- The 96-bit header of a frame as its 12 bytes; `ringB` is the RINGB flag of the copy (R243, R245). -/
def Frame.header (f : Frame) (ringB : Bool) : List Byte :=
  leBytes 12 (f.ftype % 16 + 16 * ((f.flags % 16) ||| ringB.toNat) + 2 ^ 8 * (f.dmod % 128) + 2 ^ 15 * (f.ddie % 8)
    + 2 ^ 18 * (f.smod % 128) + 2 ^ 25 * (f.sdie % 8) + 2 ^ 28 * (f.tag % 64) + 2 ^ 34 * (f.seq % 65536)
    + 2 ^ 50 * (f.payload.length % 1024))

/-- The bytes of a copy on the wire between /S/ and the end character: header, payload, CRC (R243, R253). -/
def Frame.wire (f : Frame) (ringB : Bool) : List Byte :=
  f.header ringB ++ f.payload ++ leBytes 4 (crc32c (f.header ringB ++ f.payload))

/-- The rings a ring code of CFE_STREAMCFG names: bit 0 ring A, bit 1 ring B; 0b00 acts as 0b01 (Table 03.15). -/
def ringCode (n : Nat) : Nat := if n = 0 then 1 else n

/-- Kind I: item opcodes (Table 10.4). -/
def kindI (op : Nat) : Bool := [0x03, 0x21, 0x41, 0x42].contains op

namespace Chip

/-! ### Streams (R84, R89) -/

/-- DIEFLAGS (Table 03.8), without EXC_OVF and SPAN. A PAGE or GAP frame carries the flags of the stroke in which it is queued, not of the
page or gap it describes (DESIGN CHOICE, assumption 131). -/
def dieFlags (s : Chip) (d : Die) : Nat :=
  (s.get d ULK_PLLSTAT ULK_PLLSTAT.UNALIGNED) + 2 * (s.degraded d).toNat + 4 * s.get d ULK_STROKE_HI ULK_STROKE_HI.ESTIMATED
    + 32 * (s.mode d FOL_MODENOW.TALIGN).toNat

/-- The stream payload header (Table 03.7). -/
def streamHeader (cls sub flags stroke mask nrec nexc : Nat) : List Byte :=
  leBytes 1 (cls + 16 * sub) ++ leBytes 1 flags ++ leBytes 6 stroke ++ leBytes 2 mask ++ leBytes 1 nrec ++ leBytes 1 nexc

/-- Bytes waiting in the stream buffer: LEN + 16 for each STREAM frame (R89). -/
def streamLevel (s : Chip) (d : Die) : Nat :=
  ((s.die d).ring.queue.filter (·.ftype == 4)).foldl (fun n f => n + f.payload.length + 16) 0

/-- QLEVEL shows the level of the stream buffer. -/
def showLevel (s : Chip) (d : Die) : Chip := s.putSat d ULK_TX ULK_TX.QLEVEL (s.streamLevel d)

/-- A GAP record of a queued frame, with its bytes 12 to 17. -/
def isGap (f : Frame) : Bool := f.ftype == 4 && (f.payload.headD 0).toNat % 16 == 4

/-- The count of a GAP record that reaches a stroke, never less than it was (R89). -/
def gapCount (f : Frame) (stop : Nat) : Nat := min (max (field f.payload 12 4) (stop - field f.payload 2 6)) 0xFFFFFFFF

/-- A queued GAP record whose count extends to the end of a new interruption, with cause 0x5, the OR of both class masks, and every ring
that carries one of its classes (R83, R89). -/
def mergeGap (f : Frame) (stop mask rings : Nat) : Frame :=
  { f with
    payload := f.payload.take 12 ++ leBytes 4 (gapCount f stop) ++ [5] ++ leBytes 1 (field f.payload 17 1 ||| mask)
    ringA := f.ringA || rings.testBit 0, ringB := f.ringB || rings.testBit 1 }

/-- The last GAP record of a queue merged by a function; the queue unchanged where it holds none. -/
def mergeLast (q : List Frame) (f : Frame → Frame) : List Frame :=
  ((q.reverse.foldl (fun (acc : Bool × List Frame) x =>
    if !acc.1 && isGap x then (true, f x :: acc.2) else (acc.1, x :: acc.2)) (false, [])).2)

/-- The classes of a mask that are enabled (R83). -/
def enabledClasses (s : Chip) (d : Die) (mask : Nat) : Nat :=
  mask &&& ((s.die d).cfe.streamNow.toNat % 8)

/-- The rings that carry one of the classes of a mask (R83). -/
def classRings (s : Chip) (d : Die) (mask : Nat) : Nat :=
  let w := (s.die d).cfe.streamNow
  (if mask.testBit 0 then ringCode (CFE_STREAMCFG.FINE_RING.read w) else 0)
    ||| (if mask.testBit 1 then ringCode (CFE_STREAMCFG.LINE_RING.read w) else 0)
    ||| (if mask.testBit 2 then ringCode (CFE_STREAMCFG.PAGE_RING.read w) else 0)

/-- GAP_RECORD_QUEUE (R61, R83, R89): a record of an interruption for the classes of mask `m`. With no space even in the reserve it is merged
into the newest GAP record queued. -/
def queueGapOf (s : Chip) (d : Die) (first count cause m : Nat) : Chip :=
  if m = 0 ∨ count = 0 ∨ !(s.bit d ULK_STROKE_HI ULK_STROKE_HI.VALID) then s
  else if s.streamLevel d + 34 ≤ 2048 then
    let r := s.classRings d m
    (s.stream d (streamHeader 4 0 (s.dieFlags d) first 0 0 0 ++ leBytes 4 (min count 0xFFFFFFFF) ++ leBytes 1 cause
      ++ leBytes 1 m) (r.testBit 0) (r.testBit 1)).showLevel d
  else s.upd d fun x =>
    { x with ring := { x.ring with queue := mergeLast x.ring.queue fun f => mergeGap f (first + count) m (s.classRings d m) } }

/-- A GAP record for those of the classes of a mask that are enabled (R83). -/
def queueGap (s : Chip) (d : Die) (first count cause mask : Nat) : Chip := s.queueGapOf d first count cause (s.enabledClasses d mask)

/-- The newest STREAM frame queued is a GAP record of cause 0x5 that ends where a new drop begins or later. -/
def lastIsDrop (s : Chip) (d : Die) : Bool :=
  match ((s.die d).ring.queue.filter (·.ftype == 4)).getLast? with
  | some f => isGap f && field f.payload 16 1 == 5
  | none   => false

/-- A STREAM frame offered for insertion (R89): queued where the buffer has room outside the reserve of two GAP records,
else dropped, with a GAP record of cause 0x5, consecutive drops merged. `first` and `stop` bound the strokes it spans. A merged record
keeps its first missing stroke, also where the later frame begins earlier (DESIGN CHOICE, assumption 130). -/
def offerNow (s : Chip) (d : Die) (payload : List Byte) (rings cls first stop : Nat) : Chip :=
  if !(s.bit d ULK_STROKE_HI ULK_STROKE_HI.VALID) then s
  else if s.streamLevel d + payload.length + 16 ≤ 2048 - 68 then
    (s.stream d payload (rings.testBit 0) (rings.testBit 1)).showLevel d
  else
    let t := (s.inc d ULK_TX ULK_TX.DROPS).report d 145
    let m := s.enabledClasses d (2 ^ cls)
    if t.lastIsDrop d then if m = 0 then t else t.upd d fun x =>
      { x with ring := { x.ring with queue := mergeLast x.ring.queue fun f => mergeGap f stop m (s.classRings d m) } }
    else t.queueGap d first (stop - first) 5 (2 ^ cls)

/-- A STREAM frame that has become due: offered at once, or one stroke later where its stroke holds a slice of the assembler's partition
(R412, Table 16.1). -/
def offerStream (s : Chip) (d : Die) (payload : List Byte) (rings cls first stop : Nat) : Chip :=
  if s.slicing d = some 6 then s.upd d fun x => { x with ring := { x.ring with late := x.ring.late ++ [⟨payload, rings, cls, first, stop⟩] } }
  else s.offerNow d payload rings cls first stop

/-- The frames put off by a slice are offered (R412). -/
def offerLate (d : Die) (s : Chip) : Chip :=
  (s.upd d fun x => { x with ring := { x.ring with late := [] } }).each (s.die d).ring.late fun f s =>
    s.offerNow d f.payload f.rings f.cls f.first f.stop

/-- The exception entries of a frame's records, in record and then channel order (R86). -/
def exceptions (recs : List StreamRec) : List Byte :=
  (((List.range recs.length).zip recs).map fun r =>
    (r.2.filter fun x => x.2.2 != 0).map fun x => leBytes 1 (x.1 + 32 * r.1) ++ leBytes 1 x.2.2).flatten.flatten

/-- The payload of a FINE or LINE frame (R86, R87): header, records, and exception entries as far as 512 bytes allow. -/
def openPayload (f : OpenFrame) (cls : Nat) : List Byte :=
  let recs := (f.recs.map fun r => (r.map fun x => leBytes 3 x.2.1).flatten).flatten
  let exc := exceptions f.recs
  let room := (512 - 12 - recs.length) / 2 * 2
  let past := decide (room < exc.length)
  streamHeader cls f.sub (f.dieflags + 8 * past.toNat) f.first f.cellmask f.recs.length ((exc.take room).length / 2)
    ++ recs ++ exc.take room

/-- The open FINE (class 1) or LINE (class 2) frame ends and is offered (R85). -/
def closeFrame (s : Chip) (d : Die) (cls : Nat) : Chip :=
  let x := s.die d
  match (if cls = 1 then x.cfe.fineOpen else x.cfe.lineOpen) with
  | none => s
  | some f =>
    let t := s.upd d fun x => if cls = 1 then { x with cfe := { x.cfe with fineOpen := none } }
      else { x with cfe := { x.cfe with lineOpen := none } }
    let step := if cls = 1 then 1 else 4 * 2 ^ f.sub
    if f.recs.isEmpty then t else t.offerStream d (openPayload f cls) f.rings (cls - 1) f.first (f.first + step * f.recs.length)

/-- The classes whose stamps an interruption covers: FINE, and LINE or PAGE where the range holds a line or a page
boundary (DEDUCED from Example 15.1). -/
def gapClasses (first count : Nat) : Nat :=
  1 + (if (first + 3) / 4 * 4 < first + count then 2 else 0) + (if (first + 1023) / 1024 * 1024 < first + count then 4 else 0)

/-- The lines that hold the readings of an open-wire test (R103). -/
def readingLines (t : OwdTest) : List Nat := if t.all then [t.line, t.line + 1, t.line + 4] else [t.line + 1, t.line + 2, t.line + 5]

/-- A supply-degraded stroke spoils the step stage that runs (R112). -/
def stepSpoil (s : Chip) (d : Die) : Chip :=
  if (s.die d).owd.step.isSome then s.upd d fun x => { x with owd := { x.owd with spoilt := true } } else s

/-- A line that carries SUPPLY_DEGRADED, or that a time step discards, spoils the test that has a reading in it (R103). The lines are
those of the strokes `first` to `first + count − 1`. -/
def owdSpoil (s : Chip) (d : Die) (first count : Nat) : Chip :=
  let hit := (s.die d).owd.test.any fun t =>
    !t.judged && (readingLines t).any fun l => decide (first / 4 ≤ l) && decide (l < (first + count + 3) / 4)
  if hit then s.upd d fun x => { x with owd := { x.owd with spoilt := true } } else s

/-- An interruption of the die's samples in the classes of mask `m` (R61): their open frames end early (R85), and its GAP
record is queued. -/
def gapOf (s : Chip) (d : Die) (first count cause m : Nat) : Chip :=
  if count = 0 then s else
    (((s.owdSpoil d first count).closeFrame d 1).cond (m.testBit 1) fun s => s.closeFrame d 2).queueGap d first count cause m

/-- An interruption of the die's samples in the classes whose stamps it covers (R61). -/
def gap (s : Chip) (d : Die) (first count cause : Nat) : Chip := s.gapOf d first count cause (gapClasses first count)

/-! ### Responses (R269) -/

/-- An RSP frame to the source of a command (R246, R269). `die` is the die the command addressed. -/
def respond (s : Chip) (d die : Die) (smod tag seq opcode status detail mask : Nat) (results : List Byte) : Chip :=
  if s.address d = 0 then s else
    s.enqueue d ⟨3, 0, smod, 0, s.address d, die.val, tag, seq,
      leBytes 1 opcode ++ leBytes 1 status ++ leBytes 2 (s.get d MOD_SESSION MOD_SESSION.SESSION) ++ leBytes 2 detail
        ++ leBytes 1 mask ++ [0] ++ (if results = [] ∧ 0x02 < status ∧ kindI opcode then [0] else results), true, true⟩

end Chip

/-! ### The parameter block of a packet (Table 10.1) -/

/-- The opcode, the flags, the session, the expiry and the parameters of a packet. -/
def pktOpcode (p : List Byte) : Nat := field p 0 1
def pktFlags (p : List Byte) : Nat := field p 1 1
def pktSession (p : List Byte) : Nat := field p 2 2
def pktExpiry (p : List Byte) : Nat := field p 4 4
def pktParams (p : List Byte) : List Byte := p.drop 8

/-- The byte, 16-bit and 32-bit values of a parameter block at an offset (R5). -/
def p8 (q : List Byte) (i : Nat) : Nat := field q i 1
def p16 (q : List Byte) (i : Nat) : Nat := field q i 2
def p32 (q : List Byte) (i : Nat) : Nat := field q i 4

/-- `n` register words of a parameter block from an offset. -/
def pWords (q : List Byte) (off n : Nat) : List Word := (List.range n).map fun i => BitVec.ofNat 32 (p32 q (off + 4 * i))

end Sys2Proof.Machine
end

