-- ==== Sys2Proof/Machine/Time.lean ====
section
/-! DEFINITION. Ring time: beacons, the PLL, time steps, the Ring Head's role, and the stroke number as software reads it
(chapters Stack Architecture and Strokes, Lines, Pages and Ring Time). -/
namespace Sys2Proof.Machine

/-- The lane that frames of a ring leave by is occupied by an insertion; the frames held behind it; what it sends. -/
def RingX.busy (r : RingX) : Port → Bool
  | .a => r.busyUp
  | .b => r.busyDown
def RingX.held (r : RingX) : Port → List (Frame × Bool)
  | .a => r.heldUp
  | .b => r.heldDown
def RingX.sent (r : RingX) : Port → Option Frame
  | .a => r.sentUp
  | .b => r.sentDown
def RingX.bad (r : RingX) : Port → Bool
  | .a => r.badUp
  | .b => r.badDown
def RingX.withBusy (r : RingX) (p : Port) (b : Bool) : RingX :=
  match p with | .a => { r with busyUp := b } | .b => { r with busyDown := b }
def RingX.withHeld (r : RingX) (p : Port) (l : List (Frame × Bool)) : RingX :=
  match p with | .a => { r with heldUp := l } | .b => { r with heldDown := l }
def RingX.waited (r : RingX) : Port → Bool
  | .a => r.waitUp
  | .b => r.waitDown
def RingX.withWait (r : RingX) (p : Port) (b : Bool) : RingX :=
  match p with | .a => { r with waitUp := b } | .b => { r with waitDown := b }
def RingX.sends (r : RingX) (p : Port) (f : Frame) (bad : Bool) : RingX :=
  match p with | .a => { r with sentUp := some f, badUp := bad } | .b => { r with sentDown := some f, badDown := bad }

/-- Character times of a frame on a lane: its bytes, the CRC, and the characters that start and end it (Example 09.1). -/
def Frame.wireLen (f : Frame) : Nat := f.payload.length + 18

/-- A BEACON with a holding time added to its DELAY, saturating (R248, R258); any other frame unchanged. -/
def Frame.delayed (f : Frame) (n : Nat) : Frame :=
  if f.ftype = 1 then { f with payload := f.payload.take 9 ++ leBytes 3 (min (field f.payload 9 3 + n) 0xFFFFFF) } else f

/-- The frames of an elastic buffer that stay once there is room for `n` bytes more among its 544, and the last of those sent for it
(R28). -/
def makeRoom : List (Frame × Bool) → Nat → List (Frame × Bool) × Option (Frame × Bool)
  | [], _ => ([], none)
  | x :: rest, n =>
    if ((x :: rest).map fun y => y.1.wireLen).sum + n ≤ 544 then (x :: rest, none)
    else ((makeRoom rest n).1, (makeRoom rest n).2.or (some x))

namespace Chip

/-- The state of the PLL, and the flag of the samples that goes with it (R50, Table 02.6). -/
def setPll (s : Chip) (d : Die) (st : Nat) : Chip :=
  (s.put d ULK_PLLSTAT ULK_PLLSTAT.STATE st).putB d ULK_PLLSTAT ULK_PLLSTAT.UNALIGNED (st != 1)

/-- The time structure of a die changed. -/
def updTime (s : Chip) (d : Die) (f : TimeX → TimeX) : Chip := s.upd d fun x => { x with time := f x.time }

/-- The ring structure of a die changed. -/
def updRing (s : Chip) (d : Die) (f : RingX → RingX) : Chip := s.upd d fun x => { x with ring := f x.ring }

/-- The stroke number of a die set. -/
def setStroke (s : Chip) (d : Die) (n : Nat) : Chip := s.updTime d fun t => { t with stroke := BitVec.ofNat 48 n }

/-- A PORT EVENT (Table 09.8), where PORTEVT_EN allows it. -/
def portEvent (s : Chip) (d : Die) (p new old : Nat) : Chip :=
  s.cond (s.bit d ULK_CFG ULK_CFG.PORTEVT_EN) fun s =>
    s.event d 0x0004 (leBytes 1 p ++ leBytes 1 new ++ leBytes 1 old ++ [0])

/-- The module is SETTLED at the last step of an entry (R395). -/
def settled (s : Chip) (d : Die) : Bool := s.get d PWR_STATE PWR_STATE.STATE == 3

/-- The number of a port in register and event order: A-in 0, B-in 1. -/
def portNo : Port → Nat
  | .a => 0
  | .b => 1

/-- The port that a frame came in by (R243: RINGB). -/
def framePort (f : FrameIn) : Port := if f.ringb then .b else .a

/-- The link CRC check of a frame passes (R377): no injection is armed for its port, and none has already failed the frame at another of
the rows that judge it. The key of a frame is its SMOD, TYPE and SEQ. -/
def linkOk (s : Chip) (d : Die) (p : Port) (key : Nat × Nat × Nat) : Bool :=
  !((s.die d).ring.judged.contains (portNo p, key)) && !(s.injected d (1 + portNo p))

/-- A frame whose received CRC an armed injection has inverted (R377): counted and reported once, and lost at each row that judges it. -/
def linkFail (s : Chip) (d : Die) (p : Port) (key : Nat × Nat × Nat) : Chip :=
  let k := (portNo p, key)
  if (s.die d).ring.judged.contains k then s.updRing d fun r => { r with judged := r.judged.erase k }
  else (((s.useInjection d).inc d (ULK_ERR (portNo p)) ULK_ERR.CRC).report d (140 + portNo p)).updRing d fun r =>
    { r with judged := k :: r.judged }

/-- The link CRC check of a frame that arrives whole. -/
def frameLinkOk (s : Chip) (d : Die) (f : FrameIn) : Bool := s.linkOk d (framePort f) (f.smod, f.ftype, f.seq)
def frameLinkFail (s : Chip) (d : Die) (f : FrameIn) : Chip := s.linkFail d (framePort f) (f.smod, f.ftype, f.seq)

/-- BEACON_CONFLICT (R35): the module stops acting as Ring Head. -/
def roleConflict (s : Chip) (d : Die) (smod : Nat) : Chip :=
  (((s.putAll MOD_TOPOLOGY MOD_TOPOLOGY.HEAD 0).putAll MOD_RING_ROLE MOD_RING_ROLE.CONFLICT 1).event d 0x0005
    (leBytes 1 smod)).report d 144

/-- PACK_CURRENT_COPY (R82): the current and its stamp, the announced stroke minus 3. -/
def copyPackCurrent (s : Chip) (d : Die) (announced current : Nat) : Chip :=
  let stamp := (announced + 2 ^ 48 - 3) % 2 ^ 48
  let c := current % 2 ^ 24
  let t := ((s.put d CFE_PACKI CFE_PACKI.CURRENT current).put d CFE_PACKI CFE_PACKI.STALE 0).put d CFE_PACKI_AT CFE_PACKI_AT.AT stamp
  t.upd d fun x => { x with eis := { x.eis with
    pack := ((stamp, if c = 0x800000 then none else some (toSigned c 24)) :: x.eis.pack).take 8 } }

/-- WAKE_CORRECTION (R59): the first usable beacon after a wake records the correction of the rebuilt count. -/
def wakeCorrection (s : Chip) (d : Die) (delta : Int) : Chip :=
  let u := s.get d PWR_WAKE_BOUND PWR_WAKE_BOUND.BOUND
  let out := decide (u < delta.natAbs)
  let t := ((s.putI d PWR_WAKE_CORR PWR_WAKE_CORR.CORR delta).put d ULK_STROKE_HI ULK_STROKE_HI.ESTIMATED 0).cond out fun s =>
    (s.put d PWR_SLEEP_TICKS_HI PWR_SLEEP_TICKS_HI.OUTSIDE 1).report d 143
  t.event d 0x0003 (leBytes 4 (t.reg d PWR_WAKE_CORR).toNat ++ leBytes 4 u
    ++ leBytes 1 (t.get d PWR_SLEEP_TICKS_HI PWR_SLEEP_TICKS_HI.OUTSIDE))

/-- FREQ_OFF after the loop has acted (Table 02.6): the spec gives the loop no transfer function, so that the frequency it leaves is free,
within ±127 ppm (assumption 121). -/
def freqOff (s : Chip) (d : Die) : Chip :=
  (s.putI d ULK_PLLSTAT ULK_PLLSTAT.FREQ_OFF ((Config.freeNat s.free % 255 : Nat) - 127)).draw

/-- Beacon discipline at the first usable beacon of a stroke (R49, R50, R53, R55, R59, R60). `delta` is the announced
count minus the local count, `offset` the phase error in units of 0.25 ns. -/
def discipline (s : Chip) (d : Die) (delta offset : Int) : Chip :=
  let x := (s.die d).time
  let talign := s.mode d FOL_MODENOW.TALIGN
  let valid := s.bit d ULK_STROKE_HI ULK_STROKE_HI.VALID
  let s := s.putI d ULK_PLLSTAT ULK_PLLSTAT.PHASE_ERR (max (-2047) offset)
  let first := x.firstAfterWake && valid
  let s := s.cond (first && s.bit d ULK_STROKE_HI ULK_STROKE_HI.ESTIMATED) fun s => s.wakeCorrection d delta
  let s := s.updTime d fun t => { t with firstAfterWake := false }
  if !valid then
    (s.updTime d fun t => { t with replaceBy := some delta }).cond (s.get d ULK_PLLSTAT ULK_PLLSTAT.STATE == 2)
      fun s => s.setPll d 0
  else if talign then
    s.upd d fun x => { x with
      cfe := { x.cfe with hsDelta := delta, hsPhase := offset }, time := { x.time with inRun := 0, outRun := 0 } }
  else
    let st := s.get d ULK_PLLSTAT ULK_PLLSTAT.STATE
    let s := (s.cond (st == 2) fun s => s.setPll d 0).freqOff d
    if st != 1 && (delta != 0 || decide (8000 < offset.natAbs)) then
      s.updTime d fun t => { t with stepBy := some delta, inRun := 0, outRun := 0 }
    else s.updTime d fun t => { t with
      stepBy := none
      inRun  := if offset.natAbs ≤ 40 then t.inRun + 1 else 0
      outRun := if 120 < offset.natAbs then t.outRun + 1 else 0 }

/-- The end die that a ring leaves the module by: the top die for ring A, SD0 for ring B (R255). -/
def isExit (s : Chip) (d : Die) (p : Port) : Bool :=
  match p with
  | .a => s.isTop d
  | .b => d.val == 0

/-- The path of a ring past die `d` crosses a die that is not alive (R31). -/
def pathLost (s : Chip) (d : Die) (p : Port) : Bool :=
  match p with
  | .a => !(s.isTop d) && !(s.alive d (d + 1))
  | .b => d.val != 0 && !(s.alive d (d - 1))

/-- What a lane sends: a frame, and whether it ends in /E/. -/
def send (s : Chip) (d : Die) (p : Port) (f : Frame) (bad : Bool) : Chip := s.updRing d fun r => r.sends p f bad

/-- The time a beacon is held behind a frame that the lane is sending, LSB 0.125 ns: free, within the 544 character times of 32 ns that
the longest insertion lasts (R28, R258; assumption 21). -/
def holdTime (s : Chip) : Nat := Config.freeNat s.free % 139265

/-- A BEACON of the die's own that is in its queue has to wait for a lane (R258). -/
def beaconWaits (s : Chip) (d : Die) (p : Port) : Chip :=
  s.cond ((s.die d).ring.queue.any (·.ftype == 1)) fun s => s.updRing d fun r => r.withWait p true

/-- A transit frame forwarded at once, or held in the elastic buffer behind an insertion and the frames already held there (R28). A
buffer that the frame would fill beyond its 544 bytes has by then sent its oldest frames. -/
def passOn (s : Chip) (d : Die) (p : Port) (f : Frame) (bad : Bool) : Chip :=
  let r := (s.die d).ring
  if r.busy p || r.held p != [] then
    let m := makeRoom (r.held p) f.wireLen
    let t := match m.2 with
      | some g => (s.send d p (g.1.delayed s.holdTime) g.2).draw
      | none => s
    (t.updRing d fun r => r.withHeld p (m.1 ++ [(f, bad)])).put d ULK_TX ULK_TX.HOLDING 1
  else (s.send d p f bad).beaconWaits d p

/-- The frames of a ring that leave die `d` are discarded: their path is lost (R31), or the output port of a module with an address is not
UP; a module without an address removes nothing (R256). -/
def blocked (s : Chip) (d : Die) (p : Port) : Bool :=
  s.pathLost d p || (s.isExit d p && s.address d != 0 && s.bit d (ULK_PORT (portNo p)) ULK_PORT.OUTDOWN)

/-- A frame leaves the die in transit: removed at the exit die where it has reached its module or has come back after a full
circuit (its WRAP bit is then 1, R257), discarded where its path is lost, else passed on (R31, R255, R256). -/
def forward (s : Chip) (d : Die) (p : Port) (f : Frame) (bad : Bool) : Chip :=
  let n := portNo p
  let mine := s.address d != 0 && (f.dmod == s.address d || (f.smod == s.address d && f.flags.testBit 1) || f.ftype == 15)
  if s.isExit d p && mine then s
  else if s.blocked d p then s.inc d (ULK_MISS n) ULK_MISS.DISCARD
  else s.passOn d p f bad

/-- A beacon passed on toward the next die, its delay increased by the die's own and saturating (R48, R248). -/
def forwardBeacon (s : Chip) (d : Die) (p : Port) (smod : Nat) (sdie : Die) (wrap : Bool) (announced current delay : Nat)
    (bad : Bool) : Chip :=
  let hop := match p with
    | .a => s.get d ULK_BDELAY ULK_BDELAY.HOP_A
    | .b => s.get d ULK_BDELAY ULK_BDELAY.HOP_B
  s.forward d p ⟨1, (p == .b).toNat + 2 * wrap.toNat, 127, 0, smod, sdie.val, 0, announced % 65536,
    leBytes 6 announced ++ leBytes 3 current ++ leBytes 3 (min (delay + hop) 0xFFFFFF), p == .a, p == .b⟩ bad

/-- The announced count minus the local count (R49, R53). The beacon arrives `delay` (LSB 0.125 ns) into the stroke two before the one it
announces, in ring time; `offset` (LSB 0.25 ns) is that ring time minus the local time, to the nearest stroke. What `delay − 2·offset` leaves
of whole strokes is then the place of the arrival in the local stroke, and the whole strokes are the difference (assumption 17). -/
def beaconDelta (announced delay : Nat) (offset : Int) (stroke : Nat) : Int :=
  (announced : Int) - 2 + ((delay : Int) - 2 * offset) / 250000 - stroke

/-- BEACON_RECEIVED (R35, R47 to R53, R82, R248). A beacon with an accumulated delay of at most 60 µs is usable; the die disciplines to
the first usable one of a stroke that does not come from a port with the link CRC isolation (Table 14.2, k = 8 and 9). The master of
an acting Ring Head disciplines to none of its own. -/
def beaconReceived (d : Die) (p : Port) (smod : Nat) (sdie : Die) (wrap : Bool) (announced current delay : Nat) (offset : Int)
    (s : Chip) : Chip :=
  if !(s.runsOn d 6) then s
  else if !(s.linkOk d p (smod, 1, announced % 65536)) then
    (s.linkFail d p (smod, 1, announced % 65536)).forwardBeacon d p smod sdie wrap announced current delay true
  else
  let x := (s.die d).time
  let own := s.isHead d && smod == s.address d
  let s := if s.isHead d && s.master d == d && !own then
      let run := if x.foreignNow.isSome then x.foreignRun else x.foreignRun + 1
      (s.updTime d fun t => { t with foreignNow := some smod, foreignRun := run }).cond (decide (2 ≤ run))
        fun s => s.roleConflict d smod
    else s
  let usable := decide (delay ≤ 480000)
  let s := s.cond usable fun s =>
    (((s.put d (ULK_PORT (portNo p)) ULK_PORT.BEACON 1).put d ULK_PLLSTAT ULK_PLLSTAT.MISSED 0).copyPackCurrent d announced
      current).updTime d fun t => { t with got := true, fresh := true, supervised := true }
  let use := usable && !x.used && !(s.isolated d (140 + portNo p)) && !(own && s.master d == d)
  let s := s.cond use fun s =>
    (s.updTime d fun t => { t with used := true }).discipline d (beaconDelta announced delay offset (s.stroke d)) offset
  s.forwardBeacon d p smod sdie wrap announced current delay false

/-- The open FINE frame without the records of the strokes from `from_` on: a partial line that a time step discards (R53). -/
def dropRecords (s : Chip) (d : Die) (from_ : Nat) : Chip :=
  s.upd d fun x => { x with cfe := { x.cfe with
    fineOpen := x.cfe.fineOpen.map fun f => { f with recs := f.recs.take (from_ - f.first) } } }

/-- The open frames discarded: what was assembled before VALID is not offered (R60). -/
def dropFrames (s : Chip) (d : Die) : Chip :=
  s.upd d fun x => { x with cfe := { x.cfe with fineOpen := none, lineOpen := none } }

/-- TIME_STEP (R53, R54): at the first announced stroke whose number [1:0] is 0 the die adopts the beacon's count. The
partial line is discarded and marked, and a forward step's skipped numbers are marked. -/
def timeStep (d : Die) (s : Chip) : Chip :=
  match (s.die d).time.stepBy with
  | none => s
  | some delta =>
    let old := s.stroke d
    let new := (((old : Int) + delta) % (2 ^ 48 : Nat)).toNat
    if !(s.runs d) || s.mode d FOL_MODENOW.TALIGN || new % 4 != 0 then s else
    let t := ((s.dropRecords d (old - old % 4)).gap d (old - old % 4) (old % 4) 0x4).cond (decide (0 < delta)) fun s => s.gap d old delta.toNat 0x3
    let t := ((t.closeFrame d 1).closeFrame d 2).setStroke d new
    let t := (t.putI d ULK_TSTEP_DELTA ULK_TSTEP_DELTA.DELTA delta).put d ULK_TSTEP_AT ULK_TSTEP_AT.AT new
    let t := (t.setPll d 0).updTime d fun x => { x with stepBy := none, inRun := 0, outRun := 0 }
    t.event d 0x0002 (leBytes 4 (t.reg d ULK_TSTEP_AT).toNat ++ leBytes 4 (t.reg d ULK_TSTEP_DELTA).toNat)

/-- COUNT_REPLACEMENT (R60): a die with VALID = 0 takes the beacon's count at the first announced stroke whose number
[1:0] is 0, and queues one GAP record, of every class (none was offered before): cause 0x6 after a cold start, 0x1 after a
sleep whose tick count saturated. -/
def countReplacement (d : Die) (s : Chip) : Chip :=
  match (s.die d).time.replaceBy with
  | none => s
  | some delta =>
    let old := s.stroke d
    let new := (((old : Int) + delta) % (2 ^ 48 : Nat)).toNat
    if !(s.runs d) || s.bit d ULK_STROKE_HI ULK_STROKE_HI.VALID || new % 4 != 0 then s else
    let x := (s.die d).time
    let t := (((s.dropFrames d).setStroke d new).put d ULK_STROKE_HI ULK_STROKE_HI.VALID 1).updTime d fun t =>
      { t with replaceBy := none, afterOvf := false, inRun := 0, outRun := 0 }
    if x.afterOvf then t.gapOf d x.gapFrom.toNat (min (new - x.gapFrom.toNat) 0xFFFFFFFF) 0x1 7
    else t.gapOf d (new - old) old 0x6 7

/-- BEACON_SEND (R34, R47, R248): the master of an acting Ring Head queues the beacon that announces its stroke + 2, with the
pack current stamped one stroke before its own, or NODATA, and no accumulated delay. -/
def beaconSend (d : Die) (s : Chip) : Chip :=
  if !(s.runsOn d 6) || !(s.isHead d) || s.master d != d || s.settled d then s else
    let n := (s.stroke d + 2) % 2 ^ 48
    let cur := match (s.die 0).cfe.packNow with
      | some (i, at_) => if s.bit 0 CFE_AUXCFG CFE_AUXCFG.PACKI && at_ + 1 == s.stroke d then ofSigned i 24 else 0x800000
      | none => 0x800000
    let t := s.enqueue d ⟨1, 0, 127, 0, s.address d, d.val, 0, n % 65536, leBytes 6 n ++ leBytes 3 cur ++ leBytes 3 0, true, true⟩
    t.each [Port.a, Port.b] fun p t => t.cond ((t.die d).ring.busy p || (t.die d).ring.held p != []) fun t => t.beaconWaits d p

end Chip

/-- BEACON_RECEIVED (R49). -/
def execBeaconReceived (d : Die) (p : Port) (src : BeaconSrc) (wrap : Bool) (announced : Stroke) (current delay : BitVec 24)
    (offset : Int) (s : State) : Host.Outcome State Fault Refusal :=
  s.run (Chip.beaconReceived d p src.smod src.sdie wrap announced.toNat current.toNat delay.toNat offset)

/-- TIME_STEP (R53). -/
def execTimeStep (d : Die) (s : State) : Host.Outcome State Fault Refusal := s.run (Chip.timeStep d)

/-- COUNT_REPLACEMENT (R60). -/
def execCountReplacement (d : Die) (s : State) : Host.Outcome State Fault Refusal := s.run (Chip.countReplacement d)

/-- PLL_LOCKED (R50): after 64 consecutive strokes within ±10 ns in ACQUIRE. -/
def execPllLocked (d : Die) (s : State) : Host.Outcome State Fault Refusal :=
  s.run fun c => if c.runs d && c.get d ULK_PLLSTAT ULK_PLLSTAT.STATE == 0 && decide (64 ≤ (c.die d).time.inRun)
    && !(c.mode d FOL_MODENOW.TALIGN) then c.setPll d 1 else c

/-- PLL_UNLOCK (R50): after 4 consecutive strokes beyond ±30 ns a LOCKED die returns to ACQUIRE. -/
def execPllUnlock (d : Die) (s : State) : Host.Outcome State Fault Refusal :=
  s.run fun c => if c.runs d && c.get d ULK_PLLSTAT ULK_PLLSTAT.STATE == 1 && decide (4 ≤ (c.die d).time.outRun) then
      (c.setPll d 0).updTime d fun t => { t with inRun := 0, outRun := 0 }
    else c

/-- BEACON_LOSS_HOLDOVER (R52, R55): 4 strokes without a usable beacon once supervision has started. While SETTLED nothing is
raised (R395); in HOSTSTAMP the loss is raised and the state stays. -/
def execBeaconLossHoldover (d : Die) (s : State) : Host.Outcome State Fault Refusal :=
  s.run fun c =>
    let st := c.get d ULK_PLLSTAT ULK_PLLSTAT.STATE
    let missed := c.get d ULK_PLLSTAT ULK_PLLSTAT.MISSED
    if c.runs d && (c.die d).time.supervised && st != 2
        && (if st == 3 then missed == 4 else decide (4 ≤ missed)) then
      let t := if st == 3 then c else (c.setPll d 2).updTime d fun t => { t with inRun := 0, outRun := 0, stepBy := none }
      if c.settled d then t else t.report d 142
    else c

/-- LINK_BEACON_MISSING (R242, R52): an UP port without a usable beacon for 4 strokes raises its link fault. -/
def execLinkBeaconMissing (d : Die) (p : Port) (s : State) : Host.Outcome State Fault Refusal :=
  s.run fun c =>
    let n := Chip.portNo p
    let run := match p with | .a => (c.die d).ring.missRunA | .b => (c.die d).ring.missRunB
    if c.runsOn d 6 && c.get d (ULK_PORT n) ULK_PORT.STATE == 3 && (c.die d).time.supervised && decide (4 ≤ run)
        && !(c.settled d) then
      (c.put d (ULK_PORT n) ULK_PORT.LINKFLT 1).raise d (138 + n)
    else c

/-- BEACON_SEND (R47). -/
def execBeaconSend (d : Die) (s : State) : Host.Outcome State Fault Refusal := s.run (Chip.beaconSend d)

/-- RING_HEAD_CHANGE (R36): at the first page whose number [15:0] is HEAD_PAGE the requested role takes effect. -/
def execRingHeadChange (d : Die) (s : State) : Host.Outcome State Fault Refusal :=
  s.run fun c =>
    if c.runs d && c.bit d MOD_RING_ROLE MOD_RING_ROLE.ARMED && c.stroke d % 1024 == 0
        && (c.stroke d / 1024) % 65536 == c.get d MOD_RING_ROLE MOD_RING_ROLE.HEAD_PAGE then
      (c.putAll MOD_TOPOLOGY MOD_TOPOLOGY.HEAD (c.get d MOD_RING_ROLE MOD_RING_ROLE.HEAD)).putAll MOD_RING_ROLE
        MOD_RING_ROLE.ARMED 0
    else c

/-- ULK_STROKE_LO_READ (R62, Table 02.4): a read latches stroke number [47:32] into ULK_STROKE_HI. -/
def execUlkStrokeLoRead (d : Die) (s : State) : Host.Outcome State Fault Refusal :=
  s.run fun c => c.put d ULK_STROKE_HI ULK_STROKE_HI.COUNT_HI (c.stroke d / 2 ^ 32)

end Sys2Proof.Machine
end

