-- ==== Sys2Proof/Machine/Ring.lean ====
section
/-! DEFINITION. The Uselm ring at one die: frames in transit, insertion, ring blots, the echo probe, port states, fault
orders and the fault tone (chapters The Uselm Ring and Stack Architecture). -/
namespace Sys2Proof.Machine

/-- The assigned frame types (Table 09.5). -/
def typeAssigned (t : Nat) : Bool := (1 ≤ t && t ≤ 7) || t == 15

/-- The format checks of R252. -/
def frameFormatOk (f : FrameIn) (ext : Bool) : Bool :=
  typeAssigned f.ftype && decide (f.len ≤ 512) && f.len == f.payload.length && !(f.ftype == 15 && ext)

/-- An arrived frame as it is passed on. -/
def frameOf (f : FrameIn) : Frame :=
  ⟨f.ftype, f.ringb.toNat + 2 * f.wrap.toNat + 4 * f.more.toNat, f.dmod, f.ddie, f.smod, f.sdie, f.tag, f.seq, f.payload, !f.ringb, f.ringb⟩

namespace Chip

/-- FRAME_VALIDITY_CHECK (R252, Table 09.10): whether the frame is valid, and the module with the one counter of its port
that takes a failure, and the link CRC source where the table names it. An armed injection inverts the received CRC; a frame that it has
failed at another row that judges it is lost here too (R377). -/
def checkFrame (s : Chip) (d : Die) (p : Port) (f : FrameIn) : Bool × Chip :=
  let n := portNo p
  let key := (n, f.smod, f.ftype, f.seq)
  if (s.die d).ring.judged.contains key then (false, s.linkFail d p (f.smod, f.ftype, f.seq)) else
  let inj := s.injected d (1 + n)
  let s := s.cond inj fun s => (s.useInjection d).updRing d fun r => { r with judged := key :: r.judged }
  if !f.endT then (false, s.inc d (ULK_ERR n) ULK_ERR.STOMP)
  else if !f.codeOk then (false, (s.inc d (ULK_ERR n) ULK_ERR.CODE).report d (140 + n))
  else if !f.crcOk || inj then (false, (s.inc d (ULK_ERR n) ULK_ERR.CRC).report d (140 + n))
  else if !(frameFormatOk f (s.bit d (ULK_PORT n) ULK_PORT.EXT)) then (false, s.inc d (ULK_ERR n) ULK_ERR.FORMAT)
  else (true, s)

/-- A LOAD_MISSING copied (R304): its two ring copies are one event (R259), and copies older than 2 pages are dropped. -/
def noteMissing (s : Chip) (d : Die) (f : FrameIn) : Chip :=
  let now := s.stroke d
  s.updRing d fun r =>
    let old := r.missing.filter fun m => decide ((now + 2 ^ 48 - m.at_) % 2 ^ 48 ≤ 2048)
    { r with missing := if old.any fun m => m.smod == f.smod && m.sdie == f.sdie && m.seq == f.seq then old else
        ⟨f.smod, f.sdie, f.seq, field f.payload 8 2, field f.payload 11 2, field f.payload 13 2, now, false⟩ :: old }

/-- An acting Ring Head with SNOOP copies events: of a HEARTBEAT, the module heard and whether its summary is zero (HEARTBEAT_SNOOP, R260);
of a LOAD_MISSING, what it names (R304). -/
def snoop (s : Chip) (d : Die) (f : FrameIn) : Chip :=
  if !(s.isHead d && s.bit d ULK_CFG ULK_CFG.SNOOP && f.ftype == 5) then s
  else if field f.payload 0 2 = 1 then
    s.updRing d fun r => { r with
      heard := if f.smod ∈ r.heard then r.heard else f.smod :: r.heard
      faulted := if field f.payload 8 4 == 0 || f.smod ∈ r.faulted then r.faulted else f.smod :: r.faulted }
  else if field f.payload 0 2 = 0x0150 then s.noteMissing d f
  else s

/-- An ENUMERATE frame (R263): the module master passes it on in its own row. -/
def isEnumerate (f : FrameIn) : Bool := f.ftype == 2 && f.dmod == 0 && field f.payload 0 1 == 4

/-- TRANSIT_FRAME_RECEIVED (R28, R31, R252, R255, R256, R260). -/
def transitFrameReceived (d : Die) (p : Port) (f : FrameIn) (s : Chip) : Chip :=
  if !(s.runsOn d 6) || s.get d (ULK_PORT (portNo p)) ULK_PORT.STATE != 3 then s else
  let ck := s.checkFrame d p f
  if ck.1 && isEnumerate f && s.master d == d then ck.2
  else (ck.2.cond ck.1 fun s => s.snoop d f).forward d p (frameOf f) (!ck.1)

/-- The rank of a frame type in the order of precedence (R258). -/
def frameRank (t : Nat) : Nat := if t = 1 ∨ t = 7 then 0 else if t = 6 then 1 else if t = 4 then 3 else 2

/-- The frame that goes first: the lowest rank, and within it the earliest (R258). -/
def firstOf (q : List Frame) : Option Frame :=
  ([0, 1, 2, 3].findSome? fun r => q.find? fun f => frameRank f.ftype == r)

/-- The oldest frame held at a lane follows what the lane has sent; the lane stays occupied while more are held (R28). -/
def sendHeld (d : Die) (p : Port) (s : Chip) : Chip :=
  match (s.die d).ring.held p with
  | [] => s
  | g :: rest =>
    ((s.updRing d fun r => ((r.sends p (g.1.delayed s.holdTime) g.2).withHeld p rest).withBusy p (rest != [])).draw).beaconWaits d p

/-- What the die's own frame is on a lane: a BEACON that waits for the lane, or has waited for it, takes the time, which is free for each
ring by itself (R258). -/
def ownCopy (s : Chip) (d : Die) (p : Port) (f : Frame) : Frame :=
  let g := { f with smod := s.address d, flags := f.flags ||| portNo p }
  if (s.die d).ring.busy p || (s.die d).ring.waited p then
    g.delayed (match p with | .a => s.holdTime | .b => s.draw.holdTime)
  else g

/-- FRAME_INSERTION (R28, R258, R251): held transit data goes first; with none, the die's own frame of highest precedence
is sent on the lanes of its rings, each copy discarded and counted where its way is blocked (R31, R256). After its LASTGASP a die
sends no RSP, and a module without an address originates nothing (R244). -/
def frameInsertion (d : Die) (s : Chip) : Chip :=
  let r := (s.die d).ring
  if !(s.fitted d && s.linked d && (s.die d).pwr.mclk) then s
  else if r.heldUp ≠ [] ∨ r.heldDown ≠ [] then
    ((s.sendHeld d .a).sendHeld d .b).putB d ULK_TX ULK_TX.HOLDING (decide (r.heldUp.tail ≠ []) || decide (r.heldDown.tail ≠ []))
  else
    match firstOf (r.queue.filter fun f => s.address d != 0 && !((s.die d).pwr.gaspSent && f.ftype == 3)) with
    | none => s
    | some f =>
      let a := f.ringA && !(s.blocked d .a)
      let b := f.ringB && !(s.blocked d .b)
      let t := (s.cond (f.ringA && !a) fun s => s.inc d (ULK_MISS 0) ULK_MISS.DISCARD).cond (f.ringB && !b)
        fun s => s.inc d (ULK_MISS 1) ULK_MISS.DISCARD
      let u := (t.cond a fun t => t.updRing d fun r => (r.sends .a (s.ownCopy d .a f) false).withBusy .a true).cond b
        fun t => t.updRing d fun r => (r.sends .b (s.ownCopy d .b f) false).withBusy .b true
      let u := u.updRing d fun r => { r with
        queue := r.queue.erase f, waitUp := r.waitUp && f.ftype != 1, waitDown := r.waitDown && f.ftype != 1 }
      u.draw.draw.showLevel d

/-- A copy with the same (SMOD, TYPE, SEQ) was taken within the last 64 strokes (R259). -/
def takenBefore (s : Chip) (d : Die) (smod t seq : Nat) : Bool :=
  (s.die d).ring.taken.any fun e => e.1 == smod && e.2.1 == t && e.2.2.1 == seq
    && decide ((s.stroke d + 2 ^ 48 - e.2.2.2) % 2 ^ 48 ≤ 64)

/-- A taken frame noted for R259; notes older than 64 strokes are dropped. -/
def noteTaken (s : Chip) (d : Die) (smod t seq : Nat) : Chip :=
  let now := s.stroke d
  s.updRing d fun r => { r with taken :=
    (smod, t, seq, now) :: r.taken.filter fun e => decide ((now + 2 ^ 48 - e.2.2.2) % 2 ^ 48 ≤ 64) }

/-- The note of a taken frame given up. -/
def dropTaken (s : Chip) (d : Die) (smod t seq : Nat) : Chip :=
  s.updRing d fun r => { r with taken := r.taken.filter fun e => !(e.1 == smod && e.2.1 == t && e.2.2.1 == seq) }

/-- A ring-wide blot accepted by a die for the edge of stroke AT, in place of a pending one with another SEQ (R249). -/
def scheduleBlot (s : Chip) (d : Die) (seq at_ id : Nat) : Chip :=
  if at_ ≤ s.stroke d + 1 then s.inc d ULK_TX ULK_TX.LATEBLOT
  else if s.bit d ULK_BLOT ULK_BLOT.PENDING && (s.die d).ring.blotSeq == seq then s
  else (((s.put d ULK_BLOT ULK_BLOT.ID id).put d ULK_BLOT ULK_BLOT.PENDING 1).put d ULK_BLOTAT ULK_BLOTAT.AT at_).updRing d
    fun r => { r with blotSeq := seq, blotAt := BitVec.ofNat 48 at_ }

/-- BLOT_FRAME_RECEIVED (R249, R259, R377, R382). -/
def blotFrameReceived (d : Die) (smod seq at_ : Nat) (blot : BlotIn) (s : Chip) : Chip :=
  if !(s.runsOn d 6) then s
  else if !(s.linkOk d blot.port (smod, 7, seq)) then s.linkFail d blot.port (smod, 7, seq)
  else if !(s.bit d MOD_SNAP_CFG MOD_SNAP_CFG.RING_EN) || s.takenBefore d smod 7 seq then s
  else (s.noteTaken d smod 7 seq).scheduleBlot d seq at_ blot.id

/-- The delay that a die adds to a ring's beacons (R48): at the end die of the receiving port the cable's, and at every die the
calibrated one of the cuff it forwards across, for the temperature of the die; an end die that sends the ring out of the module
crosses no cuff. Until its cable has been measured an end die keeps the value it has. -/
def showHop (s : Chip) (d : Die) (p : Port) : Chip :=
  let entry := match p with | .a => d.val == 0 | .b => s.isTop d
  let cuff := if s.isExit d p then 0 else Config.cuffDelay d.val (portNo p) (s.getI d THM_TDIE THM_TDIE.TDIE)
  let f := match p with | .a => ULK_BDELAY.HOP_A | .b => ULK_BDELAY.HOP_B
  if !entry then s.putSat d ULK_BDELAY f cuff
  else match (s.die d).ring.cable with
    | some c => s.putSat d ULK_BDELAY f (c + cuff)
    | none => s

/-- The delay of a cable hop from a round trip and TADJ, in units of 0.125 ns: (RTT − 1,000 ns − TADJ) / 2 (R262), an odd difference halved
down (DESIGN CHOICE, assumption 151). -/
def cableDelay (rtt tadj : Nat) : Nat := (rtt - 8000 - tadj) / 2

/-- A frame being received when its port leaves UP ends downstream with /E/, and is counted by what its check finds (R241, R252). -/
def cutFrame (s : Chip) (d : Die) (p : Port) (cut : Option FrameIn) : Chip :=
  match cut with
  | some f =>
    if s.get d (ULK_PORT (portNo p)) ULK_PORT.STATE = 3 then (s.checkFrame d p { f with endT := true }).2.forward d p (frameOf f) true
    else s
  | none => s

/-- A port moved to a state, with its PORT EVENT, its count of entries into UP, and its link fault where it leaves UP
(R241, R242). -/
def movePort (s : Chip) (d : Die) (p : Port) (st : Nat) : Chip :=
  let n := portNo p
  let old := s.get d (ULK_PORT n) ULK_PORT.STATE
  let t := (s.put d (ULK_PORT n) ULK_PORT.STATE st).cond (st == 3) fun s => s.inc d (ULK_PORT n) ULK_PORT.UPCNT
  let t := t.putB d (ULK_PORT (1 - n)) ULK_PORT.OUTDOWN (st != 3)
  let t := t.cond (old == 3) fun s =>
    ((s.put d (ULK_PORT n) ULK_PORT.LINKFLT 1).raise d (138 + n)).updRing d fun r =>
      match p with | .a => { r with goodRunA := 0 } | .b => { r with goodRunB := 0 }
  t.portEvent d n st old

/-- Whether die `d` passes the fault tone (R265): in NIGHTCAP with its check running, while its checks pass; else while it
is not in its safe state. -/
def passesTone (s : Chip) (d : Die) : Bool :=
  decide (s.get d FCOL_STATE FCOL_STATE.STATE < 2)
    && !(s.get d PWR_ENTRY PWR_ENTRY.TARGET == 2 && !(s.mode d FOL_MODENOW.SLCHK) && !((s.die d).pwr.ncSources.isEmpty))

end Chip

/-- TRANSIT_FRAME_RECEIVED (R255). -/
def execTransitFrameReceived (d : Die) (p : Port) (f : FrameIn) (s : State) : Host.Outcome State Fault Refusal :=
  s.run (Chip.transitFrameReceived d p f)

/-- FRAME_INSERTION (R28). -/
def execFrameInsertion (d : Die) (s : State) : Host.Outcome State Fault Refusal := s.run (Chip.frameInsertion d)

/-- BLOT_FRAME_RECEIVED (R249). -/
def execBlotFrameReceived (d : Die) (smod seq : Nat) (at_ : Stroke) (blot : BlotIn) (s : State) :
    Host.Outcome State Fault Refusal :=
  s.run (Chip.blotFrameReceived d smod seq at_.toNat blot)

/-- RING_BLOT_FIRE (R249): the pending ring blot fires at the edge of stroke AT, as trigger bit 0 of Table 14.8. -/
def execRingBlotFire (d : Die) (s : State) : Host.Outcome State Fault Refusal :=
  s.run fun c =>
    if c.runs d && c.bit d ULK_BLOT ULK_BLOT.PENDING && c.stroke d == (c.die d).ring.blotAt.toNat then
      ((c.put d ULK_BLOT ULK_BLOT.PENDING 0).trigger d 0 0).upd d fun x =>
        { x with snap := { x.snap with id := c.get d ULK_BLOT ULK_BLOT.ID } }
    else c

/-- ECHO_PROBE_RECEIVED (R262): an end die schedules its reply. -/
def execEchoProbeReceived (d : Die) (id : Nat) (s : State) : Host.Outcome State Fault Refusal :=
  s.run fun c => if c.runsOn d 6 && (d.val == 0 || c.isTop d) then c.updRing d fun r => { r with replyDue := some id } else c

/-- ECHO_REPLY_SEND (R262): the reply goes out with TADJ, the excess over 1,000 ns. -/
def execEchoReplySend (d : Die) (tadj : Nat) (s : State) : Host.Outcome State Fault Refusal :=
  s.run fun c => if (c.die d).ring.replyDue.isSome && c.runsOn d 6 then
      c.updRing d fun r => { r with replyDue := none, replied := some (tadj % 65536) }
    else c

/-- ECHO_REPLY_RECEIVED (R262, R48): the round trip gives the cable delay added to beacons entering at SA of SD0 or at NB of
the top die. -/
def execEchoReplyReceived (d : Die) (rtt tadj : Nat) (s : State) : Host.Outcome State Fault Refusal :=
  s.run fun c =>
    if !((c.die d).ring.probeOut && c.runsOn d 6) then c else
    let n := if d.val = 0 then 0 else 1
    let t := (c.putSat d (ULK_ECHO n) ULK_ECHO.RTT rtt).putSat d (ULK_ECHO n) ULK_ECHO.TADJ tadj
    (t.updRing d fun r => { r with probeOut := false, cable := some (Chip.cableDelay rtt tadj) }).showHop d (if n = 0 then .a else .b)

/-- ECHO_TIMEOUT (R262): no reply within 4 µs; the last delay is kept. -/
def execEchoTimeout (d : Die) (s : State) : Host.Outcome State Fault Refusal :=
  s.run fun c =>
    if !((c.die d).ring.probeOut && c.runsOn d 6) then c else
    (c.put d ULK_BDELAY (if d.val = 0 then ULK_BDELAY.ECHO_A_MISS else ULK_BDELAY.ECHO_B_MISS) 1).updRing d
      fun r => { r with probeOut := false }

/-- FAULT_ORDER_RECEIVED (R27, R370): a fault order arriving at SD0 stands, or ends, and FAULT_N follows. -/
def execFaultOrderReceived (d src : Die) (assert : Bool) (s : State) : Host.Outcome State Fault Refusal :=
  s.run fun c =>
    if d.val = 0 ∧ c.on 0 0 then
      let kept := c.mod.orders.filter (· != src)
      ({ c with mod := { c.mod with orders := if assert then src :: kept else kept } } : Chip).driveFaultN
    else c

/-- MASTER_TAKEOVER (R18): the lowest-numbered live die takes the role that MASTER does not yet show. -/
def execMasterTakeover (d : Die) (s : State) : Host.Outcome State Fault Refusal :=
  s.run fun c => if c.runs d && c.lowestLive d == d && c.master d != d then
      c.putAll MOD_TOPOLOGY MOD_TOPOLOGY.MASTER d.val
    else c

/-- PORT_SIGNAL_LOSS (R241): from any state but OFF to LOS. -/
def execPortSignalLoss (d : Die) (p : PortCut) (s : State) : Host.Outcome State Fault Refusal :=
  s.run fun c => if c.runsOn d 6 && c.get d (ULK_PORT (Chip.portNo p.port)) ULK_PORT.STATE != 0
    && c.get d (ULK_PORT (Chip.portNo p.port)) ULK_PORT.STATE != 1 then (c.cutFrame d p.port p.cut).movePort d p.port 1 else c

/-- PORT_SIGNAL_PRESENT (R241): LOS to TRAIN. -/
def execPortSignalPresent (d : Die) (p : Port) (s : State) : Host.Outcome State Fault Refusal :=
  s.run fun c => if c.runsOn d 6 && c.get d (ULK_PORT (Chip.portNo p)) ULK_PORT.STATE == 1 then c.movePort d p 2 else c

/-- PORT_TRAINED (R241): TRAIN to UP after 64 consecutive valid idle pairs. -/
def execPortTrained (d : Die) (p : Port) (s : State) : Host.Outcome State Fault Refusal :=
  s.run fun c => if c.runsOn d 6 && c.get d (ULK_PORT (Chip.portNo p)) ULK_PORT.STATE == 2 then c.movePort d p 3 else c

/-- PORT_CODE_VIOLATIONS (R241): UP to TRAIN after 4 code violations within 256 characters. -/
def execPortCodeViolations (d : Die) (p : PortCut) (s : State) : Host.Outcome State Fault Refusal :=
  s.run fun c => if c.runsOn d 6 && c.get d (ULK_PORT (Chip.portNo p.port)) ULK_PORT.STATE == 3 then
      (c.cutFrame d p.port p.cut).movePort d p.port 2
    else c

/-- FAULT_TONE_CHANGE (R265): during sleep the tone appears at, or vanishes from, the A input. -/
def execFaultToneChange (d : Die) (present : Bool) (s : State) : Host.Outcome State Fault Refusal :=
  s.run fun c => if c.on d 0 && !(c.on d 6) then
      (c.putB d ULK_RING ULK_RING.TONE_IN present).putB d ULK_RING ULK_RING.TONE_PASS (present && c.passesTone d)
    else c

end Sys2Proof.Machine
end

