-- ==== Sys2Proof/Machine/Journal.lean ====
section
/-! DEFINITION. The intake journal: arrival of command copies, mirrors, acceptance, the turn of an entry, commit and
answer (chapter Belef Commands and the Delivery Guarantee). -/
namespace Sys2Proof.Machine

/-- The opcodes of Table 10.4. -/
def opcodes : List Nat :=
  [0x01, 0x02, 0x03, 0x04, 0x10, 0x11, 0x20, 0x21, 0x22, 0x23, 0x30, 0x31, 0x32, 0x33, 0x40, 0x41, 0x42, 0x43, 0x50,
   0x51, 0x60, 0x61, 0x62, 0x63, 0x64, 0x70, 0x71, 0x72, 0x80, 0x81, 0x82, 0x83, 0x90, 0x91, 0x92, 0xA0, 0xB0, 0xC0,
   0xD0, 0xD1, 0xE0, 0xE1, 0xE2, 0xE3]

/-- Kind H: executed by the boot ROM and hardware (Table 10.4). -/
def kindH (op : Nat) : Bool := [0x01, 0x02, 0x03, 0x04, 0x60, 0x61, 0x62, 0x63, 0x64, 0x80, 0x92].contains op

/-- Kind B: may be sent ring-wide (Table 10.4). -/
def kindB (op : Nat) : Bool := [0x60, 0x61, 0x62, 0x64].contains op

/-- The number of set bits. -/
def bitCount (n v : Nat) : Nat := ((List.range n).filter fun i => v.testBit i).length

/-- The length of the parameters that an opcode requires (Table 10.4), given the block itself. -/
def paramLen (op : Nat) (q : List Byte) : Nat :=
  match op with
  | 0x02 => 8
  | 0x03 => 8 + 4 * p8 q 4
  | 0x04 | 0x23 | 0x31 | 0x32 | 0x40 | 0x43 | 0x50 | 0x62 | 0x63 | 0x64 | 0x83 | 0x90 | 0x91 | 0xA0 | 0xB0 | 0xE3 => 4
  | 0x10 | 0x11 | 0x20 => 16
  | 0x21 => 1 + 5 * p8 q 0
  | 0x22 => 2 + 2 * bitCount 16 (p16 q 0)
  | 0x30 => 12 + 8 * ((EIS_PLAN_HDR0.NBINS_M1.read (BitVec.ofNat 32 (p32 q 4))) + 1)
  | 0x33 => 8 + 12 * bitCount 16 (p16 q 4)
  | 0x41 | 0x42 => 4 + 4 * p8 q 0
  | 0x60 => 12
  | 0x61 => 8 + p16 q 4
  | 0x70 => 4 + p16 q 2
  | 0x71 | 0xD0 => 8
  | 0x81 => 32
  | 0xC0 => 12 + (if p8 q 1 = 1 then p32 q 8 else 0)
  | 0xE2 => 64
  | _ => 0

/-- The parameter bytes that must be 0 (Table 10.4). -/
def reservedBytes (op : Nat) (q : List Byte) : List Nat :=
  match op with
  | 0x02 | 0x03 => [5, 6, 7]
  | 0x04 | 0x90 => [1]
  | 0x10 => [13, 14, 15]
  | 0x23 | 0x30 | 0x91 | 0xB0 => [1, 2, 3]
  | 0x33 | 0x61 => [6, 7]
  | 0x41 | 0x42 => [1, 2, 3] ++ (if op = 0x41 then (List.range (p8 q 0)).map fun i => 7 + 4 * i
      else (List.range (p8 q 0)).map fun i => 7 + 4 * i)
  | 0x43 | 0x62 | 0x63 | 0x64 | 0x83 | 0xA0 | 0xC0 => [2, 3]
  | 0xD0 => [1, 5, 6, 7]
  | _ => []

/-- The packet checks of R268: the DETAIL of the first that fails, the offset of the faulty packet byte. -/
def packetFault (p : List Byte) : Option Nat :=
  let q := pktParams p
  let op := pktOpcode p
  if p.length ≠ 8 + paramLen op q then some 0xFFFF
  else if 1 < pktFlags p then some 1
  else if pktFlags p % 2 = 0 ∧ pktExpiry p ≠ 0 then [4, 5, 6, 7].find? fun i => p8 p i != 0
  else if op = 0x10 ∧ 8 ≤ p8 q 12 then some 20
  else ((reservedBytes op q).find? fun i => p8 q i != 0).map (· + 8)

/-- The place of a sequence number in a window about EXPECT. -/
def seqPlace (expect seq : Nat) : Nat := (seq + 65536 + 32768 - expect) % 65536

/-- An entry as it stands once answered: it keeps up to 32 bytes of results (R278), and notes where they were more. -/
def Entry.kept (e : Entry) : Entry :=
  { e with st := .answered, results := if e.results.length ≤ 32 then e.results else [], lost := decide (32 < e.results.length) }

/-- The packet is a broadcast write where its destination die is `d` (R20): a WRITE outside plane 3 whose address has DIE = 7, sent to
another die than SD7. -/
def broadcastPacket (d : Die) (p : List Byte) : Bool :=
  pktOpcode p == 0x03 && decide (d ≠ 7) && field p 8 4 / 0x8000000 % 4 != 3 && field p 8 4 / 0x20000000 % 8 == 7

/-- DIEMASK of an answer (Table 10.2): of a broadcast write the dies `done` that executed it, else the bit of the addressed die. -/
def dieMask (d : Die) (p : List Byte) (done : Nat) : Nat := if broadcastPacket d p then done else 2 ^ d.val

/-- A broadcast write (R20): a WRITE that reaches several dies outside plane 3. -/
def broadcastEntry (e : Entry) : Bool := pktOpcode e.packet == 0x03 && field e.packet 8 4 / 0x8000000 % 4 != 3

/-- A module-common write (R21): it is applied in the master before any other die. -/
def commonEntry (e : Entry) : Bool := e.relay && !(broadcastEntry e) && pktOpcode e.packet != 0xE3

/-- The codes of effects that no opcode has: a field that a refused write records, a read's mark, an outcome of a relayed write. -/
def effNote : Nat := 0x100
def effMark : Nat := 0x101
def effOutcome : Nat := 0x102

/-- What a refused write records, as effects. -/
def noteEffects (l : List (Nat × Fld × Nat)) : List Effect :=
  l.map fun n => .act effNote (leBytes 4 n.1 ++ leBytes 1 n.2.1.lo ++ leBytes 1 n.2.1.w ++ leBytes 4 n.2.2)

/-- The parameters of the effect that returns an outcome: destination die, SEQ, status and DETAIL. -/
def outcomeBytes (dst : Die) (seq st det : Nat) : List Byte := leBytes 1 dst.val ++ leBytes 2 seq ++ leBytes 1 st ++ leBytes 2 det

/-- An entry with the outcome of one more die: of a broadcast write the status kept is that of the lowest-numbered die that failed (R20);
of another one it stays the destination's. -/
def Entry.withOutcome (e : Entry) (src : Die) (status detail : Nat) : Entry :=
  let failed := allDies.find? fun k => e.seenMask.testBit k.val && !(e.doneMask.testBit k.val)
  let worse := broadcastEntry e && status != 0 && (match failed with | none => true | some k => decide (src < k))
  { e with
    seenMask := e.seenMask ||| 2 ^ src.val
    doneMask := if status = 0 then e.doneMask ||| 2 ^ src.val else e.doneMask
    status := if worse then status else e.status
    detail := if worse then detail else e.detail }

namespace Chip

/-- EXPECT of a die (R277). -/
def expect (s : Chip) (d : Die) : Nat := s.get d JNL_STAT JNL_STAT.EXPECT

/-- The journal structure of a die changed. -/
def updJnl (s : Chip) (d : Die) (f : JnlX → JnlX) : Chip := s.upd d fun x => { x with jnl := f x.jnl }

/-- The entries of a die's journal of the present session with a SEQ. -/
def entry? (s : Chip) (d : Die) (seq : Nat) : Option Entry :=
  (s.die d).jnl.entries.find? fun e => e.seq == seq && e.session == s.get d MOD_SESSION MOD_SESSION.SESSION

/-- An entry of a die changed. -/
def updEntry (s : Chip) (d : Die) (seq : Nat) (f : Entry → Entry) : Chip :=
  let ses := s.get d MOD_SESSION MOD_SESSION.SESSION
  s.updJnl d fun j => { j with entries := j.entries.map fun e => if e.seq == seq && e.session == ses then f e else e }

/-- A held entry waits behind a missing SEQ (R284): of the sequence numbers from EXPECT up to its own, the journal does not hold every one. -/
def gapBefore (s : Chip) (d : Die) (e : Entry) : Bool :=
  let off := fun (o : Entry) => (o.seq + 65536 - s.expect d) % 65536
  let held := (s.die d).jnl.entries.filter fun o => o.session == e.session && decide (off o < off e)
  e.st == .held && decide (held.length < off e)

/-- OPEN and GAPWAIT follow the entries (Table 10.14); GAPTO runs from the moment that a gap opens (R284). -/
def showJournal (s : Chip) (d : Die) : Chip :=
  let es := (s.die d).jnl.entries
  let gap := es.any fun e => s.gapBefore d e
  ((s.put d JNL_STAT JNL_STAT.OPEN (es.filter fun e => e.st != .answered).length).putB d JNL_STAT JNL_STAT.GAPWAIT gap).cond (!gap)
    fun s => s.updJnl d fun j => { j with gapStrokes := 0 }

/-- The die that guards die `d` (R32, R280): the die above, for the top die the die below; with that lost, the nearest live
die above, and with none above the nearest below. -/
def guardianOf (s : Chip) (d : Die) : Option Die :=
  let up := (allDies.filter fun k => d < k && s.alive d k)
  let down := (allDies.filter fun k => k < d && s.alive d k).reverse
  (up ++ down).head?

/-- JNL_GUARD of a die follows its guardian and the mirrors it holds (Table 10.15). -/
def showGuard (s : Chip) (d : Die) : Chip :=
  let wards := (allDies.filter fun w => w != d && s.fitted w && s.guardianOf w == some d)
  let mask := wards.foldl (fun m w => m + 2 ^ w.val) 0
  let lost := allDies.filter fun w => (s.get d JNL_GUARD JNL_GUARD.LOSTW).testBit w.val
  let all := mask ||| s.get d JNL_GUARD JNL_GUARD.LOSTW
  let low := ((allDies.find? fun w => all.testBit w.val).map (·.val)).getD 0
  let t := match s.guardianOf d with
    | some g => ((s.put d JNL_GUARD JNL_GUARD.GUARDIAN g.val).put d JNL_GUARD JNL_GUARD.GVALID 1).put d JNL_STAT
        JNL_STAT.NOGUARD 0
    | none => (s.put d JNL_GUARD JNL_GUARD.GVALID 0).put d JNL_STAT JNL_STAT.NOGUARD 1
  (((t.put d JNL_GUARD JNL_GUARD.WARDS all).put d JNL_GUARD JNL_GUARD.WARD low).putB d JNL_GUARD JNL_GUARD.WLOST
    (lost != [])).putSat d JNL_GUARD JNL_GUARD.MIRRORS (s.die d).jnl.mirrors.length

/-- EXPECT advances past an entry that is mirrored and past the held entries that follow it without a gap, which become
ACCEPTED (Table 10.5). -/
def advance (s : Chip) (d : Die) : Nat → Chip
  | 0 => s
  | n + 1 =>
    match s.entry? d (s.expect d) with
    | some e =>
      if e.mirrored && (e.st == .held || e.st == .accepted) then
        advance ((s.updEntry d e.seq fun e => { e with st := .accepted }).put d JNL_STAT JNL_STAT.EXPECT
          ((e.seq + 1) % 65536)) d n
      else s
    | none => s

/-- The acknowledged mirror of an entry: it is accepted in its order (R280). -/
def acceptMirrored (s : Chip) (d : Die) (seq : Nat) : Chip :=
  ((s.updEntry d seq fun e => { e with mirrored := true }).advance d 65).showJournal d

/-- The journal with room for one more entry: a free place, or the ANSWERED entry with the oldest SEQ given up (R278). -/
def makeRoom (s : Chip) (d : Die) : Option Chip :=
  let es := (s.die d).jnl.entries
  if es.length < 64 then some s else
    let old := (es.filter fun e => e.st == .answered).foldl (fun (acc : Option Entry) e =>
      match acc with
      | none => some e
      | some a => if seqPlace (s.expect d) e.seq < seqPlace (s.expect d) a.seq then some e else some a) none
    old.map fun e => s.updJnl d fun j => { j with entries := j.entries.erase e }

/-- A command journalled (R279): ACCEPTED or HELD once mirrored; with no live guardian, at once (R280). -/
def journal (s : Chip) (d : Die) (f : FrameIn) (st : EntryState) : Chip :=
  let e : Entry := ⟨pktSession f.payload, f.seq, f.tag, f.smod, f.payload, st, false, 0, 0, [], false, [], false, 0, 0, false,
    true, none, 0⟩
  let t := s.updJnl d fun j => { j with entries := j.entries ++ [e] }
  if (t.guardianOf d).isSome then t.showJournal d else (t.showGuard d).acceptMirrored d f.seq

/-- The DUPLICATE answer to a copy of an answered entry (Tables 10.3, 10.5). DESIGN CHOICE: with the entry gone, the dies that executed a
broadcast write are no longer known, and DIEMASK is free. -/
def answerDuplicate (s : Chip) (d : Die) (f : FrameIn) (e : Option Entry) : Chip :=
  let t := s.inc d JNL_CNT JNL_CNT.DUPS
  match e with
  | some e => t.respond d d f.smod f.tag f.seq (pktOpcode f.payload) 0x02 (e.status + 256 * e.lost.toNat)
      (dieMask d f.payload e.doneMask) e.results
  | none => (t.respond d d f.smod f.tag f.seq (pktOpcode f.payload) 0x02 0x01FF
      (dieMask d f.payload (Config.freeNat s.free % 256)) []).cond (broadcastPacket d f.payload) fun s => s.draw

/-- A not-accepted answer, counted (Tables 10.3, 10.15). -/
def refuseCopy (s : Chip) (d : Die) (f : FrameIn) (status detail : Nat) : Chip :=
  (s.inc d JNL_CNT JNL_CNT.REFUSED).respond d d f.smod f.tag f.seq (pktOpcode f.payload) status detail (dieMask d f.payload 0) []

/-- Table 10.5, top to bottom. -/
def arrive (s : Chip) (d : Die) (f : FrameIn) : Chip :=
  let off := (f.seq + 65536 - s.expect d) % 65536
  match s.entry? d f.seq with
  | some e => if e.st == .answered then s.answerDuplicate d f (some e) else s
  | none =>
    if 32768 ≤ off then s.answerDuplicate d f none
    else if 64 ≤ off then s.refuseCopy d f 0x31 (s.expect d)
    else match s.makeRoom d with
      | none => s.refuseCopy d f 0x32 (s.expect d)
      | some t => t.journal d f (if off = 0 then .accepted else .held)

/-- A frame that passes the checks of R252 as a receiver of commands makes them. -/
def validCmd (f : FrameIn) : Bool := f.endT && f.codeOk && f.crcOk && frameFormatOk f false && f.ftype == 2

/-- The mark of a command copy answered for a lost ward, by the ring of the copy: its die and its session, so that with the SEQ it names one
command (R287). -/
def wardKey (f : FrameIn) (ring : Bool) : Nat := 16 + 16 * pktSession f.payload + 2 * (f.ddie % 8) + ring.toNat

/-- A command for another die of the module: the master answers for a die that is not fitted (R20), a guardian for its lost ward
(R32, R287), once for the two ring copies of a command: the copy of the other ring is taken with the one answered, and a copy of the same
ring is a new arrival (R259); every copy of a PING is answered (R274). DESIGN CHOICE: the master answers every
ring copy of a command to a die that is not fitted; the host takes the equal answers for one (R259; log entry 132). -/
def foreignCmd (s : Chip) (d : Die) (f : FrameIn) : Chip :=
  let op := pktOpcode f.payload
  let dst : Die := Fin.ofNat 8 f.ddie
  if !(s.fitted dst) then
    if s.master d == d then s.respond d dst f.smod f.tag f.seq op 0x10 0xFFFF (dieMask dst f.payload 0) [] else s
  else if !((s.get d JNL_GUARD JNL_GUARD.LOSTW).testBit dst.val) then s
  else if op != 0x01 && s.takenBefore d f.smod (wardKey f (!f.ringb)) f.seq then s.dropTaken d f.smod (wardKey f (!f.ringb)) f.seq
  else
    ((s.noteTaken d f.smod (wardKey f f.ringb) f.seq).inc d JNL_CNT JNL_CNT.STRANDED).respond d dst f.smod f.tag f.seq op 0x18 dst.val
      (dieMask dst f.payload 0) []

/-- CMD_FRAME_ARRIVAL (R20, R274, R276, R279, R287, R377). PING, ENUMERATE and the ring-wide opcodes are handled by their own rows. A ring-wide
frame of another opcode is counted once for its two ring copies (R259). -/
def cmdFrameArrival (d : Die) (f : FrameIn) (s : Chip) : Chip :=
  let op := pktOpcode f.payload
  if !(s.fitted d && s.on d 0 && s.linked d && s.address d != 0 && validCmd f && (s.die d).pwr.gasp.isNone) then s
  else if !(s.frameLinkOk d f) then s.frameLinkFail d f
  else if f.dmod = 127 then
    if kindB op || s.takenBefore d f.smod 2 f.seq then s else (s.noteTaken d f.smod 2 f.seq).inc d JNL_CNT JNL_CNT.REFUSED
  else if f.dmod ≠ s.address d ∨ op = 0x01 ∨ op = 0x04 then s
  else if f.ddie ≠ d.val then s.foreignCmd d f
  else if (s.die d).boot.stuck && op != 0x80 then s
  else if pktSession f.payload ≠ s.get d MOD_SESSION MOD_SESSION.SESSION then s.refuseCopy d f 0x30 0
  else s.arrive d f

/-- The entry's turn to execute has come (R279, R281): it is accepted and mirrored, and every lower SEQ is answered. -/
def isTurn (s : Chip) (d : Die) (e : Entry) : Bool :=
  (e.st == .accepted || e.st == .executing) && e.mirrored && (s.die d).jnl.entries.all fun o =>
    o.st == .answered || decide (seqPlace (s.expect d) e.seq ≤ seqPlace (s.expect d) o.seq)

/-- The answer of an entry goes out, and the entry is ANSWERED (R281 step 5); the guardian's mirror is released. -/
def answerEntry (s : Chip) (d : Die) (e : Entry) (mask : Nat) : Chip :=
  let show_ := e.status ≤ 0x02 || kindI (pktOpcode e.packet)
  let t := s.respond d d e.smod e.tag e.seq (pktOpcode e.packet) e.status e.detail mask (if show_ then e.results else [])
  let u := (t.updEntry d e.seq fun _ => e.kept).showJournal d
  match u.guardianOf d with
  | none => u
  | some g => (u.updJnl g fun j => { j with mirrors := j.mirrors.filter fun m => !(m.1 == d && m.2.seq == e.seq) }).showGuard g

/-- What a write that reached several dies is answered with, and DIEMASK. Of a broadcast write the status is OK only if every fitted die
executed every item, else that of the lowest-numbered die that did not, STRANDED for a die that is lost (R20); of another one it is the
destination's (R21). -/
def relayVerdict (s : Chip) (d : Die) (e : Entry) : Entry × Nat :=
  if !(broadcastEntry e) then (e, 2 ^ d.val) else
  match allDies.find? fun k => s.fitted k && !(e.doneMask.testBit k.val) with
  | none => (e, e.doneMask)
  | some k => (if e.seenMask.testBit k.val then e else { e with status := 0x18, detail := k.val }, e.doneMask)

/-- The outcomes of a write of die `d`, dropped once it is answered. -/
def forgetOutcomes (s : Chip) (d : Die) (seq : Nat) : Chip :=
  s.each allDies fun k s => s.updJnl k fun j => { j with outcomes := j.outcomes.filter fun o => !(o.1 == d && o.2.1 == seq) }

/-- The answer to a write that reached several dies. -/
def answerRelay (s : Chip) (d : Die) (e : Entry) : Chip :=
  (s.answerEntry d (s.relayVerdict d e).1 (s.relayVerdict d e).2).forgetOutcomes d e.seq

/-- The formed effects of an entry are due at the next stroke edge. -/
def effectsDue (s : Chip) (d : Die) (e : Entry) : Chip :=
  (s.updJnl d fun j => { j with due := j.due ++ e.effects }).updEntry d e.seq fun e => { e with effects := [] }

/-- The turn of a die other than the master to apply a module-common write of die `d` (R21): the master has applied it, or is lost. -/
def masterDone (s : Chip) (d : Die) (e : Entry) : Bool :=
  e.seenMask.testBit (s.master d).val || !(s.liveDies.contains (s.master d))

/-- The destination of a released module-common write applies it itself once its turn has come: at once as the master, else after it. -/
def ownTurn (s : Chip) (d : Die) (seq : Nat) : Chip :=
  match s.entry? d seq with
  | none => s
  | some e =>
    if commonEntry e && e.released && e.st == .committed && (s.master d == d || s.masterDone d e) then s.effectsDue d e else s

/-- The destination has applied its own part of a module-common write; the answer goes out once every live die has (R21). -/
def joinOutcome (s : Chip) (d : Die) (seq : Nat) : Chip :=
  match s.entry? d seq with
  | none => s
  | some e =>
    let e' := { e with seenMask := e.seenMask ||| 2 ^ d.val }
    let t := s.updEntry d seq fun _ => e'
    if e.st == .committed && s.liveDies.all fun k => e'.seenMask.testBit k.val then t.answerRelay d e' else t

/-- A committed entry that the guardian has acknowledged (R281 steps 4 and 5): its effects take place at the next stroke
edge; its answer goes out, but for a write that other dies still have to apply (R283). -/
def releaseEntry (s : Chip) (d : Die) (e : Entry) : Chip :=
  let t := s.updEntry d e.seq fun e => { e with released := true }
  if commonEntry e then t.ownTurn d e.seq
  else
    let u := t.effectsDue d e
    if !e.relay then u.answerEntry d e (dieMask d e.packet e.doneMask)
    else if pktOpcode e.packet == 0xE3 || u.liveDies.any fun k => k != d then u
    else u.answerRelay d e

/-- An entry committed with its status, results and effects (R281 step 3). A die with no live guardian releases it at once
(R280). -/
def commit (s : Chip) (d : Die) (e : Entry) (status detail : Nat) (results : List Byte) (effects : List Effect)
    (relay : Bool) (mask : Nat) : Chip :=
  let waited := status == 0 && e.waited != 0
  let e' := { e with
    st := .committed, status := if waited then 0x01 else status, detail := if waited then e.waited else detail, results := results
    effects := effects, relay := relay, doneMask := mask, seenMask := 2 ^ d.val, waitFrom := none }
  let e' := if commonEntry e' then { e' with
    seenMask := 0, effects := effects ++ [.act effOutcome (outcomeBytes d e.seq 0 0)] } else e'
  let ran := decide (status < 0x10)
  let t := (s.updEntry d e.seq fun _ => e').cond ran fun s =>
    (s.put d CMD_STAT CMD_STAT.LASTOP (pktOpcode e.packet)).updJnl d fun j => { j with lastSeq := e.seq }
  if (t.guardianOf d).isSome then t.showJournal d else t.releaseEntry d e'

/-- The results of a command that does nothing: of an item command the number of items done, 0 (R272). -/
def noResults (op : Nat) : List Byte := if kindI op then [0] else []

/-- An entry settled with a status and no effect (R281). -/
def settle (s : Chip) (d : Die) (e : Entry) (status detail : Nat) : Chip :=
  s.commit d e status detail (noResults (pktOpcode e.packet)) [] false 0

/-- The lifecycle state code (R432). -/
def lifecycle (s : Chip) (d : Die) : Nat := s.get d LCY_STATE LCY_STATE.STATE

/-- The checks of R281 step 1 up to the firmware: the status and DETAIL of the first that fails; `none` with `false` where the
entry must wait for the command loop (R273). -/
def frontCheck (s : Chip) (d : Die) (e : Entry) : Option (Nat × Nat) × Bool :=
  let op := pktOpcode e.packet
  let late := toSigned ((s.stroke d + 2 ^ 32 - pktExpiry e.packet) % 2 ^ 32) 32
  let fw := s.get d CMD_STAT CMD_STAT.FWSTATE
  if !e.crcOk then (some (0x19, 0), true)
  else if !(opcodes.contains op) then (some (0x11, 0), true)
  else match packetFault e.packet with
    | some off => (some (0x10, off), true)
    | none =>
      if pktFlags e.packet % 2 = 1 ∧ 0 < late then (some (0x17, min late.toNat 0xFFFF), true)
      else if kindH op then (none, true)
      else if fw ≠ 3 then (some (0x15, fw), true)
      else (none, s.bit d CMD_STAT CMD_STAT.LOOP && s.on d 5 && !(s.resting d 5))

/-- Whether a block is held by a self-test that SELFTEST_RUN started (R271: BUSY_SELFTEST). -/
def heldBySelftest (s : Chip) (d : Die) (block : Nat) : Bool := (s.die d).bist.held.contains block

/-- The blocks of a logic partition (Table 16.1). -/
def partBlocks (p : Nat) : List Nat :=
  [[0x01], [0x02], [0x03], [0x04], [0x04], [0x05, 0x06], [0x07], [0x07], [0x10], [0x10], [0x11], [0x11], [0x12, 0x13], [0x14],
    [0x20, 0x21], [0x22], [0x23, 0x24], [0x25], [0x26], [0x27, 0x28], [], [], [], [0x2A]].getD p []

/-- The stroke has a BIST window with a periodic slice of a partition of the block (R282, Table 02.1); in a programmed run the periodic slices
pause (R418), and its blocks are held instead. -/
def slicedNow (s : Chip) (d : Die) (block : Nat) : Bool :=
  (s.die d).bist.run.isNone && (s.slicing d).any fun p => (partBlocks p).contains block

/-- The wait of an entry for a self-test slice that has ended, in strokes (R282): 1 or 2. -/
def strokesWaited (s : Chip) (d : Die) (start : Nat) : Nat := max 1 (min 2 ((s.stroke d + 2 ^ 48 - start) % 2 ^ 48))

/-- The access of an entry to its target block falls within MCLK cycles 320 to 909 of a stroke in which the block is sliced (R282). The
cycle of the access is free. -/
def meetsSlice (s : Chip) (d : Die) (block : Nat) (e : Entry) : Bool :=
  let c := Config.freeNat s.free % 1024
  e.waitFrom.isNone && s.slicedNow d block && decide (320 ≤ c) && decide (c ≤ 909)

/-- An entry that has begun to wait goes on waiting while the slice can still run: through the stroke in which it began (R282). -/
def stillWaits (s : Chip) (d : Die) (block : Nat) (e : Entry) : Bool := e.waitFrom == some (s.stroke d) && s.slicedNow d block

/-- What an opcode's own parameters come to (R281 steps 1 and 2): a settled status, the effects and results, or that it has to wait.
`begin_` makes the entry EXECUTING; it commits later. -/
inductive Formed where
  | refuse (status detail : Nat)
  | items (status detail : Nat) (done : Nat) (effects : List Effect)
  | ok (results : List Byte) (effects : List Effect)
  | relay (status detail : Nat) (done mask : Nat) (effects : List Effect)
  | failed (status detail : Nat) (effects : List Effect)
  | begin_
  | wait

/-- The checks of R281 step 1 fail on the lifecycle or the opcode's own parameters, before BUSY_SELFTEST is asked. An interlock
(REFUSED_INTERLOCK) is the answer of the target block, and comes after it; so does the failure of an item after the first, whose earlier
items have accessed the block. -/
def Formed.ownFault : Formed → Bool
  | .items st _ n _ => decide (st ≠ 0) && decide (st ≠ 0x12) && decide (n = 0)
  | .refuse st _ | .failed st _ _ => decide (st ≠ 0) && decide (st ≠ 0x12)
  | _ => false

/-- An entry settled by a check of R281 step 1; a failed entry CRC is counted and reported (Table 10.15, R278). -/
def settleFront (s : Chip) (d : Die) (e : Entry) (st det : Nat) : Chip :=
  (s.cond (st == 0x19) fun s => (s.inc d JNL_CNT JNL_CNT.CRCERR).report d 153).settle d e st det

/-- An entry goes on from what its opcode has formed (R281 steps 2 and 3). -/
def finishForm (s : Chip) (d : Die) (e : Entry) (f : Formed) : Chip :=
  match f with
  | .refuse st det => s.settle d e st det
  | .ok res eff => s.commit d e 0 0 res eff false 0
  | .items st det n eff => s.commit d e st det (leBytes 1 n) eff false 0
  | .relay st det n mask eff => s.commit d e st det (if kindI (pktOpcode e.packet) then leBytes 1 n else []) eff true mask
  | .failed st det eff => s.commit d e st det (noResults (pktOpcode e.packet)) eff false 0
  | .begin_ => s.updEntry d e.seq fun _ => { e with st := .executing }
  | .wait => s

/-- The registers held in data RAM (R44): the FINE and LINE results (Table 02.1) and the current senses that Table 07.3 marks as data-RAM
reads (DEDUCED, assumption 166). -/
def inDataRam (a : Nat) : Bool :=
  ((List.range 18).any fun c => a == CFE_FINE c || a == CFE_LINE c) || a == CXS_I 0 || a == CXS_I 1

/-- A READ or a WRITE makes one access of the command port for each word held in data RAM (R44). -/
def portAccess (s : Chip) (d : Die) (e : Entry) : Chip :=
  if pktOpcode e.packet ≠ 0x02 ∧ pktOpcode e.packet ≠ 0x03 then s else
  let q := pktParams e.packet
  let words := (List.range (p8 q 4)).filter fun i => inDataRam (p32 q 0 % 0x20000000 + 4 * i)
  s.upd d fun x => { x with eng := { x.eng with port := x.eng.port + words.length } }

/-- An entry that nothing settles takes its access to the target block: at once, or after a self-test slice (R282). -/
def accessBlock (s : Chip) (d : Die) (block : Nat) (e : Entry) (f : Formed) : Chip :=
  if s.meetsSlice d block e then (s.updEntry d e.seq fun _ => { e with waitFrom := some (s.stroke d) }).draw
  else if s.stillWaits d block e then s
  else
    let t := s.cond (e.waitFrom.isNone && s.slicedNow d block) fun s => s.draw
    (t.portAccess d e).finishForm d (match e.waitFrom with | some w => { e with waited := s.strokesWaited d w } | none => e) f

/-- An opcode executes its entry (R281): the turn, the checks in their order, the target block's self-test and its slices, and the commit
of what the opcode forms. Where the entry is not at its turn or has to wait, it stays as it is. -/
def executeEntry (s : Chip) (d : Die) (seq op block : Nat) (form : Chip → List Byte → Formed) : Chip :=
  if !(s.fitted d && s.on d 0 && ((s.die d).boot.done || ((s.die d).boot.stuck && op == 0x80))) then s else
  match s.entry? d seq with
  | none => s
  | some e =>
    if pktOpcode e.packet ≠ op ∨ e.st = .executing ∨ !(s.isTurn d e) then s else
    let inj := s.injected d 0x0D
    let s := s.cond inj fun s => s.useInjection d
    let e := if inj then { e with crcOk := false } else e
    match s.frontCheck d e with
    | (some (st, det), _) => s.settleFront d e st det
    | (none, false) => s
    | (none, true) =>
      match form s (pktParams e.packet) with
      | .wait => s
      | f =>
        if f.ownFault then s.finishForm d e f
        else if s.heldBySelftest d block then s.settle d e 0x13 block
        else s.accessBlock d block e f

/-- Settles an entry at its turn whose opcode no row of Table 10.4 lists (R272), after the check of its CRC (R278, R377). -/
def settleUnlisted (s : Chip) (d : Die) : Chip :=
  match (s.die d).jnl.entries.find? fun e => s.isTurn d e && !(opcodes.contains (pktOpcode e.packet)) with
  | some e =>
    let inj := s.injected d 0x0D
    (s.cond inj fun s => s.useInjection d).settleFront d e (if e.crcOk && !inj then 0x11 else 0x19) 0
  | none => s

end Chip

/-- CMD_FRAME_ARRIVAL (R279). -/
def execCmdFrameArrival (d : Die) (f : FrameIn) (s : State) : Host.Outcome State Fault Refusal :=
  s.run (Chip.cmdFrameArrival d f)

/-- JOURNAL_MIRROR_RECEIVED (R32, R280): the guardian stores the ward's entry. -/
def execJournalMirrorReceived (d ward : Die) (seq : Nat) (s : State) : Host.Outcome State Fault Refusal :=
  s.run fun c =>
    match c.entry? ward seq with
    | some e =>
      if c.on d 0 && c.guardianOf ward == some d then
        let others := (c.die d).jnl.mirrors.filter fun m => !(m.1 == ward && m.2.seq == seq)
        (c.updJnl d fun j => { j with mirrors := others ++ [(ward, e)] }).showGuard d
      else c
    | none => c

/-- MIRROR_ACK_RECEIVED (R280): the acknowledged entry is accepted in its order. -/
def execMirrorAckReceived (d : Die) (seq : Nat) (s : State) : Host.Outcome State Fault Refusal :=
  s.run fun c =>
    match c.guardianOf d with
    | some g => if (c.die g).jnl.mirrors.any fun m => m.1 == d && m.2.seq == seq then c.acceptMirrored d seq else c
    | none => c

/-- COMMIT_RECORD_RECEIVED (R281): the guardian stores the ward's status and results. -/
def execCommitRecordReceived (d ward : Die) (seq : Nat) (s : State) : Host.Outcome State Fault Refusal :=
  s.run fun c =>
    match c.entry? ward seq with
    | some e =>
      if e.st == .committed && c.guardianOf ward == some d then
        c.updJnl d fun j => { j with mirrors := j.mirrors.map fun m => if m.1 == ward && m.2.seq == seq then (ward, e) else m }
      else c
    | none => c

/-- SEQ_GAP_EVENT (R284): after GAPTO pages of waiting, and then every GAPTO pages. -/
def execSeqGapEvent (d : Die) (s : State) : Host.Outcome State Fault Refusal :=
  s.run fun c =>
    let dst := c.get d JNL_CFG JNL_CFG.GAPTO
    let held := (c.die d).jnl.entries.filter fun e => e.st == .held
    let low := held.foldl (fun m e => if seqPlace (c.expect d) e.seq < seqPlace (c.expect d) m then e.seq else m)
      ((held.head?.map (·.seq)).getD 0)
    if c.runs d && c.bit d JNL_STAT JNL_STAT.GAPWAIT && dst != 0 && decide (1024 * dst ≤ (c.die d).jnl.gapStrokes) then
      (c.event d 0x0140 (leBytes 2 (c.expect d) ++ leBytes 2 low ++ leBytes 1 d.val)).updJnl d fun j => { j with gapStrokes := 0 }
    else c

/-- RELAY_OUTCOME_RECEIVED (R20, R283): the destination die takes the outcome of another die; once every live die has
answered, the single RSP goes out with DIEMASK. The status of a broadcast write is that of the lowest-numbered die that did not execute
every item. After the master's outcome the destination applies a module-common write itself (R21). -/
def execRelayOutcomeReceived (d src : Die) (seq : Nat) (s : State) : Host.Outcome State Fault Refusal :=
  s.run fun c =>
    match c.entry? d seq, (c.die src).jnl.outcomes.find? fun o => o.1 == d && o.2.1 == seq with
    | some e, some o =>
      if !(e.st == .committed && e.relay && !(e.seenMask.testBit src.val)) then c
      else
        let e' := e.withOutcome src o.2.2.1 o.2.2.2
        let t := c.updEntry d seq fun _ => e'
        if (c.liveDies.all fun k => e'.seenMask.testBit k.val) && (pktOpcode e.packet != 0xE3 || e'.doneMask.testBit d.val) then
          t.answerRelay d e'
        else t.ownTurn d seq
    | _, _ => c

end Sys2Proof.Machine
end

