-- ==== Sys2Proof/Machine/Check.lean ====
section
/-! DEFINITION. The check-value unit (R291 to R293): runs over a memory range or a payload, and the CHECK opcode. -/
namespace Sys2Proof.Machine

/-- A byte of a sparse memory whose unlisted bytes are 0. -/
def ramGet : List (Nat × Byte) → Nat → Byte
  | [], _ => 0
  | (k, b) :: rest, a => if k = a then b else ramGet rest a

/-- A byte written to a sparse memory in its canonical form: addresses rising, no byte that is 0. -/
def ramSet : List (Nat × Byte) → Nat → Byte → List (Nat × Byte)
  | [], a, b => if b = 0 then [] else [(a, b)]
  | (k, c) :: rest, a, b =>
    if a < k then (if b = 0 then (k, c) :: rest else (a, b) :: (k, c) :: rest)
    else if k = a then (if b = 0 then rest else (a, b) :: rest)
    else (k, c) :: ramSet rest a b

/-- The canonical form of a RAM: addresses strictly rising, and no byte that is 0. -/
def ramWf : List (Nat × Byte) → Bool
  | [] => true
  | (k, b) :: rest => (b != 0) && rest.all (fun e => decide (k < e.1)) && ramWf rest

/-- Bytes written from an address on. -/
def ramStore (m : List (Nat × Byte)) (a : Nat) : List Byte → List (Nat × Byte)
  | [] => m
  | b :: rest => ramStore (ramSet m a b) (a + 1) rest

/-- The regions of the die byte address (R293): base and size. -/
def regions : List (Nat × Nat) := [(0, 0x20000), (0x100000, 0x10000), (0x200000, 0xC000)]

/-- A range lies within one region, and its length is 1 to 131,072 (R293, Table 10.17). -/
def rangeOk (a n : Nat) : Bool :=
  decide (1 ≤ n) && decide (n ≤ 131072) && regions.any fun r => decide (r.1 ≤ a) && decide (a + n ≤ r.1 + r.2)

namespace Chip

/-- The byte at a die byte address: code RAM is modelled from the first LOAD_BEGIN on, which clears it (R301); what it holds before, and
the contents of data and retention RAM, are free values. -/
def memByte (s : Chip) (d : Die) (a : Nat) : Byte :=
  if a < 0x20000 ∧ s.get d BOOT_LOAD BOOT_LOAD.LOADID ≠ 0 then ramGet (s.die d).boot.code a else Config.ramByte a s.free

/-- A 64-bit value held in two CHK registers. -/
def pair64 (s : Chip) (d : Die) (lo hi : Nat) : Nat := (s.reg d lo).toNat + 2 ^ 32 * (s.reg d hi).toNat

/-- The parameters are good (R292): width 8 to 64, and no value with a bit at or above it. -/
def chkParamsOk (s : Chip) (d : Die) : Bool :=
  let w := s.get d CHK_CFG CHK_CFG.WIDTH
  decide (8 ≤ w) && decide (w ≤ 64) && decide (s.pair64 d CHK_POLY_LO CHK_POLY_HI < 2 ^ w)
    && decide (s.pair64 d CHK_INIT_LO CHK_INIT_HI < 2 ^ w) && decide (s.pair64 d CHK_XOR_LO CHK_XOR_HI < 2 ^ w)

/-- The result over a byte string with the parameters as they stand (R292). -/
def chkResult (s : Chip) (d : Die) (l : List Byte) : Nat :=
  crcOf (s.get d CHK_CFG CHK_CFG.WIDTH) (s.pair64 d CHK_POLY_LO CHK_POLY_HI) (s.pair64 d CHK_INIT_LO CHK_INIT_HI)
    (s.pair64 d CHK_XOR_LO CHK_XOR_HI) (s.bit d CHK_CFG CHK_CFG.REFIN) (s.bit d CHK_CFG CHK_CFG.REFOUT) l

/-- A run begins over a range or a payload, for the firmware or for the host. -/
def chkRun (s : Chip) (d : Die) (fw : Bool) (a n : Nat) (payload : Option (List Byte)) (serves : Option Nat) : Chip :=
  ((s.put d CHK_STAT CHK_STAT.BUSY 1).putB d CHK_STAT CHK_STAT.OWNER fw).upd d fun x =>
    { x with chk := { x.chk with addr := a, len := n, payload := payload, serves := serves } }

/-- A run that registers ask for; a parameter or range error sets ERR and nothing runs (R292, R293). -/
def chkStart (s : Chip) (d : Die) (fw : Bool) (a n : Nat) : Chip :=
  if !(s.chkParamsOk d) || !(rangeOk a n) then s.put d CHK_STAT CHK_STAT.ERR 1 else s.chkRun d fw a n none none

/-- A write of CHK_CTRL.GO (R291): the run starts, or waits while the unit is busy. -/
def chkGo (d : Die) (fw : Bool) (s : Chip) : Chip :=
  if !(s.runsOn d 5) then s
  else if s.bit d CHK_STAT CHK_STAT.BUSY then s.upd d fun x => { x with chk := { x.chk with waiting := x.chk.waiting ++ [fw] } }
  else s.chkStart d fw (s.reg d CHK_ADDR).toNat (s.get d CHK_LEN CHK_LEN.LEN)

/-- The next waiting job starts with the registers as they stand. -/
def chkNext (s : Chip) (d : Die) : Chip :=
  match (s.die d).chk.waiting with
  | [] => s
  | fw :: rest => (s.upd d fun x => { x with chk := { x.chk with waiting := rest } }).chkStart d fw (s.reg d CHK_ADDR).toNat
      (s.get d CHK_LEN CHK_LEN.LEN)

/-- The CHECK command that the run served commits with its result (R281: CHECK commits when its result is ready). -/
def chkAnswer (s : Chip) (d : Die) (serves : Option Nat) (result : Option Nat) : Chip :=
  match serves with
  | none => s
  | some seq =>
    match s.entry? d seq, result with
    | some e, some r => s.commit d e 0 0 (leBytes 8 r) [] false 0
    | some e, none => s.settle d e 0x10 0xFFFF
    | none, _ => s

/-- A write of CHK_CTRL.ABORT (R291): the run ends and its result is not valid. -/
def chkAbort (d : Die) (s : Chip) : Chip :=
  if !(s.runsOn d 5 && s.bit d CHK_STAT CHK_STAT.BUSY) then s else
  let t := (s.put d CHK_STAT CHK_STAT.BUSY 0).upd d fun x => { x with chk := { x.chk with serves := none } }
  (t.chkAnswer d (s.die d).chk.serves none).chkNext d

/-- The parameter set of a SET of Table 10.11: CHK_CFG, POLY, INIT, XOROUT. -/
def chkSet (n : Nat) : Option (Nat × Nat × Nat × Nat) :=
  match n with
  | 1 => some (0x1A0, 0x1EDC6F41, 0xFFFFFFFF, 0xFFFFFFFF)
  | 2 => some (0x010, 0x1021, 0xFFFF, 0)
  | 3 => some (0x008, 0x2F, 0xFF, 0)
  | _ => none

/-- A parameter set written into the CHK registers, where it remains (R293). -/
def loadSet (s : Chip) (d : Die) (n : Nat) : Chip :=
  match chkSet n with
  | none => s
  | some (cfg, poly, init, xor) =>
    ((((((s.setReg d CHK_CFG (BitVec.ofNat 32 cfg)).setReg d CHK_POLY_LO (BitVec.ofNat 32 poly)).setReg d CHK_POLY_HI 0).setReg
      d CHK_INIT_LO (BitVec.ofNat 32 init)).setReg d CHK_INIT_HI 0).setReg d CHK_XOR_LO (BitVec.ofNat 32 xor)).setReg d
      CHK_XOR_HI 0

/-- The first faulty byte among the parameters of CHECK, as a packet offset (Table 10.4, R293). -/
def checkFault (q : List Byte) : Option Nat :=
  if 3 < p8 q 0 then some 8
  else if 1 < p8 q 1 then some 9
  else if p8 q 1 = 1 ∧ p32 q 4 ≠ 0 then some 12
  else if p8 q 1 = 1 ∧ (p32 q 8 < 1 ∨ 492 < p32 q 8) then some 16
  else none

/-- The payload of CHECK with SRC = 1. -/
def checkPayload (q : List Byte) : Option (List Byte) := if p8 q 1 = 1 then some ((q.drop 12).take (p32 q 8)) else none

/-- CHECK as a command forms it: a busy unit makes it wait (R291), and so do effects of earlier commands that are not yet due, since the
unit works with the registers themselves; a parameter set or a range that is not good sets ERR and settles it (R292, R293). -/
def formCheck (s : Chip) (d : Die) (q : List Byte) : Formed :=
  match checkFault q with
  | some off => .refuse 0x10 off
  | none =>
    if s.bit d CHK_STAT CHK_STAT.BUSY || (s.die d).jnl.due != [] then .wait
    else if (s.loadSet d (p8 q 0)).chkParamsOk d && ((checkPayload q).isSome || rangeOk (p32 q 4) (p32 q 8)) then .begin_
    else .failed 0x10 0xFFFF (noteEffects [(CHK_STAT, CHK_STAT.ERR, 1)])

/-- CHECK (R291 to R293): at its turn the command loads its set and starts the unit; it commits when the result is ready. -/
def check (d : Die) (seq : Nat) (s : Chip) : Chip :=
  let began := fun (s : Chip) => (s.entry? d seq).any fun e => e.st == .executing
  let t := s.executeEntry d seq 0xC0 0x22 fun t q => t.formCheck d q
  if began s || !(began t) then t else
    let q := ((t.entry? d seq).map fun e => pktParams e.packet).getD []
    (t.loadSet d (p8 q 0)).chkRun d false (p32 q 4) (p32 q 8) (checkPayload q) (some seq)

end Chip

/-- CHK_GO (R291). -/
def execChkGo (d : Die) (byFirmware : Bool) (s : State) : Host.Outcome State Fault Refusal := s.run (Chip.chkGo d byFirmware)

/-- CHK_ABORT (R291). -/
def execChkAbort (d : Die) (s : State) : Host.Outcome State Fault Refusal := s.run (Chip.chkAbort d)

/-- CHECK (R291). -/
def execCheck (d : Die) (seq : Nat) (s : State) : Host.Outcome State Fault Refusal := s.run (Chip.check d seq)

end Sys2Proof.Machine
end

