-- ==== Sys2Proof/Machine/Crypto.lean ====
section
/-! DEFINITION. The two functions that R306 and R435 name by their standards: SHA-256, and ECDSA verification on the P-256 curve. PRESUMED:
their constants and steps are those of the standards that carry these names; the spec states none (assumption 4). -/
namespace Sys2Proof.Machine

/-- The value of a byte string, its first byte the most significant. -/
def beValue (l : List Byte) : Nat := leValue l.reverse

/-! ### SHA-256 -/

/-- The largest root r of degree k with r^k at most n, from `b` bits down: what is left of the search above a root found so far. -/
def rootBelow (k n : Nat) : Nat → Nat → Nat
  | 0, r => r
  | b + 1, r => rootBelow k n b (if (r + 2 ^ b) ^ k ≤ n then r + 2 ^ b else r)

/-- The first 32 bits after the point of the root of degree k of a small number: the standard takes its constants from these. -/
def rootFraction (k p : Nat) : Word := BitVec.ofNat 32 (rootBelow k (p * 2 ^ (32 * k)) 40 0)

/-- The primes below a bound. -/
def primesBelow (n : Nat) : List Nat := (List.range n).filter fun p => decide (2 ≤ p) && (List.range p).all fun q => decide (q < 2) || p % q != 0

/-- A word mixed with three turns of itself. -/
def turns (x : Word) (i j k : Nat) : Word := x.rotateRight i ^^^ x.rotateRight j ^^^ x.rotateRight k

/-- A word mixed with two turns of itself and a shift. -/
def spread (x : Word) (i j k : Nat) : Word := x.rotateRight i ^^^ x.rotateRight j ^^^ (x >>> k)

/-- The words of a block carried on by `n` words; the newest word stands first. -/
def shaExtend : Nat → List Word → List Word
  | 0, l => l
  | n + 1, l =>
    let at_ := fun i => l.getD i 0
    shaExtend n ((spread (at_ 1) 17 19 10 + at_ 6 + spread (at_ 14) 7 18 3 + at_ 15) :: l)

/-- One round: the two rows of four words move on by a word each. The word that leaves the second row, with what the round brings, enters
both rows. -/
def shaRound (x : List Word × List Word) (kw : Word) : List Word × List Word :=
  match x with
  | ([a, b, c, d], [e, f, g, h]) =>
    let t := h + kw + turns e 6 11 25 + (g ^^^ (e &&& (f ^^^ g)))
    ([t + turns a 2 13 22 + ((a &&& b) ||| (c &&& (a ||| b))), a, b, c], [d + t, e, f, g])
  | y => y

/-- The hash value, as its two rows, after one more block of 16 words. -/
def shaBlock (x : List Word × List Word) (m : List Word) : List Word × List Word :=
  let kw := List.zipWith (· + ·) ((primesBelow 312).map (rootFraction 3)) (shaExtend 48 m.reverse).reverse
  let y := kw.foldl shaRound x
  (List.zipWith (· + ·) x.1 y.1, List.zipWith (· + ·) x.2 y.2)

/-- The big-endian words of a byte string, four bytes each. -/
def beWords : List Byte → List Word
  | a :: b :: c :: d :: rest => BitVec.ofNat 32 (beValue [a, b, c, d]) :: beWords rest
  | _ => []

/-- A message with its closing bit, zeros, and its length in bits at the end of the last block of 64 bytes. -/
def shaPad (l : List Byte) : List Byte :=
  let used := l.length + 9
  l ++ 0x80 :: List.replicate ((used + 63) / 64 * 64 - used) 0 ++ (leBytes 8 (8 * l.length)).reverse

/-- SHA-256 of a byte string, as the value of its 32 bytes, the first the most significant. -/
def sha256 (l : List Byte) : Nat :=
  let words := beWords (shaPad l)
  let first := (primesBelow 20).map (rootFraction 2)
  let x := (List.range (words.length / 16)).foldl (fun x i => shaBlock x ((words.drop (16 * i)).take 16)) (first.take 4, first.drop 4)
  (x.1 ++ x.2).foldl (fun n w => n * 2 ^ 32 + w.toNat) 0

/-! ### ECDSA on P-256 -/

/-- The field prime, the order of the base point, the coefficient b (a is −3), and the base point. -/
def p256P : Nat := 0xffffffff00000001000000000000000000000000ffffffffffffffffffffffff
def p256N : Nat := 0xffffffff00000000ffffffffffffffffbce6faada7179e84f3b9cac2fc632551
def p256B : Nat := 0x5ac635d8aa3a93e7b3ebbd55769886bc651d06b0cc53b0f63bce3c3e27d2604b
def p256G : Nat × Nat :=
  (0x6b17d1f2e12c4247f8bce6e563a440f277037d812deb33a0f4a13945d898c296,
   0x4fe342e2fe1a7f9b8ee7eb4a7c0f9e162bce33576b315ececbb6406837bf51f5)

/-- A power modulo m, over the low bits of the exponent. -/
def powMod (m : Nat) : Nat → Nat → Nat → Nat
  | 0, _, _ => 1 % m
  | k + 1, b, e =>
    let h := powMod m k (b * b % m) (e / 2)
    if e % 2 = 1 then b * h % m else h

/-- The inverse modulo a prime of 256 bits. -/
def invMod (m a : Nat) : Nat := powMod m 256 (a % m) (m - 2)

/-- The sum of two points of the curve; `none` is the point at infinity. -/
def curveAdd (a b : Option (Nat × Nat)) : Option (Nat × Nat) :=
  match a, b with
  | none, q => q
  | q, none => q
  | some (x1, y1), some (x2, y2) =>
    let p := p256P
    if x1 = x2 ∧ (y1 + y2) % p = 0 then none else
    let l := if x1 = x2 then (3 * x1 * x1 + (p - 3)) * invMod p (2 * y1) % p
      else (y2 + (p - y1)) * invMod p (x2 + (p - x1)) % p
    let x := (l * l + (p - x1) + (p - x2)) % p
    some (x, (l * (x1 + (p - x)) + (p - y1)) % p)

/-- A multiple of a point, over the low bits of the factor. -/
def curveMul : Nat → Option (Nat × Nat) → Nat → Option (Nat × Nat)
  | 0, _, _ => none
  | k + 1, q, n =>
    let h := curveMul k (curveAdd q q) (n / 2)
    if n % 2 = 1 then curveAdd q h else h

/-- A pair of coordinates lies on the curve. -/
def onCurve (q : Nat × Nat) : Bool :=
  decide (q.1 < p256P) && decide (q.2 < p256P)
    && q.2 * q.2 % p256P == (q.1 * q.1 * q.1 + (p256P - 3) * q.1 + p256B) % p256P

/-- Whether a signature, r then s, verifies under a public key, X then Y, over a digest (R300, R306). -/
def ecdsaVerify (key : List Byte) (digest : Nat) (sig : List Byte) : Bool :=
  let q := (beValue (key.take 32), beValue ((key.drop 32).take 32))
  let r := beValue (sig.take 32)
  let s := beValue ((sig.drop 32).take 32)
  if !(decide (1 ≤ r) && decide (r < p256N) && decide (1 ≤ s) && decide (s < p256N) && onCurve q) then false else
  let w := invMod p256N s
  match curveAdd (curveMul 256 (some p256G) (digest * w % p256N)) (curveMul 256 (some q) (r * w % p256N)) with
  | none => false
  | some (x, _) => x % p256N == r

end Sys2Proof.Machine
end

