-- ==== Sys2Proof/Machine/CellTemp.lean ====
section
/-! DEFINITION. Cell temperature: over-temperature by nib, by Z-temperature and by AUX input (R332 to R335). -/
namespace Sys2Proof.Machine

/-- A run of a key in a list of runs. -/
def runOf (l : List (Nat × Nat)) (k : Nat) : Nat := ((l.find? (·.1 == k)).map (·.2)).getD 0

/-- The list of runs with the run of a key set; a run of 0 is not listed. -/
def setRun (l : List (Nat × Nat)) (k n : Nat) : List (Nat × Nat) :=
  let rest := l.filter (·.1 != k)
  if n = 0 then rest else (k, n) :: rest

namespace Chip

/-- The thermal structure of a die changed. -/
def updThm (s : Chip) (d : Die) (f : ThmX → ThmX) : Chip := s.upd d fun x => { x with thm := f x.thm }

/-- The cell temperature registers of a die set; each change sends a CELL_TEMP event (R335, Table 12.7). -/
def setCellTemp (s : Chip) (d : Die) (nib z aux un : Nat) : Chip :=
  let t := (((s.put d THM_CELLSTAT THM_CELLSTAT.NIB nib).put d THM_CELLSTAT THM_CELLSTAT.Z z).put d THM_OTSTAT
    THM_OTSTAT.AUXHOT aux).put d THM_OTSTAT THM_OTSTAT.UNASSOC un
  if t.reg d THM_CELLSTAT = s.reg d THM_CELLSTAT ∧ t.reg d THM_OTSTAT = s.reg d THM_OTSTAT then s
  else t.event d 0x0162 (leBytes 2 nib ++ leBytes 2 z ++ leBytes 1 aux ++ leBytes 1 un)

/-- The fields of the cell temperature registers as they stand. -/
def nibMask (s : Chip) (d : Die) : Nat := s.get d THM_CELLSTAT THM_CELLSTAT.NIB
def zMask (s : Chip) (d : Die) : Nat := s.get d THM_CELLSTAT THM_CELLSTAT.Z
def auxMask (s : Chip) (d : Die) : Nat := s.get d THM_OTSTAT THM_OTSTAT.AUXHOT
def unassoc (s : Chip) (d : Die) : Nat := s.get d THM_OTSTAT THM_OTSTAT.UNASSOC

/-- A mask with a bit set or cleared. -/
def withBit (m k : Nat) (b : Bool) : Nat := if m.testBit k == b then m else m ^^^ 2 ^ k

/-- The roster entries that are not EMPTY in the copy of die d (R22, R224): those whose entry word the store lists. -/
def rosterEntries (s : Chip) (d : Die) : List Nat :=
  s.regs.filterMap fun e =>
    if e.1 / 0x20000000 = d.val ∧ e.1 / 0x8000000 % 4 = 3 ∧ e.1 / 0x100000 % 128 = 6 ∧ e.1 / 4 % 4 = 2
        ∧ MOD_NIB_ENTRY.STATE.read e.2 ≠ 0 then
      some (e.1 / 0x1000 % 256 * 256 + e.1 / 16 % 256)
    else none

/-! ### By nib (R332) -/

/-- The entries in over-temperature that a cell of the module is associated with. -/
def hotFor (s : Chip) (assoc : Nat) : Bool :=
  allDies.any fun o => (s.die o).thm.hotNibs.any fun e => s.get o (MOD_NIB_ENTRY e) MOD_NIB_ENTRY.ASSOC == assoc

/-- The NIB masks and UNASSOC follow the entries in over-temperature. -/
def showNibTemp (s : Chip) : Chip :=
  s.each (allDies.filter fun d => s.on d 0) fun d s =>
    let mask := (List.range 16).foldl (fun m c => if s.hotFor (16 * d.val + c + 1) then m + 2 ^ c else m) 0
    let un := (s.die d).thm.hotNibs.any fun e => s.get d (MOD_NIB_ENTRY e) MOD_NIB_ENTRY.ASSOC == 0
    s.setCellTemp d mask (s.zMask d) (s.auxMask d) un.toNat

/-- A valid frame of an ACTIVE entry with EXCL = 0 (R332). `temp` has an LSB of 1/128 °C. -/
def nibTemp (s : Chip) (d : Die) (e : Nat) (temp : Int) : Chip :=
  let lim : Int := s.get d THM_CELLOT THM_CELLOT.NIBLIM * 64
  let hyst : Int := s.get d THM_CELLOT THM_CELLOT.HYST * 32
  let x := (s.die d).thm
  let hot := if lim < temp then min 2 (runOf x.nibHot e + 1) else 0
  let cool := if temp ≤ lim - hyst then min 2 (runOf x.nibCool e + 1) else 0
  let was := x.hotNibs.contains e
  let now := if hot = 2 then true else if cool = 2 then false else was
  let t := s.updThm d fun x => { x with
    nibHot := setRun x.nibHot e hot, nibCool := setRun x.nibCool e cool
    hotNibs := if now == was then x.hotNibs else if now then e :: x.hotNibs else x.hotNibs.filter (· != e) }
  if now == was then t else t.showNibTemp

/-- An entry that becomes RETIRED, EMPTY or DEFECT leaves over-temperature (R332). -/
def nibTempEnd (s : Chip) (d : Die) (e : Nat) : Chip :=
  let was := (s.die d).thm.hotNibs.contains e
  let t := s.updThm d fun x => { x with
    nibHot := setRun x.nibHot e 0, nibCool := setRun x.nibCool e 0, hotNibs := x.hotNibs.filter (· != e) }
  if was then t.showNibTemp else t

/-! ### By Z-temperature (R333) -/

/-- A Z-temperature update of channel c that carries neither DEV nor NODATA (R333). -/
def zTempUpdate (s : Chip) (d : Die) (c : Nat) (temp : Int) : Chip :=
  if !(s.bit d THM_CELLOT THM_CELLOT.ZEN) then s else
  let lim : Int := s.get d THM_CELLOT THM_CELLOT.ZLIM * 64
  let hyst : Int := s.get d THM_CELLOT THM_CELLOT.HYST * 32
  let x := (s.die d).thm
  let hot := if lim < temp then min 2 (x.zHot.getD c 0 + 1) else 0
  let cool := if temp ≤ lim - hyst then min 2 (x.zCool.getD c 0 + 1) else 0
  let t := s.updThm d fun x => { x with zHot := x.zHot.set c hot, zCool := x.zCool.set c cool }
  let b := if hot = 2 then true else if cool = 2 then false else (s.zMask d).testBit c
  t.setCellTemp d (s.nibMask d) (withBit (s.zMask d) c b) (s.auxMask d) (s.unassoc d)

/-! ### By AUX input (R334) -/

/-- Input n is evaluated. -/
def auxEvaluated (s : Chip) (d : Die) (n : Nat) : Bool :=
  s.bit d (THM_AUX n) THM_AUX.EN && !(d.val == 0 && s.bit d CFE_AUXCFG CFE_AUXCFG.PACKI && n < 2)

/-- An input that is no longer evaluated: its bit clears and its runs restart (R334). -/
def auxOff (s : Chip) (d : Die) (n : Nat) : Chip :=
  (s.updThm d fun x => { x with auxHot := x.auxHot.set n 0, auxCool := x.auxCool.set n 0 }).setCellTemp d (s.nibMask d)
    (s.zMask d) (withBit (s.auxMask d) n false) (s.unassoc d)

/-- Every input that is not evaluated is off. -/
def auxOffs (s : Chip) (d : Die) : Chip :=
  s.each ((List.range 8).filter fun n => !(s.auxEvaluated d n)) fun n s => s.auxOff d n

/-- A conversion of input n compared (R334): the code in the form reported, and whether it carries RANGE. -/
def auxTemp (s : Chip) (d : Die) (n : Nat) (code : Int) (range : Bool) : Chip :=
  if !(s.auxEvaluated d n) then s.auxOff d n else
  let th : Int := s.get d (THM_AUX n) THM_AUX.TH
  let hyst : Int := s.get d (THM_AUX n) THM_AUX.HYST
  let above := s.bit d (THM_AUX n) THM_AUX.POL
  let isHot := range || (if above then decide (th < code) else decide (code < th))
  let isCool := !range && (if above then decide (code < th - hyst) else decide (th + hyst < code))
  let x := (s.die d).thm
  let hot := if isHot then min 8 (x.auxHot.getD n 0 + 1) else 0
  let cool := if isCool then min 8 (x.auxCool.getD n 0 + 1) else 0
  let t := s.updThm d fun x => { x with auxHot := x.auxHot.set n hot, auxCool := x.auxCool.set n cool }
  let b := if hot = 8 then true else if cool = 8 then false else (s.auxMask d).testBit n
  t.setCellTemp d (s.nibMask d) (s.zMask d) (withBit (s.auxMask d) n b) (s.unassoc d)

end Chip

end Sys2Proof.Machine
end

