-- ==== Sys2Proof/Machine/Nib.lean ====
section
/-! DEFINITION. Quill lanes and nibs: the search, admission, streaming, the roster and its copies, the census, broken nibs, and the host's
raw operations (chapter Quill Lanes and Nibs). -/
namespace Sys2Proof.Machine

/-- The die that owns a roster entry (R224). -/
def ownerOf (e : Nat) : Nat := e / 384

/-- The die that owns a roster entry, as a die of the MVS-8128. -/
def ownerDie (e : Nat) : Die := Fin.ofNat 8 (ownerOf e)

/-- The lowest digit of a tally (R216). -/
def lowDigit (m : Nat) : Nat := if m.testBit 0 then 0 else if m.testBit 1 then 1 else if m.testBit 2 then 2 else 3

/-- The ID that a walk's digits spell, digit 0 first (R212). -/
def idOfDigits : List Nat → Nat
  | [] => 0
  | d :: rest => d + 4 * idOfDigits rest

/-- The CHECK byte of an ID holds (R213). -/
def idOk (id : Nat) : Bool := crc8nib (leBytes 7 (id / 256)) == id % 256

/-- The CRC over a complete frame is 0 (R213). -/
def frameOk (f : Nat) : Bool := crc8nib (leBytes 5 f) == 0

/-- The middle of a sorted list, the mean of the two middle values rounded half to even for an even count (R231). -/
def median (l : List Int) : Int :=
  let sorted := l.foldl (fun acc v => (acc.takeWhile fun x => decide (x ≤ v)) ++ v :: (acc.dropWhile fun x => decide (x ≤ v))) []
  let n := sorted.length
  if n % 2 = 1 then sorted.getD (n / 2) 0 else roundDiv (sorted.getD (n / 2 - 1) 0 + sorted.getD (n / 2) 0) 2

/-- A number's bits as the lane carries them, least significant first (R210, R212). -/
def laneBits (n v : Nat) : List Bool := (List.range n).map v.testBit

/-- A byte followed by its complement, in 16 write slots: an order, a function, or the slot number of SLOT_SET (R214, R215). -/
def guarded (code : Nat) : List Bool := laneBits 8 code ++ laneBits 8 (255 - code % 256)

/-- The orders of Table 08.6. -/
def ordWalkAll : Nat := 0x1E
def ordWalkNew : Nat := 0x27
def ordName : Nat := 0x4B
def ordClearAll : Nat := 0x72
def ordStream : Nat := 0xC6

/-- The functions of Table 08.7 that the die sends. -/
def fnSlotSet : Nat := 0x35
def fnSlotClear : Nat := 0x3A
def fnPark : Nat := 0x53

/-- The order that nibs take from the write slots after a roll-call slot (R214): none where the complement does not match the code byte, or
the code is not in Table 08.6. -/
def orderTaken (wire : List Bool) : Option Nat :=
  [ordWalkAll, ordWalkNew, ordName, ordClearAll, ordStream].find? fun c => wire.take 16 == guarded c

namespace Chip

/-- The lanes' structure of a die changed. -/
def updNib (s : Chip) (d : Die) (f : NibX → NibX) : Chip := s.upd d fun x => { x with nib := f x.nib }

/-- A lane's structure, and that structure changed. -/
def lane (s : Chip) (d : Die) (q : Nat) : LaneX := (s.die d).nib.lanes.getD q LaneX.reset
def updLane (s : Chip) (d : Die) (q : Nat) (f : LaneX → LaneX) : Chip :=
  s.updNib d fun x => { x with lanes := x.lanes.set q (f (s.lane d q)) }

/-- MODE of a lane: 0 OFF, 1 IDLE, 2 START, 3 STREAM, 4 CENSUS, 5 RAW. -/
def laneMode (s : Chip) (d : Die) (q : Nat) : Nat := s.get d (QLN_STAT q) QLN_STAT.MODE
def setLaneMode (s : Chip) (d : Die) (q m : Nat) : Chip := s.put d (QLN_STAT q) QLN_STAT.MODE m

/-! ### The roster (R224, R225) -/

/-- Fields of an entry in the copy of a die. -/
def eState (s : Chip) (d : Die) (e : Nat) : Nat := s.get d (MOD_NIB_ENTRY e) MOD_NIB_ENTRY.STATE
def eSlot (s : Chip) (d : Die) (e : Nat) : Nat := s.get d (MOD_NIB_ENTRY e) MOD_NIB_ENTRY.SLOT
def eLane (s : Chip) (d : Die) (e : Nat) : Nat := s.get d (MOD_NIB_ENTRY e) MOD_NIB_ENTRY.LANE
def eAssoc (s : Chip) (d : Die) (e : Nat) : Nat := s.get d (MOD_NIB_ENTRY e) MOD_NIB_ENTRY.ASSOC
def eExcl (s : Chip) (d : Die) (e : Nat) : Bool := s.bit d (MOD_NIB_ENTRY e) MOD_NIB_ENTRY.EXCL

/-- The ID of an entry. -/
def eId (s : Chip) (d : Die) (e : Nat) : Nat := (s.reg d (MOD_NIB_ID_LO e)).toNat + 2 ^ 32 * (s.reg d (MOD_NIB_ID_HI e)).toNat

/-- The entries that die d owns and that are not EMPTY. -/
def ownEntries (s : Chip) (d : Die) : List Nat := (s.rosterEntries d).filter fun e => ownerOf e == d.val

/-- An entry is ACTIVE or LOST. -/
def eStreams (s : Chip) (d : Die) (e : Nat) : Bool := s.eState d e == 2 || s.eState d e == 3

/-- The entries of a lane that are ACTIVE or LOST. -/
def laneEntries (s : Chip) (d : Die) (q : Nat) : List Nat := (s.ownEntries d).filter fun e => s.eStreams d e && s.eLane d e == q

/-- The counts of NIB_COUNT and NACTIVE follow the entries. -/
def showNibCount (s : Chip) (d : Die) : Chip :=
  let own := s.ownEntries d
  let act := own.filter fun e => s.eState d e == 2
  let t := (s.put d NIB_COUNT NIB_COUNT.ACTIVE act.length).put d NIB_COUNT NIB_COUNT.LOST
    (own.filter fun e => s.eState d e == 3).length
  let t := t.put d NIB_COUNT NIB_COUNT.EXCL (own.filter fun e => s.eExcl d e).length
  t.each [0, 1] fun q s => s.put d (QLN_STAT q) QLN_STAT.NACTIVE (act.filter fun e => s.eLane d e == q).length

/-- An entry of the owner has changed and is to be sent (R224). -/
def touch (s : Chip) (d : Die) (e : Nat) : Chip :=
  s.updNib d fun x => { x with dirty := if x.dirty.contains e then x.dirty else x.dirty ++ [e] }

/-- A field of an entry written by its owner. -/
def putEntry (s : Chip) (d : Die) (e : Nat) (f : Fld) (v : Nat) : Chip := (s.put d (MOD_NIB_ENTRY e) f v).touch d e

/-- An entry moved to a state by its owner; RETIRED entries keep their order, and those no longer in use leave over-temperature
(R332). -/
def setEntryState (s : Chip) (d : Die) (e st : Nat) : Chip :=
  let t := (s.putEntry d e MOD_NIB_ENTRY.STATE st).updNib d fun x => { x with
    retired := if st = 4 then x.retired.filter (· != e) ++ [e] else x.retired.filter (· != e)
    missed := setRun x.missed e 0 }
  (t.cond (st == 0 || 4 ≤ st) fun s => s.nibTempEnd d e).showNibCount d

/-- An entry back at its reset value. -/
def clearEntry (s : Chip) (d : Die) (e : Nat) : Chip :=
  let t := s.setEntryState d e 0
  let t := t.each [ MOD_NIB_ID_LO e, MOD_NIB_ID_HI e, MOD_NIB_ENTRY e, MOD_NIB_VALUE e] fun a s => s.setReg d a (resetWord (fullAddr d a))
  (t.updNib d fun x => { x with count := x.count.filter (·.1 != e), broken := setRun x.broken e 0 }).touch d e

/-- The four words of an entry copied from its owner's copy. -/
def copyEntry (s : Chip) (d src : Die) (e : Nat) : Chip :=
  s.each [ MOD_NIB_ID_LO e, MOD_NIB_ID_HI e, MOD_NIB_ENTRY e, MOD_NIB_VALUE e] fun a s => s.setReg d a (s.reg src a)

/-- NIB_ROSTER_TRANSFER (R224, R235): the owner's changes are sent to the other dies; those of a stroke with a slice of partition 5 go in
the next stroke's window (R412, Table 16.1). `parity` is an entry whose word failed parity, and
whether its last good value is known; an armed injection inverts a parity, and the word's own good value stands (Table 14.4). -/
def nibRosterTransfer (d : Die) (parity : Option (Nat × Bool)) (s : Chip) : Chip :=
  if !(s.runs d) || s.slicing d == some 5 then s else
  let s := match parity with
    | some (e, good) =>
      if ownerOf e ≠ d.val then s
      else (if good then s.touch d e else s.setEntryState d e 3).report d 137
    | none => s
  let s := s.cond (s.injected d 0x0C) fun s => (s.useInjection d).report d 137
  let others := (s.liveDies.filter (· != d)).foldl (fun m k => m + 2 ^ k.val) 0
  s.updNib d fun x => { x with
    dirty := []
    sent := (x.sent.filter fun p => !(x.dirty.contains p.1)) ++ if others = 0 then [] else x.dirty.map fun e => (e, others) }

/-- ROSTER_UPDATE_RECEIVED (R224). -/
def rosterUpdateReceived (d src : Die) (e : Nat) (s : Chip) : Chip :=
  let due := (s.die src).nib.sent.any fun p => p.1 == e && p.2.testBit d.val
  if !(s.fitted d && s.on d 0 && due && ownerOf e == src.val) then s
  else (s.copyEntry d src e).updNib src fun x => { x with
    sent := (x.sent.map fun p => if p.1 = e then (e, p.2 ^^^ 2 ^ d.val) else p).filter (·.2 != 0) }

/-! ### Orders and functions (R211, R214, R215) -/

/-- The die drives write slots on a lane. -/
def drive (s : Chip) (d : Die) (q : Nat) (bits : List Bool) : Chip := s.updLane d q fun l => { l with wire := l.wire ++ bits }

/-- A lane reset and its roll-call slot (R211): it ends whatever the lane was doing, a held cycle start included; a slot that reads 1 sets
NOPRES. -/
def rollCall (s : Chip) (d : Die) (q : Nat) (answered : Bool) : Chip :=
  (s.putB d (QLN_STAT q) QLN_STAT.NOPRES (!answered)).updLane d q fun l => { l with edge := false, wire := [] }

/-- A nib is selected by NAME after a lane reset (R215). -/
def nameNib (s : Chip) (d : Die) (q e : Nat) : Chip :=
  (s.updLane d q fun l => { l with edge := false, wire := [] }).drive d q (guarded ordName ++ laneBits 64 (s.eId d e))

/-- The selected nib is parked. -/
def park (s : Chip) (d : Die) (q : Nat) : Chip := s.drive d q (guarded fnPark)

/-! ### Search and admission (R216, R217, R219, R227) -/

/-- A slot of lane q that another entry of the die reserves. -/
def slotTaken (s : Chip) (d : Die) (q slot e : Nat) : Bool :=
  (s.ownEntries d).any fun o => o != e && s.eSlot d o == slot && s.eLane d o == q && [2, 3, 4, 5].contains (s.eState d o)

/-- Step 4 of R227: the entry's previous slot where it is free, else the lowest free slot. -/
def slotFor (s : Chip) (d : Die) (q e : Nat) : Option Nat :=
  let prev := s.eSlot d e
  if prev < 128 && !(s.slotTaken d q prev e) then some prev else (List.range 128).find? fun k => !(s.slotTaken d q k e)

/-- Steps 4 and 5 of R227: slot and SLOT_SET, whose echo is `echo`; the entry belongs to the lane its nib was found on. -/
def admitEntry (s : Chip) (d : Die) (q e echo : Nat) : Chip :=
  let t := (s.putEntry d e MOD_NIB_ENTRY.ADMIT 0).putEntry d e MOD_NIB_ENTRY.LANE q
  match t.slotFor d q e with
  | none => ((t.setEntryState d e 1).put d (QLN_STAT q) QLN_STAT.LANEFULL 1).park d q
  | some k =>
    let t := t.drive d q (guarded fnSlotSet ++ guarded k)
    if echo ≠ k then ((t.setEntryState d e 1).nameNib d q e).park d q
    else
      let u := (t.putEntry d e MOD_NIB_ENTRY.SLOT k).putEntry d e MOD_NIB_ENTRY.FERR 0
      (u.setEntryState d e 2).updNib d fun x => { x with count := x.count.filter (·.1 != e) }

/-- The entry for an ID (R227 step 2): the die's own with that ID, an EMPTY one, or the RETIRED one with SLOT 0xFF that was retired
longest; and whether it is new. -/
def entryFor (s : Chip) (d : Die) (id : Nat) : Option (Nat × Bool) :=
  let own := s.ownEntries d
  match own.find? fun e => s.eState d e != 5 && s.eId d e == id with
  | some e => some (e, false)
  | none =>
    match ((List.range 384).map (384 * d.val + ·)).find? fun e => s.eState d e == 0 with
    | some e => some (e, true)
    | none => ((s.die d).nib.retired.find? fun e => s.eSlot d e == 0xFF).map fun e => (e, true)

/-- NIB_ADMIT (R227): an ID found on lane q. -/
def admitNib (s : Chip) (d : Die) (q id echo : Nat) : Chip :=
  let kind := id / 256 % 65536
  if s.bit d (QLN_CFG q) QLN_CFG.KINDFILT && kind != s.get d (QLN_CFG q) QLN_CFG.KIND then s.park d q else
  match s.entryFor d id with
  | none => ((s.put d NIB_COUNT NIB_COUNT.FULL 1).report d 136).park d q
  | some (e, new) =>
    let t := if new then
        ((s.clearEntry d e).setReg d (MOD_NIB_ID_LO e) (BitVec.ofNat 32 id)).setReg d (MOD_NIB_ID_HI e) (BitVec.ofNat 32 (id / 2 ^ 32))
      else s
    let again := !new && (s.eStreams d e || s.bit d (MOD_NIB_ENTRY e) MOD_NIB_ENTRY.ADMIT)
    if again || s.bit d (QLN_CFG q) QLN_CFG.AUTOADMIT then t.admitEntry d q e echo
    else ((t.putEntry d e MOD_NIB_ENTRY.LANE q).setEntryState d e 1).park d q

/-- SEARCH_NEW (R216) over the walks that the lane returns: IDs still to find, and whether a void has already made the die walk
again. -/
def search (d : Die) (q : Nat) : List WalkIn → Nat → Bool → Chip → Chip
  | [], _, _, s => s
  | _ :: _, 0, _, s => s
  | w :: rest, n + 1, again, s =>
    if !w.rollCall then s.rollCall d q false
    else
      let tallies := (w.tallies.map (· % 16)).takeWhile (· != 0) |>.take 32
      let s := (s.rollCall d q true).drive d q (guarded ordWalkNew ++ (tallies.map fun m => laneBits 2 (lowDigit m)).flatten)
      if tallies.length = 0 then s
      else if tallies.length < 32 then
        let t := s.inc d (QLN_ERR q) QLN_ERR.VOIDS
        if again then t else search d q rest (n + 1) true t
      else
        let id := idOfDigits (tallies.map lowDigit)
        if !(idOk id) then search d q rest (n + 1) again (((s.inc d (QLN_ERR q) QLN_ERR.IDCRC).report d (132 + q)).park d q)
        else search d q rest n false (s.admitNib d q id w.echo)

/-- NWIN (R223): one more than the highest slot number, 0 to 127, that an entry holds; a SLOT of 0xFF holds none. -/
def windowsOf (s : Chip) (d : Die) (q : Nat) : Nat :=
  match (s.lane d q).rawWin with
  | some n => n
  | none => (((s.laneEntries d q).map fun e => s.eSlot d e).filter fun k => decide (k < 128)).foldl (fun m k => max m (k + 1)) 0

/-- The lane streams, or stays idle where no entry holds a slot (R223). NWIN of 256 windows reads 255. -/
def laneStream (s : Chip) (d : Die) (q : Nat) : Chip :=
  let n := s.windowsOf d q
  (s.putSat d (QLN_STAT q) QLN_STAT.NWIN n).setLaneMode d q (if n = 0 then 1 else 3)

/-- The lane reset and STREAM order that end a lane start and a census; a lane where no nib answered drives nothing more (R211). -/
def streamReset (s : Chip) (d : Die) (q : Nat) (answered : Bool) : Chip :=
  let t := s.rollCall d q answered
  if answered then (t.drive d q (guarded ordStream)).laneStream d q else t.setLaneMode d q 1

/-- The duty governor lets a falling edge start (R205): A in µs is at or below AMAX, whose LSB is 4 µs. -/
def edgeFree (s : Chip) (d : Die) (q : Nat) : Bool := decide ((s.lane d q).account ≤ 4 * s.get d QLN_GOV QLN_GOV.AMAX)

/-- A falling edge of a raw operation or of a STOP's reset: the line stays high until A has fallen to AMAX (R205). -/
def waitEdge (s : Chip) (d : Die) (q : Nat) : Chip :=
  s.updLane d q fun l => { l with account := min l.account (4 * s.get d QLN_GOV QLN_GOV.AMAX) }

/-- The slots of RETIRED and DEFECT entries of a lane are released: NAME and SLOT_CLEAR were sent (Table 08.9, R424). -/
def releaseSlots (s : Chip) (d : Die) (q : Nat) : Chip :=
  let gone := (s.ownEntries d).filter fun e => (s.eState d e == 4 || s.eState d e == 5) && s.eLane d e == q && s.eSlot d e != 0xFF
  s.each gone fun e s => ((s.nameNib d q e).drive d q (guarded fnSlotClear)).putEntry d e MOD_NIB_ENTRY.SLOT 0xFF

/-- A lane start is due (R226), or the lane is off; a cycle's start that was held is given up. -/
def laneDue (s : Chip) (d : Die) (q : Nat) : Chip :=
  if s.bit d (QLN_CFG q) QLN_CFG.EN then
    (s.updLane d q fun l => { l with start := true, census := false, stopped := false, rawWin := none, edge := false }).setLaneMode d q 2
  else (s.updLane d q fun l => { l with start := false, census := false, rawWin := none, edge := false }).setLaneMode d q 0

/-- D7 powers up, or the die has been reset: each enabled lane runs a lane start (R226, R234). -/
def lanesUp (s : Chip) (d : Die) : Chip := ((s.laneDue d 0).laneDue d 1).showNibCount d

/-- LANE_START (R226): `clear` and `stream` say whether a nib answered the roll-call slots of the CLEAR_ALL and the STREAM reset. In
host-assisted search the die searches nothing, and the host drives the lane (R233). While A is above AMAX the reset's falling edge is
held (R205): the lane start stays due. -/
def laneStart (d : Die) (q : Nat) (walks : List WalkIn) (clear stream : Bool) (s : Chip) : Chip :=
  let l := s.lane d q
  let short := s.bit d (QLN_STAT q) QLN_STAT.SHORT
  let ok := s.runsOn d 7 && s.bit d (QLN_CFG q) QLN_CFG.EN && !l.stopped && (if short then l.retry else l.start)
  if !ok then s else if !(s.edgeFree d q) then s else
  let s := (s.put d (QLN_STAT q) QLN_STAT.SHORT 0).updLane d q fun l => { l with start := false, retry := false, census := false }
  if s.mode d FOL_MODENOW.NSRCH then s.setLaneMode d q 5 else
  let lost := (s.laneEntries d q).filter fun e => s.eState d e == 2
  let t := ((s.each lost fun e s => s.setEntryState d e 3).releaseSlots d q).rollCall d q clear
  let t := t.cond clear fun s => s.drive d q (guarded ordClearAll)
  (t.search d q walks 128 false).streamReset d q stream

/-- CENSUS (R229): pending ADMIT and RETIRED actions, then the search, then the reset before STREAM, whose roll-call slot `stream`
answers. While A is above AMAX the reset is held (R205): the census stays due. -/
def census (d : Die) (q : Nat) (walks : List WalkIn) (echoes : List Nat) (stream : Bool) (s : Chip) : Chip :=
  let l := s.lane d q
  let ok := s.runsOn d 7 && s.bit d (QLN_CFG q) QLN_CFG.EN && l.census && !l.stopped && !(s.bit d (QLN_STAT q) QLN_STAT.SHORT)
    && !(s.mode d FOL_MODENOW.NSRCH) && (s.laneMode d q == 1 || s.laneMode d q == 3)
  if !ok then s else if !(s.edgeFree d q) then s else
  let s := (s.updLane d q fun l => { l with census := false }).releaseSlots d q
  let asked := (s.ownEntries d).filter fun e => s.eState d e == 1 && s.eLane d e == q && s.bit d (MOD_NIB_ENTRY e) MOD_NIB_ENTRY.ADMIT
  let t := s.each (asked.zip echoes) fun a s => (s.nameNib d q a.1).admitEntry d q a.1 a.2
  (t.search d q walks (max 1 (s.get d NIB_CENSUS NIB_CENSUS.MAXID)) false).streamReset d q stream

/-- The falling edge of a cycle's start (R220, R223). -/
def cycleEdge (s : Chip) (d : Die) (q : Nat) : Chip := (s.updLane d q fun l => { l with edge := false }).laneStream d q

/-- The windows of the lane's running cycle. -/
def cycleWindows (s : Chip) (d : Die) (q : Nat) : Nat := ((s.lane d q).rawWin).getD (s.get d (QLN_STAT q) QLN_STAT.NWIN)

/-- STREAM_CYCLE_START (R220, R223): of the cycle that ended, `hold` is the time in µs that the governor held and `held` whether an edge in
it had to wait. The cycle's start is held while A is above AMAX (R205) and then starts at DUTY_GOVERNOR_RELEASE. A census that is due
comes first, in hardware mode (R229, R233). Once an entry has come to step 2 the cycle that ended was the last: the lane idles, high
(Table 15.4). -/
def streamCycleStart (d : Die) (q hold : Nat) (held : Bool) (s : Chip) : Chip :=
  let l := s.lane d q
  let ok := s.runsOn d 7 && s.bit d (QLN_CFG q) QLN_CFG.EN && !l.stopped && !l.start && !(l.census && !(s.mode d FOL_MODENOW.NSRCH))
    && !(s.bit d (QLN_STAT q) QLN_STAT.SHORT) && !l.edge && !(s.bit d (QLN_STAT q) QLN_STAT.NOPRES)
    && (s.laneMode d q == 3 || (s.laneMode d q == 1 && !(s.mode d FOL_MODENOW.NSRCH)))
  if !ok then s else
  let t := s.cond (s.laneMode d q == 3) fun s =>
    (s.putSat d (QLN_CYCLE q) QLN_CYCLE.LAST (80 + 352 * s.cycleWindows d q + hold)).putB d (QLN_CYCLE q) QLN_CYCLE.HELD
      (held || hold != 0 || l.heldCyc)
  let t := t.updLane d q fun l => { l with heldCyc := false }
  if s.stepAsked d 2 then t.cond (s.laneMode d q == 3) fun s => s.setLaneMode d q (if (s.lane d q).rawWin.isSome then 5 else 1) else
  if t.edgeFree d q || t.windowsOf d q == 0 then t.cycleEdge d q else t.updLane d q fun l => { l with edge := true, heldCyc := true }

/-! ### Frames (R222, R231, R332) -/

/-- What the page has seen of an entry (R232). -/
def noteSeen (s : Chip) (d : Die) (e bits : Nat) : Chip :=
  s.updNib d fun x => { x with seen := setRun x.seen e (runOf x.seen e ||| bits) }

/-- A missed frame (R222): three in a row make an ACTIVE entry LOST. -/
def missFrame (s : Chip) (d : Die) (e : Nat) : Chip :=
  let n := min 3 (runOf (s.die d).nib.missed e + 1)
  if s.eState d e = 2 ∧ n = 3 then s.setEntryState d e 3
  else s.updNib d fun x => { x with missed := setRun x.missed e n }

/-- The neighbours' values of an entry (R231). -/
def neighbours (s : Chip) (d : Die) (e : Nat) : List Int :=
  let m := s.eAssoc d e
  ((s.ownEntries d).filter fun o => o != e && s.eState d o == 2 && !(s.eExcl d o) && s.eAssoc d o != 0
    && decide (s.eAssoc d o ≤ m + 1) && decide (m ≤ s.eAssoc d o + 1)
    && decide (s.get d (MOD_NIB_VALUE o) MOD_NIB_VALUE.AGE ≤ s.get d NIB_XCHK NIB_XCHK.AGE)
    && s.get d (MOD_NIB_VALUE o) MOD_NIB_VALUE.TEMP != 0x8000).map fun o => s.getI d (MOD_NIB_VALUE o) MOD_NIB_VALUE.TEMP

/-- BROKEN_NIB_CHECK (R231). -/
def brokenCheck (s : Chip) (d : Die) (e : Nat) (temp : Int) : Chip :=
  let near := s.neighbours d e
  if s.eAssoc d e = 0 ∨ near.length < 2 then s else
  let far := decide (s.get d NIB_XCHK NIB_XCHK.LIM * 32 < (temp - median near).natAbs)
  let n := if far then min 255 (runOf (s.die d).nib.broken e + 1) else 0
  let t := s.updNib d fun x => { x with broken := setRun x.broken e n }
  if far && decide (max 1 (s.get d NIB_XCHK NIB_XCHK.CNT) ≤ n) && !(s.eExcl d e) then
    (t.putEntry d e MOD_NIB_ENTRY.EXCL 1).showNibCount d
  else t

/-- A valid frame (R222): its values are written to the entry, which is ACTIVE again. -/
def validFrame (s : Chip) (d : Die) (e f : Nat) : Chip :=
  let conv := f.testBit 24
  let temp := if conv then 0x8000 else f % 65536
  let t := (s.put d (MOD_NIB_VALUE e) MOD_NIB_VALUE.TEMP temp).put d (MOD_NIB_VALUE e) MOD_NIB_VALUE.AUX (f / 65536 % 256)
  let t := t.cond (!conv) fun s => s.put d (MOD_NIB_VALUE e) MOD_NIB_VALUE.AGE 0
  let t := t.putEntry d e MOD_NIB_ENTRY.NSTAT (f / 2 ^ 24 % 16)
  let t := t.updNib d fun x => { x with missed := setRun x.missed e 0, count := (e, f / 2 ^ 28 % 16) :: x.count.filter (·.1 != e) }
  let t := (t.noteSeen d e (1 + (if f / 2 ^ 24 % 16 = 0 then 0 else 32))).cond (s.eState d e == 3) fun s =>
    (s.putEntry d e MOD_NIB_ENTRY.FERR 0).setEntryState d e 2
  if conv then t else
    let t := t.brokenCheck d e (toSigned temp 16)
    t.cond (!(t.eExcl d e)) fun s => s.nibTemp d e (toSigned temp 16)

/-- NIB_WINDOW_DECISION (R222): the 40 bits as read on the wire, where each frame bit is inverted. -/
def nibWindowDecision (d : Die) (q slot : Nat) (wire : BitVec 40) (s : Chip) : Chip :=
  if !(s.runsOn d 7 && s.laneMode d q == 3 && !(s.lane d q).edge && decide (slot < s.cycleWindows d q)) then s else
  match (s.laneEntries d q).find? fun e => s.eSlot d e == slot with
  | none => s
  | some e =>
    let f := (~~~ wire).toNat
    let prev := ((s.die d).nib.count.find? (·.1 == e)).map (·.2)
    if f = 0 then (s.cond (s.eState d e == 2) fun s => s.inc d (QLN_ERR q) QLN_ERR.ABSENT).missFrame d e
    else if !(frameOk f) || s.injected d (3 + q) then
      let s := s.cond (s.injected d (3 + q)) fun s => s.useInjection d
      let n := min 63 (s.get d (MOD_NIB_ENTRY e) MOD_NIB_ENTRY.FERR + 1)
      ((((s.putEntry d e MOD_NIB_ENTRY.FERR n).inc d (QLN_ERR q) QLN_ERR.CRCCNT).report d (132 + q)).noteSeen d e 8).missFrame d e
    else if !(f.testBit 27) && prev == some (f / 2 ^ 28 % 16) then s.missFrame d e
    else s.validFrame d e f

/-- LANE_SHORT (R207): the lane stops, and a cycle's start that was held with it. -/
def laneShort (d : Die) (q : Nat) (s : Chip) : Chip :=
  if !(s.runsOn d 7 && s.bit d (QLN_CFG q) QLN_CFG.EN) then s
  else ((s.put d (QLN_STAT q) QLN_STAT.SHORT 1).updLane d q fun l =>
    { l with retry := false, census := false, start := false, edge := false, rawWin := none }).setLaneMode d q 1

/-- DUTY_GOVERNOR_RELEASE (R205): the account after the line's low and then its high time since it was last brought up to date, and
the held falling edge, which starts where A has fallen to AMAX, unless the lanes rest for an entry (R394). -/
def dutyGovernorRelease (d : Die) (q lowUs highUs : Nat) (s : Chip) : Chip :=
  if !(s.runs d && s.on d 7) then s else
  let l := s.lane d q
  let t := s.updLane d q fun l => { l with account := l.account + 4 * lowUs - highUs }
  if l.edge && s.runsOn d 7 && t.edgeFree d q then t.cycleEdge d q else t

/-! ### The host's writes (R228, R233, Tables 08.10, 08.14) -/

/-- A write of QLN_CMDq: STOP takes precedence; in host-assisted search no census runs (R233). Whether a nib answers the roll-call slot of the STOP's reset is free. -/
def writeQlnCmd (s : Chip) (d : Die) (q : Nat) (w : Word) : Chip :=
  if QLN_CMD.STOP.read w = 1 then
    let en := s.bit d (QLN_CFG q) QLN_CFG.EN
    let t := (s.updLane d q fun l => { l with start := false, census := false, stopped := true, rawWin := none, edge := false }).setLaneMode
      d q en.toNat
    if en && !(s.bit d (QLN_STAT q) QLN_STAT.SHORT) then ((t.waitEdge d q).rollCall d q (Config.freeNat s.free % 2 == 1)).draw else t
  else
    let t := s.cond (QLN_CMD.RESTART.read w == 1) fun s => s.laneDue d q
    t.cond (QLN_CMD.CENSUS.read w == 1 && !(s.mode d FOL_MODENOW.NSRCH)) fun s => s.updLane d q fun l => { l with census := !l.start }

/-- A write of QLN_CFGq: a lane that is enabled starts, one that is disabled is off. -/
def writeQlnCfg (s : Chip) (d : Die) (q : Nat) (w : Word) : Chip :=
  let was := s.bit d (QLN_CFG q) QLN_CFG.EN
  let t := s.setReg d (QLN_CFG q) (w &&& 0xFFFF0007)
  t.cond (was != t.bit d (QLN_CFG q) QLN_CFG.EN) fun s => s.laneDue d q

/-- A raw operation is refused (R233). -/
def rawRefused (s : Chip) (d : Die) (q op : Nat) : Bool :=
  !(s.mode d FOL_MODENOW.NSRCH) || (s.laneMode d q == 3 && op != 1)

/-- The die drives nothing on a lane that is disabled, and leaves a shorted one to its pull-up until a retry succeeds (R207). -/
def laneDead (s : Chip) (d : Die) (q : Nat) : Bool := !(s.bit d (QLN_CFG q) QLN_CFG.EN) || s.bit d (QLN_STAT q) QLN_STAT.SHORT

/-- A raw operation (R233, Tables 08.16 and 08.17); `answer` is what the lane returns: presence, the bits read, or the tally. An OP that is not
listed does nothing. After a roll-call slot that read 1 the die drives nothing until the next reset (R211): the line reads high, and no
cycle runs. On a disabled or a shorted lane the operation completes with what the lane reads and changes nothing of it (DESIGN CHOICE,
assumption 168); on one that rests for an entry (R394) it is not begun. -/
def rawOp (s : Chip) (d : Die) (q op nbits data answer : Nat) : Chip :=
  if s.rawRefused d q op then s.setReg d (QLN_RAWRES q) 4
  else if op = 0 ∨ 5 < op then s else
  let dead := s.laneDead d q
  let s := s.cond (!dead) fun s => s.waitEdge d q
  let absent := s.bit d (QLN_STAT q) QLN_STAT.NOPRES || !(s.bit d (QLN_CFG q) QLN_CFG.EN)
  let n := if nbits = 0 ∨ 8 < nbits then 8 else nbits
  let res := fun (s : Chip) (w : Nat) => s.setReg d (QLN_RAWRES q) (BitVec.ofNat 32 (1 + w))
  match op with
  | 1 => if dead then res s (2 * (answer % 2) * (s.bit d (QLN_CFG q) QLN_CFG.EN).toNat) else
      ((res s (2 * (answer % 2))).rollCall d q (answer % 2 == 1)).updLane d q (fun l => { l with rawWin := none }) |>.setLaneMode d q 5
  | 2 => (res s 0).cond (!dead && !absent) fun s => s.drive d q (laneBits n data)
  | 3 => res s (256 * ((if absent then 2 ^ n - 1 else answer) % 2 ^ n))
  | 4 =>
    let m := if absent then 0 else answer % 16
    let dig := if m = 0 then 0 else if m.testBit (data % 4) then data % 4 else lowDigit m
    (res s (8 * m + 65536 * dig)).cond (!dead && m != 0) fun s => s.drive d q (laneBits 2 dig)
  | 5 => if dead then res s 0 else (((res s 0).updLane d q fun l => { l with rawWin := some (data + 1) }).putSat d (QLN_STAT q) QLN_STAT.NWIN
      (data + 1)).setLaneMode d q (if absent then 5 else 3)
  | _ => s

/-- A write of QLN_RAWq through a register: what the lane answers is free. -/
def writeRaw (s : Chip) (d : Die) (q : Nat) (w : Word) : Chip :=
  if QLN_RAW.GO.read w = 0 ∨ s.resting d 7 then s
  else (s.rawOp d q (QLN_RAW.OP.read w) (QLN_RAW.NBITS.read w) (QLN_RAW.DATA.read w) (Config.freeNat s.free)).draw

/-- Whether a host write of word `word` of entry e is allowed (Table 08.10), by the copy of die k. -/
def entryWriteOkAt (s : Chip) (k : Die) (e word : Nat) (w : Word) : Bool :=
  let o := ownerDie e
  let host := s.mode o FOL_MODENOW.NSRCH
  let old := s.reg k (MOD_NIB_ENTRY e)
  let st := MOD_NIB_ENTRY.STATE.read old
  let dst := MOD_NIB_ENTRY.STATE.read w
  let m := MOD_NIB_ENTRY.ASSOC.read w
  if 3072 ≤ e then false
  else if word < 2 then host
  else if word = 2 then
    (host || (MOD_NIB_ENTRY.SLOT.read w == MOD_NIB_ENTRY.SLOT.read old && MOD_NIB_ENTRY.LANE.read w == MOD_NIB_ENTRY.LANE.read old
        && (dst == st || (dst == 4 && 1 ≤ st && st ≤ 3) || (dst == 0 && st == 4 && MOD_NIB_ENTRY.SLOT.read old == 0xFF))))
      && (m == 0 || m == MOD_NIB_ENTRY.ASSOC.read old || (16 * o.val + 1 ≤ m && m ≤ 16 * o.val + 16))
      && (MOD_NIB_ENTRY.ADMIT.read w == 0 || MOD_NIB_ENTRY.ADMIT.read old == 1 || st == 1)
  else false

/-- Whether a host write of an entry is allowed, by the copy of its owner. -/
def entryWriteOk (s : Chip) (e word : Nat) (w : Word) : Bool := s.entryWriteOkAt (ownerDie e) e word w

/-- A host write of word `word` of entry e at its owner (R228, Table 08.10). -/
def writeEntry (s : Chip) (e word : Nat) (w : Word) : Chip :=
  let o := ownerDie e
  if !(s.entryWriteOk e word w) then s
  else if word = 0 then (s.setReg o (MOD_NIB_ID_LO e) w).touch o e
  else if word = 1 then (s.setReg o (MOD_NIB_ID_HI e) w).touch o e
  else
    let st := s.eState o e
    let dst := MOD_NIB_ENTRY.STATE.read w
    let host := s.mode o FOL_MODENOW.NSRCH
    if dst = 0 ∧ st ≠ 0 ∧ !host then s.clearEntry o e
    else
      let t := (s.putEntry o e MOD_NIB_ENTRY.ASSOC (MOD_NIB_ENTRY.ASSOC.read w)).putEntry o e MOD_NIB_ENTRY.ADMIT
        (if dst = 1 then MOD_NIB_ENTRY.ADMIT.read w else 0)
      let t := t.cond host fun s => (s.putEntry o e MOD_NIB_ENTRY.SLOT (MOD_NIB_ENTRY.SLOT.read w)).putEntry o e MOD_NIB_ENTRY.LANE
        (MOD_NIB_ENTRY.LANE.read w)
      let t := t.cond (MOD_NIB_ENTRY.EXCL.read w == 1) fun s => (s.putEntry o e MOD_NIB_ENTRY.EXCL 0).updNib o fun x =>
        { x with broken := setRun x.broken e 0 }
      let t := t.cond (dst == 2 && st != 2) fun s => s.putEntry o e MOD_NIB_ENTRY.FERR 0
      (if dst = st then t.showNibCount o else t.setEntryState o e dst).showNibTemp

/-- What an allowed host write of the ENTRY word leaves in a copy of it (Table 08.10); `host` is host-assisted search. -/
def entryWritten (old w : Word) (host : Bool) : Word :=
  let dst := MOD_NIB_ENTRY.STATE.read w
  let v := MOD_NIB_ENTRY.ADMIT.write (MOD_NIB_ENTRY.ASSOC.write old (MOD_NIB_ENTRY.ASSOC.read w))
    (if dst = 1 then MOD_NIB_ENTRY.ADMIT.read w else 0)
  let v := if host then MOD_NIB_ENTRY.LANE.write (MOD_NIB_ENTRY.SLOT.write v (MOD_NIB_ENTRY.SLOT.read w)) (MOD_NIB_ENTRY.LANE.read w) else v
  let v := if MOD_NIB_ENTRY.EXCL.read w = 1 then MOD_NIB_ENTRY.EXCL.write v 0 else v
  let v := if dst = 2 ∧ MOD_NIB_ENTRY.STATE.read old ≠ 2 then MOD_NIB_ENTRY.FERR.write v 0 else v
  MOD_NIB_ENTRY.STATE.write v dst

/-- A host write of an entry as it reaches the copy of a die that does not own it (R21, R224). -/
def writeEntryCopy (s : Chip) (k : Die) (e word : Nat) (w : Word) : Chip :=
  let old := s.reg k (MOD_NIB_ENTRY e)
  let host := s.mode (ownerDie e) FOL_MODENOW.NSRCH
  if !(s.entryWriteOkAt k e word w) then s
  else if word = 0 then s.setReg k (MOD_NIB_ID_LO e) w
  else if word = 1 then s.setReg k (MOD_NIB_ID_HI e) w
  else if MOD_NIB_ENTRY.STATE.read w = 0 ∧ MOD_NIB_ENTRY.STATE.read old ≠ 0 ∧ !host then
    s.each [ MOD_NIB_ID_LO e, MOD_NIB_ID_HI e, MOD_NIB_ENTRY e, MOD_NIB_VALUE e] fun a s => s.setReg k a (resetWord (fullAddr k a))
  else s.setReg k (MOD_NIB_ENTRY e) (entryWritten old w host)

/-- A host write of an entry as die k applies it: the owner acts on it, the others change their copies. -/
def applyEntryWrite (s : Chip) (k : Die) (e word : Nat) (w : Word) : Chip :=
  if ownerDie e = k then s.writeEntry e word w else s.writeEntryCopy k e word w

/-! ### The page (R207, R228, R230, R232) -/

/-- The page's census schedule (R230). -/
def censusDue (s : Chip) (d : Die) (q : Nat) : Chip :=
  let p := s.get d NIB_CENSUS NIB_CENSUS.PERIOD
  let ring := s.bit d NIB_CENSUS NIB_CENSUS.RING
  let a := s.address d
  let g := (if ring then 16 * (a - 1) else 0) + 2 * d.val + q
  let hit := p != 0 && s.stroke d / 1024 % (max 1 p) == g * p / (if ring then 2016 else 16)
  let runs := s.bit d (QLN_CFG q) QLN_CFG.EN && !((s.lane d q).stopped) && !(s.mode d FOL_MODENOW.NSRCH)
  if !(hit && runs) then s
  else if ring && (s.get d ULK_PLLSTAT ULK_PLLSTAT.STATE != 1 || a == 0) then s.inc d NIB_CENSUS NIB_CENSUS.SKIPS
  else s.updLane d q fun l => { l with census := true }

/-- One slot of a nib summary record (Table 08.11). -/
def slotRecord (s : Chip) (d : Die) (q slot : Nat) : List Byte :=
  match (s.laneEntries d q).find? fun e => s.eSlot d e == slot with
  | none => leBytes 2 0x8000 ++ [0, 0x40]
  | some e =>
    let seen := runOf (s.die d).nib.seen e
    let v := s.reg d (MOD_NIB_VALUE e)
    let temp := if seen.testBit 0 then MOD_NIB_VALUE.TEMP.read v else 0x8000
    leBytes 2 temp ++ leBytes 1 (MOD_NIB_VALUE.AUX.read v) ++ leBytes 1 ((!(seen.testBit 0)).toNat + 2 * (s.eExcl d e).toNat
      + 4 * (s.eState d e == 3).toNat + 8 * (seen.testBit 3).toNat + 16 * (s.eAssoc d e == 0).toNat + 32 * (seen.testBit 5).toNat)

/-- PAGE_NIB_SUMMARY (R232): frames of up to seven blocks of 16 slots for the page just ended. -/
def nibSummary (d : Die) (s : Chip) : Chip :=
  let w := (s.die d).cfe.streamNow
  let blocks := ([0, 1].map fun q => (List.range 8).filterMap fun b =>
    if (s.laneEntries d q).any fun e => s.eSlot d e / 16 == b then some (q, 16 * b) else none).flatten
  if CFE_STREAMCFG.PAGE_EN.read w = 0 ∨ blocks = [] then s else
  let first := s.stroke d - 1024
  let record := fun (b : Nat × Nat) => leBytes 1 b.1 ++ leBytes 1 b.2 ++ ((List.range 16).map fun j => s.slotRecord d b.1 (b.2 + j)).flatten
  let frames := [blocks.take 7, (blocks.drop 7).take 7, (blocks.drop 14).take 7].filter (· != [])
  s.each frames fun bs t => t.offerStream d (streamHeader 3 1 (s.dieFlags d) first 0 bs.length 0 ++ (bs.map record).flatten)
    (ringCode (CFE_STREAMCFG.PAGE_RING.read w)) 2 first (first + 1024)

/-- The page-scheduled part of the lanes: the summary, ages, the census and the retry of a shorted lane. -/
def nibPage (d : Die) (s : Chip) : Chip :=
  let t := (s.nibSummary d).updNib d fun x => { x with seen := [] }
  let t := t.each (t.rosterEntries d) fun e s => s.inc d (MOD_NIB_VALUE e) MOD_NIB_VALUE.AGE
  if !(t.on d 7) then t else
  let t := (t.censusDue d 0).censusDue d 1
  t.each [0, 1] fun q s => s.cond (s.bit d (QLN_STAT q) QLN_STAT.SHORT) fun s => s.updLane d q fun l => { l with retry := true }

/-- The ACTIVE entries of a lost die become LOST in a copy (R224). -/
def rosterDieLost (s : Chip) (d lost : Die) : Chip :=
  s.each ((s.rosterEntries d).filter fun e => ownerOf e == lost.val && s.eState d e == 2) fun e s =>
    s.put d (MOD_NIB_ENTRY e) MOD_NIB_ENTRY.STATE 3

end Chip

/-- NIB_ROSTER_TRANSFER (R224). -/
def execNibRosterTransfer (d : Die) (parity : Option (Nat × Bool)) (s : State) : Host.Outcome State Fault Refusal :=
  s.run (Chip.nibRosterTransfer d parity)

/-- ROSTER_UPDATE_RECEIVED (R224). -/
def execRosterUpdateReceived (d src : Die) (e : Nat) (s : State) : Host.Outcome State Fault Refusal :=
  s.run (Chip.rosterUpdateReceived d src e)

/-- LANE_START (R226). -/
def execLaneStart (d : Die) (q : Pair) (found : StartIn) (s : State) : Host.Outcome State Fault Refusal :=
  s.run (Chip.laneStart d q.val found.walks found.clear found.stream)

/-- CENSUS (R229): `echoes` answer the SLOT_SETs of the pending ADMIT actions in entry order. -/
def execCensus (d : Die) (q : Pair) (found : CensusIn) (echoes : List Nat) (s : State) : Host.Outcome State Fault Refusal :=
  s.run (Chip.census d q.val found.walks echoes found.stream)

/-- STREAM_CYCLE_START (R223). -/
def execStreamCycleStart (d : Die) (q : Pair) (hold : Nat) (held : Bool) (s : State) : Host.Outcome State Fault Refusal :=
  s.run (Chip.streamCycleStart d q.val hold held)

/-- NIB_WINDOW_DECISION (R222). -/
def execNibWindowDecision (d : Die) (q : Pair) (slot : Nat) (wire : BitVec 40) (s : State) : Host.Outcome State Fault Refusal :=
  s.run (Chip.nibWindowDecision d q.val slot wire)

/-- LANE_SHORT (R207). -/
def execLaneShort (d : Die) (q : Pair) (s : State) : Host.Outcome State Fault Refusal := s.run (Chip.laneShort d q.val)

/-- DUTY_GOVERNOR_RELEASE (R205). -/
def execDutyGovernorRelease (d : Die) (q : Pair) (lowUs highUs : Nat) (s : State) : Host.Outcome State Fault Refusal :=
  s.run (Chip.dutyGovernorRelease d q.val lowUs highUs)

/-- QLN_RESTART (R226). -/
def execQlnRestart (d : Die) (q : Pair) (s : State) : Host.Outcome State Fault Refusal :=
  s.run fun c => if c.on d 7 then c.writeQlnCmd d q.val (QLN_CMD.RESTART.write 0 1) else c

/-- QLN_CENSUS (R229). -/
def execQlnCensus (d : Die) (q : Pair) (s : State) : Host.Outcome State Fault Refusal :=
  s.run fun c => if c.on d 7 then c.writeQlnCmd d q.val (QLN_CMD.CENSUS.write 0 1) else c

/-- QLN_STOP (Table 08.14). -/
def execQlnStop (d : Die) (q : Pair) (s : State) : Host.Outcome State Fault Refusal :=
  s.run fun c => if c.on d 7 then c.writeQlnCmd d q.val (QLN_CMD.STOP.write 0 1) else c

/-- RAW_RESET (R233): `rollCall` is whether a nib answered. -/
def execRawReset (d : Die) (q : Pair) (rollCall : Bool) (s : State) : Host.Outcome State Fault Refusal :=
  s.run fun c => if c.on d 7 && !(c.resting d 7) then c.rawOp d q.val 1 0 0 rollCall.toNat else c

/-- RAW_WRITE (R233). -/
def execRawWrite (d : Die) (q : Pair) (nbits data : Nat) (s : State) : Host.Outcome State Fault Refusal :=
  s.run fun c => if c.on d 7 && !(c.resting d 7) then c.rawOp d q.val 2 nbits data 0 else c

/-- RAW_READ (R233). -/
def execRawRead (d : Die) (q : Pair) (nbits bits : Nat) (s : State) : Host.Outcome State Fault Refusal :=
  s.run fun c => if c.on d 7 && !(c.resting d 7) then c.rawOp d q.val 3 nbits 0 bits else c

/-- RAW_STEP (R233). -/
def execRawStep (d : Die) (q : Pair) (data tally : Nat) (s : State) : Host.Outcome State Fault Refusal :=
  s.run fun c => if c.on d 7 && !(c.resting d 7) then c.rawOp d q.val 4 0 data tally else c

/-- RAW_STREAM (R233). -/
def execRawStream (d : Die) (q : Pair) (data : Nat) (s : State) : Host.Outcome State Fault Refusal :=
  s.run fun c => if c.on d 7 && !(c.resting d 7) then c.rawOp d q.val 5 0 (data % 256) 0 else c

/-- MOD_NIB_ENTRY_WRITE (R228): word 0 ID_LO, 1 ID_HI, 2 ENTRY, 3 VALUE. The write reaches every live die, the master first (R21). -/
def execModNibEntryWrite (d : Die) (e : Nat) (word : Fin 4) (w : Word) (s : State) : Host.Outcome State Fault Refusal :=
  s.run fun c => if c.fitted d && c.on d 0 && c.fitted (ownerDie e) && c.on (ownerDie e) 0 then
      c.each c.liveDies fun k s => s.applyEntryWrite k e word.val w
    else c

end Sys2Proof.Machine
end

