-- ==== Sys2Proof/Machine/Engine.lean ====
section
/-! DEFINITION. The control engine: the stroke program, the loop slots, the profile generators, the injection generators and the
capture buffer (chapter Control Engine). -/
namespace Sys2Proof.Machine

/-! ### The sine (R198) -/

/-- A quarter turn in radians, LSB 2^-30. -/
def quarterTurn : Int := 1686629713

/-- The sine of an angle of the first quadrant in radians, both LSB 2^-30, by its power series. -/
def sineSeries (x : Int) : Int :=
  let x2 := x * x / 2 ^ 30
  let t3 := x * x2 / 2 ^ 30 / 6
  let t5 := t3 * x2 / 2 ^ 30 / 20
  let t7 := t5 * x2 / 2 ^ 30 / 42
  let t9 := t7 * x2 / 2 ^ 30 / 72
  let t11 := t9 * x2 / 2 ^ 30 / 110
  let t13 := t11 * x2 / 2 ^ 30 / 156
  let t15 := t13 * x2 / 2 ^ 30 / 210
  x - t3 + t5 - t7 + t9 - t11 + t13 - t15

/-- 2^30 times the sine of num/den of a turn, to within 32 units. -/
def sineTrue (num den : Nat) : Int :=
  let q := 4 * (num % den) / den
  let x := (4 * (num % den) % den : Nat) * quarterTurn / (den : Int)
  let v := sineSeries (if q % 2 = 0 then x else quarterTurn - x)
  if q < 2 then v else -v

/-- 2^20 times the sine as the part computes it: free within the error of 2^-17 that R198 allows, 8 units (assumption 6). -/
def sineOf (num den : Nat) : Int :=
  let v := sineTrue num den
  max (-((8160 - v) / 1024)) (min (Config.sine num den) ((v + 8160) / 1024))

/-- A sinusoid of an amplitude, rounded half to even (Table 07.7). -/
def sineOut (amp num den : Nat) : Int := sat16 (roundDiv (amp * sineOf num den) (2 ^ 20))

/-! ### Steps and signals (Tables 07.2 and 07.3) -/

/-- The standard program (R177): RUN 0 to RUN 3, END. -/
def standardProgram : List Word := [0x20000000, 0x21000000, 0x22000000, 0x23000000, 0x00000000]

/-- What the engine still runs after its ACK in an entry (R394): the bound slots. -/
def boundProgram : List Word := [0x20000000, 0x21000000, 0x00000000]

/-- The signal codes of Table 07.3. -/
def signalListed (c : Nat) : Bool :=
  c ≤ 6 || (8 ≤ c && c ≤ 0x0B) || (0x10 ≤ c && c ≤ 0x13) || (0x18 ≤ c && c ≤ 0x1F) || (0x20 ≤ c && c ≤ 0x23)
    || (0x28 ≤ c && c ≤ 0x2A)

/-- The codes that Table 07.3 marks as data-RAM reads. -/
def signalRead (c : Nat) : Bool := (1 ≤ c && c ≤ 4) || (0x28 ≤ c && c ≤ 0x2A)

/-- What a RUN finds its slot in (R180, R182, R194). -/
inductive SlotKind where
  | off | rest | frozen | active
  deriving DecidableEq, Repr

/-- A stage's value after a limit, with the direction of the limit: 1 upward, -1 downward (R186). -/
def limitTo (lo hi v : Int) (dir : Int) : Int × Int := if hi < v then (hi, 1) else if v < lo then (lo, -1) else (v, dir)

/-- Saturation to Q1.15 as a stage. -/
def limit16 (v dir : Int) : Int × Int := limitTo (-32768) 32767 v dir

namespace Chip

/-- The engine structure of a die changed. -/
def updEng (s : Chip) (d : Die) (f : EngX → EngX) : Chip := s.upd d fun x => { x with eng := f x.eng }

/-- The balancing structure of a die changed. -/
def updCxs (s : Chip) (d : Die) (f : CxsX → CxsX) : Chip := s.upd d fun x => { x with cxs := f x.cxs }

/-- The value in force of a register whose writes wait for the stroke edge (R193). -/
def now (s : Chip) (d : Die) (a : Nat) : Word := (((s.die d).eng.held.find? (·.1 == a)).map (·.2)).getD (s.reg d a)

/-- A field of the value in force. -/
def nowGet (s : Chip) (d : Die) (a : Nat) (f : Fld) : Nat := f.read (s.now d a)

/-- A field of the value in force as two's complement. -/
def nowI (s : Chip) (d : Die) (a : Nat) (f : Fld) : Int := toSigned (s.nowGet d a f) f.w

/-- A register of BCE, PGEN or INJ written: its old value stays in force until the next stroke edge (R193). -/
def writePending (s : Chip) (d : Die) (a : Nat) (w : Word) : Chip :=
  (s.updEng d fun e => if e.held.any (·.1 == a) then e else { e with held := (a, s.reg d a) :: e.held }).setReg d a w

/-- A slot's structure. -/
def slot (s : Chip) (d : Die) (n : Nat) : SlotX := (s.die d).eng.slots.getD n ⟨[0, 0, 0], [0, 0, 0], 0, 0⟩

/-- A slot's structure changed. -/
def updSlot (s : Chip) (d : Die) (n : Nat) (f : SlotX → SlotX) : Chip :=
  s.updEng d fun e => { e with slots := e.slots.set n (f (s.slot d n)) }

/-- A profile generator. -/
def pgen (s : Chip) (d : Die) (n : Nat) : PgenX := (s.die d).cxs.pgen.getD n ⟨0, 0, 0, 0⟩

/-- A profile generator changed. -/
def updPgen (s : Chip) (d : Die) (n : Nat) (f : PgenX → PgenX) : Chip :=
  s.updCxs d fun x => { x with pgen := x.pgen.set n (f (s.pgen d n)) }

/-- The cell selected by a converter channel. -/
def selected (s : Chip) (d : Die) (n : Nat) : Option Nat :=
  let k := s.get d (CXS_SEL n) CXS_SEL.CELL
  if k < 16 then some k else none

/-- The converters are held at D = 0: the cut, the safe state, a supply dip, severe source 118 (Tables 06.3, 14.2). -/
def heldAtZero (s : Chip) (d : Die) : Bool :=
  s.bit d CXS_STATUS CXS_STATUS.CUT || s.bit d CXS_STATUS CXS_STATUS.SAFE || s.bit d CXS_STATUS CXS_STATUS.DIP
    || s.isolated d 118

/-- A severe engine overrun holds the channel until it has been deselected (R197). -/
def severeStop (s : Chip) (d : Die) (n : Nat) : Bool := ((s.die d).cxs.chans.map (·.severe)).getD n false

/-- A bound slot is at rest (R182). -/
def atRest (s : Chip) (d : Die) (n : Nat) : Bool :=
  (s.selected d n).isNone || s.bit d (CXS_SEL n) CXS_SEL.PENDING || s.heldAtZero d || s.severeStop d n

/-- What a RUN of a slot finds. Rest takes precedence over FREEZE (R182). -/
def slotKind (s : Chip) (d : Die) (n : Nat) : SlotKind :=
  if s.nowGet d (BCE_SLOT n) BCE_SLOT.EN = 0 then .off
  else if n < 2 ∧ s.atRest d n then .rest
  else if s.nowGet d (BCE_SLOT n) BCE_SLOT.FREEZE = 1 then .frozen
  else .active

/-- FFMODE in force; slots 2 and 3 act as 0 (Table 07.11): native feed-forward, position table. -/
def ffNative (s : Chip) (d : Die) (n : Nat) : Bool := n < 2 && (s.nowGet d (BCE_SLOT n) BCE_SLOT.FFMODE).testBit 0
def ffTable (s : Chip) (d : Die) (n : Nat) : Bool := n < 2 && (s.nowGet d (BCE_SLOT n) BCE_SLOT.FFMODE).testBit 1

/-- The compute cycles of a RUN (Table 07.2). -/
def runCycles (s : Chip) (d : Die) (n : Nat) : Nat :=
  if s.slotKind d n = .off then 1
  else 6 + 2 * (if s.nowGet d (BCE_SLOT n) BCE_SLOT.LAW = 1 then 7 else 5) + (if s.ffNative d n then 6 else 0)
    + (if s.ffTable d n then 4 else 0)

/-- The data-RAM reads of a RUN (R459). -/
def runReads (s : Chip) (d : Die) (n : Nat) : Nat :=
  match s.slotKind d n with
  | .off | .frozen => 0
  | .rest => 1
  | .active =>
    if n < 2 then 2 + (signalRead (s.nowGet d (BCE_SLOT n) BCE_SLOT.ADDSRC)).toNat + (if s.ffNative d n then 2 else 0)
    else (signalRead (s.nowGet d (BCE_SLOT n) BCE_SLOT.SPSRC)).toNat + (signalRead (s.nowGet d (BCE_SLOT n) BCE_SLOT.MSRC)).toNat

/-- A FINE sample as a signal: shifted right by 8 and saturated. -/
def fineSignal (v : Int) : Int := sat16 (v / 256)

/-- The value of a signal code; a reserved code reads 0 (R179). -/
def signal (s : Chip) (d : Die) (c : Nat) : Int :=
  if c = 0 ∨ !(signalListed c) then 0
  else if c ≤ 2 then s.getI d (CXS_I (c - 1)) CXS_I.ICELL
  else if c ≤ 4 then s.getI d (CXS_I (c - 3)) CXS_I.ISPAN
  else if c ≤ 6 then s.getI d (PGEN_STAT (c - 5)) PGEN_STAT.SP
  else if c ≤ 0x0B then s.getI d (INJ_STAT (c - 8)) INJ_STAT.OUT
  else if c ≤ 0x13 then (s.slot d (c - 0x10)).out
  else if c ≤ 0x1F then s.getI d (BCE_X (c - 0x18)) BCE_X.VALUE
  else if c ≤ 0x23 then s.nowI d (BCE_HIN (c - 0x20)) BCE_HIN.VALUE
  else if c = 0x2A then fineSignal (s.die d).cfe.spanFine
  else match s.selected d (c - 0x28) with
    | some k => fineSignal (s.getI d (CFE_FINE k) CFE_FINE.SAMPLE)
    | none => 0

/-- An invalid step, or a reserved signal code (R178, R179): PROGERR and source 124. -/
def progErr (s : Chip) (d : Die) : Chip := (s.put d BCE_STATUS BCE_STATUS.PROGERR 1).report d 124

/-! ### The arithmetic of a slot (R181 to R187) -/

/-- The value and shift in force of a coefficient word. -/
def coeff (s : Chip) (d : Die) (a : Nat) : Int × Nat := (s.nowI d a BCE_B0.VALUE, s.nowGet d a BCE_B0.SHIFT)

/-- The injection at a point of slot n (R198): the generator's output where POINT names it; a sweeper's is at the set-point (R199). -/
def injection (s : Chip) (d : Die) (n point : Nat) : Int :=
  let own := s.bit d (INJ_STAT n) INJ_STAT.OWNER
  let p := if own then 0 else s.nowGet d (INJ_CFG n) INJ_CFG.POINT
  if p = point then s.getI d (INJ_STAT n) INJ_STAT.OUT else 0

/-- The set-point of a slot (R181). -/
def setPoint (s : Chip) (d : Die) (n : Nat) : Int :=
  if n < 2 then
    let pg := s.getI d (PGEN_STAT n) PGEN_STAT.SP
    let l : Int := max (s.get d (CXS_STATE n) CXS_STATE.ILIM_NOW) pg.natAbs
    max (-l) (min (pg + s.signal d (s.nowGet d (BCE_SLOT n) BCE_SLOT.ADDSRC) + s.injection d n 0) l)
  else sat16 (s.signal d (s.nowGet d (BCE_SLOT n) BCE_SLOT.SPSRC) + s.injection d n 0)

/-- The measurement of a slot (R181). -/
def measurement (s : Chip) (d : Die) (n : Nat) : Int :=
  if n < 2 then s.getI d (CXS_I n) CXS_I.ICELL else s.signal d (s.nowGet d (BCE_SLOT n) BCE_SLOT.MSRC)

/-- The ratio r of R184, and whether it is void. -/
def ffRatio (s : Chip) (d : Die) (n : Nat) : Int × Bool :=
  match s.selected d n with
  | none => (0, true)
  | some k =>
    let v := s.getI d (CFE_FINE k) CFE_FINE.SAMPLE
    let sp := (s.die d).cfe.spanFine
    let fl := s.get d (CFE_FINE k) CFE_FINE.FLAGS ||| (s.die d).cfe.spanFlags
    if fl.testBit 0 || fl.testBit 3 || v == -8388608 || sp == -8388608 || decide (sp ≤ 0) then (0, true)
    else (sat16 (roundDiv (32768 * v) (16 * sp)), false)

/-- One term added to the 40-bit accumulator and saturated (stage 2). -/
def addTerm (acc dir term : Int) : Int × Int := limitTo (-(2 ^ 39)) (2 ^ 39 - 1) (acc + term) dir

/-- The law of a slot (stages 2 and 3): y_L and the direction of a limit. -/
def law (s : Chip) (d : Die) (n : Nat) (e : Int) : Int × Int :=
  let x := s.slot d n
  let three := s.nowGet d (BCE_SLOT n) BCE_SLOT.LAW = 1
  let es := e :: x.e
  let bs := [BCE_B0 n, BCE_B1 n, BCE_B2 n] ++ (if three then [BCE_B3 n] else [])
  let as := [BCE_A1 n, BCE_A2 n] ++ (if three then [BCE_A3 n] else [])
  let r := (bs.zip es).foldl (fun a t => let c := s.coeff d t.1; addTerm a.1 a.2 (c.1 * t.2 * 2 ^ (1 + c.2))) ((0 : Int), (0 : Int))
  let r := (as.zip x.y).foldl (fun a t => let c := s.coeff d t.1; addTerm a.1 a.2 (-(c.1 * t.2 * 2 ^ (1 + c.2)))) r
  limit16 (roundDiv r.1 (2 ^ 16)) r.2

/-- The set of an engine output that LIMERR shows: OUT_MIN above OUT_MAX. -/
def limErr (s : Chip) (d : Die) (n : Nat) : Bool :=
  decide (s.nowI d (BCE_OUTLIM n) BCE_OUTLIM.OUT_MAX < s.nowI d (BCE_OUTLIM n) BCE_OUTLIM.OUT_MIN)

/-- Stages 4 to 10 (Table 07.4): the output, the direction of the last limit, and whether the feed-forward was void. -/
def slotOutput (s : Chip) (d : Die) (n : Nat) (sp yl dir : Int) : Int × Int × Bool :=
  let r := if s.ffNative d n then s.ffRatio d n else (0, false)
  let kff := s.coeff d (BCE_KFF n)
  let f := if s.ffNative d n then sat16 (sgn sp * roundDiv (kff.1 * r.1 * 2 ^ (1 + kff.2)) (2 ^ 16)) else 0
  let y2 := limit16 (yl + f) dir
  let pos := BCE_POS n ((s.selected d n).getD 0)
  let y3 := if s.ffTable d n then limit16 (roundDiv (y2.1 * (32768 + s.nowI d pos BCE_POS.GTRIM)) 32768) y2.2 else y2
  let y4 := if s.ffTable d n then limit16 (y3.1 + sgn sp * s.nowI d pos BCE_POS.OFFSET) y3.2 else y3
  let y5 := limit16 (y4.1 + s.injection d n 1) y4.2
  let y6 := if s.limErr d n then (0, y5.2)
    else limitTo (s.nowI d (BCE_OUTLIM n) BCE_OUTLIM.OUT_MIN) (s.nowI d (BCE_OUTLIM n) BCE_OUTLIM.OUT_MAX) y5.1 y5.2
  let slew : Int := max 1 (s.nowGet d (PGEN_OSLEW n) PGEN_OSLEW.OSLEW)
  let u := if n < 2 then
      let prev := (s.slot d n).applied
      limitTo (max (-32768) (prev - slew)) (min 32767 (prev + slew)) y6.1 y6.2
    else y6
  (u.1, u.2, r.2)

/-- The flags of BCE_U for a slot. -/
def showSlot (s : Chip) (d : Die) (n : Nat) (limited held frozen rest void : Bool) : Chip :=
  s.setReg d (BCE_U n) (BitVec.ofNat 32 (ofSigned (s.slot d n).out 16 + 65536 * (limited.toNat + 2 * held.toNat + 4 * frozen.toNat
    + 8 * rest.toNat + 32 * void.toNat)))

/-- A record of the capture buffer (R200): the words of the selected signals at the next place. -/
def storeRecord (s : Chip) (d : Die) (sp e u meas : Int) : Chip :=
  let m := s.nowGet d INJ_CAPCFG INJ_CAPCFG.MASK
  let m := if m = 0 then 15 else m
  let words := ((List.range 4).zip [sp, e, u, meas]).filterMap fun x => if m.testBit x.1 then some x.2 else none
  let k := words.length
  let depth := 4096 / k
  let pos := (s.die d).eng.cap.pos
  let t := ((List.range k).zip words).foldl (fun s x => s.put d (INJ_CAPBUF (pos * k + x.1)) INJ_CAPBUF.WORD (ofSigned x.2 16)) s
  let pre := min (s.nowGet d INJ_CAPCFG INJ_CAPCFG.PRE) (depth - 1)
  let before := s.get d INJ_CAPSTAT INJ_CAPSTAT.NREC
  let trig := (s.die d).eng.cap.trig && s.get d INJ_CAPSTAT INJ_CAPSTAT.STATE == 1
  let t := (t.put d INJ_CAPSTAT INJ_CAPSTAT.NREC (min depth (before + 1))).cond trig fun s =>
    (s.put d INJ_CAPSTAT INJ_CAPSTAT.STATE 2).put d INJ_CAPAT INJ_CAPAT.AT (s.stroke d)
  let left := if trig then some (depth - min pre before) else (s.die d).eng.cap.left
  let next := (pos + 1) % depth
  let t := t.updEng d fun x => { x with cap := { x.cap with pos := next, skipped := 0, trig := x.cap.trig && !trig, left := left.map (· - 1) } }
  t.cond (left == some 1) fun s =>
    (s.put d INJ_CAPSTAT INJ_CAPSTAT.STATE 3).put d INJ_CAPSTAT INJ_CAPSTAT.FIRST (next * k)

/-- The engine runs only what the stage's stop needs, the bound slots: step 3 of an entry has its ACK, or D4 waits to restart (R394,
R397). -/
def engineRests (s : Chip) (d : Die) : Bool := s.stepRests d 3 || (s.die d).pwr.restart.contains 4

/-- CAPTURE_RECORD (R200): at the completion of the recorded slot's RUN, every DECIM + 1 strokes. -/
def capture (s : Chip) (d : Die) (n : Nat) (sp e u meas : Int) (seen : Bool) : Chip :=
  let st := s.get d INJ_CAPSTAT INJ_CAPSTAT.STATE
  let x := (s.die d).eng.cap
  let runs := (st == 2) || (st == 1 && s.nowGet d INJ_CAPCFG INJ_CAPCFG.TRIG == 1)
  if !runs || s.engineRests d || s.nowGet d INJ_CAPCFG INJ_CAPCFG.SLOT != n then s
  else if x.skipped < s.nowGet d INJ_CAPCFG INJ_CAPCFG.DECIM then s.updEng d fun x => { x with cap := { x.cap with skipped := x.cap.skipped + 1 } }
  else (s.cond seen fun s => s.put d INJ_CAPSTAT INJ_CAPSTAT.OVRSEEN 1).storeRecord d sp e u meas

/-- SLOT_RUN (R180, R182 to R187, R194): what a completed RUN does. -/
def runSlot (s : Chip) (d : Die) (n : Nat) : Chip :=
  match s.slotKind d n with
  | .off => ((s.updSlot d n fun x => { x with e := [0, 0, 0], y := [0, 0, 0], out := 0 }).showSlot d n false false false false
      false).capture d n 0 0 0 0 false
  | .rest => ((s.updSlot d n fun x => { x with e := [0, 0, 0], y := [0, 0, 0], out := 0 }).showSlot d n false false false true
      false).capture d n 0 0 0 0 false
  | .frozen => ((s.updSlot d n fun x => { x with out := x.applied }).showSlot d n false false true false false).capture d n
      (s.setPoint d n) 0 (s.slot d n).applied (s.measurement d n) true
  | .active =>
    let reserved := if n < 2 then !(signalListed (s.nowGet d (BCE_SLOT n) BCE_SLOT.ADDSRC))
      else !(signalListed (s.nowGet d (BCE_SLOT n) BCE_SLOT.SPSRC)) || !(signalListed (s.nowGet d (BCE_SLOT n) BCE_SLOT.MSRC))
    let sp := s.setPoint d n
    let meas := s.measurement d n
    let e := sat16 (sp - meas)
    let yl := s.law d n e
    let u := s.slotOutput d n sp yl.1 yl.2
    let last := (s.slot d n).y.headD 0
    let held := (u.2.1 == 1 && decide (last < yl.1)) || (u.2.1 == -1 && decide (yl.1 < last))
    let t := (s.cond reserved fun s => s.progErr d).updSlot d n fun x =>
      if held then { x with out := u.1 } else { x with e := (e :: x.e).take 3, y := (yl.1 :: x.y).take 3, out := u.1 }
    let t := (t.showSlot d n (u.2.1 != 0) held false false u.2.2).setReg d (BCE_E n)
      (BitVec.ofNat 32 (ofSigned e 16 + 65536 * ofSigned sp 16))
    t.capture d n sp e u.1 meas false

/-- SLOT_OVERRUN (R196): the output is repeated, and the overrun is shown, counted and reported. -/
def overrun (s : Chip) (d : Die) (n : Nat) : Chip :=
  let t := ((s.updSlot d n fun x => { x with out := x.applied }).put d BCE_STATUS ⟨BCE_STATUS.OVR.lo + n, 1⟩ 1).inc d BCE_OVRCNT
    ⟨8 * n, 8⟩
  let t := ((t.showSlot d n false false false false false).put d (BCE_U n) BCE_U.OVR 1).report d (120 + n)
  t.capture d n (s.setPoint d n) 0 (s.slot d n).applied (s.measurement d n) true

end Chip

/-! ### The stroke program -/

/-- A program in progress: the module, the engine cycle, the stalls still to come by read, what each contender of Table 07.1 may still cost
in the stroke, the accesses of the command port still to come, whether a self-test slice halts the engine for its window, the slots run,
and the cycle in which the program ended. -/
structure EngRun where
  chip    : Chip
  cycle   : Nat
  stalls  : List Stall
  cfe     : Nat
  shd     : Nat
  bist    : Nat
  port    : Nat
  halt    : Bool
  ran     : List Nat
  ended   : Option Nat
  expired : Bool

/-- One data-RAM read: its 2 cycles, and those it loses to the contenders that the port grants before the engine (R44, Table 07.1): CFE while
it writes results, SHD and FCOL, BIST in its window, and the command port, which alternates with the engine and so costs a read 2 cycles at
most, for an access of its own. Which reads bear a loss is not specified (R174): `stalls` says it, and none is more than its contender has
left. EIS, QLN and NIB, ULK and the core come after the engine and cost it nothing. -/
def EngRun.read (r : EngRun) : EngRun :=
  match r.stalls with
  | [] => { r with cycle := r.cycle + 2 }
  | x :: rest =>
    let c := min x.cfe (min r.cfe (96 - r.cycle))
    let h := min x.shd r.shd
    let b := if r.cycle + 2 ≤ 640 then 0 else min x.bist (min r.bist (1820 - r.cycle))
    let p := if r.port = 0 then 0 else min x.port 2
    { r with
      stalls := rest, cfe := r.cfe - c, shd := r.shd - h, bist := r.bist - b, port := if p = 0 then r.port else r.port - 1
      cycle := r.cycle + 2 + c + h + b + p }

/-- Several reads, in order. -/
def EngRun.reads : Nat → EngRun → EngRun
  | 0, r => r
  | n + 1, r => EngRun.reads n r.read

/-- The engine at a cycle it has worked to: a halt takes its window, the engine cycles 640 to 1,819 of the BIST slice, as soon as the work
reaches it (Table 07.1); past the window of the engine it has expired (R173). -/
def EngRun.reach (r : EngRun) (t : Nat) : EngRun :=
  let u := if r.halt && decide (640 < t) then t + 1180 else t
  { r with cycle := u, halt := r.halt && decide (t ≤ 640), expired := decide (2048 < u) }

/-- The engine advanced by a step's own cycles and its reads with their stalls (R174). -/
def EngRun.spend (r : EngRun) (cost reads : Nat) : EngRun :=
  let t := EngRun.reads reads r
  t.reach (t.cycle + cost)

/-- WAIT: the engine waits for a cycle; one that falls into a halt lasts as long as the halt (R178). -/
def EngRun.wait (r : EngRun) (w : Nat) : EngRun :=
  let t := max r.cycle w
  if r.halt && decide (640 < t) then { r with cycle := max t 1820, halt := false } else { r with cycle := t }

/-- A step's effect where it completed within the window. -/
def EngRun.act (r : EngRun) (f : Chip → Chip) : EngRun := if r.expired then r else { r with chip := f r.chip }

/-- A step that acts as NOP and sets PROGERR (R178). -/
def EngRun.bad (r : EngRun) (d : Die) : EngRun := (r.spend 1 0).act fun s => s.progErr d

/-- COPY, ADD, SUB, MUL and LIM (Table 07.2). -/
def EngRun.alu (r : EngRun) (d : Die) (op xd a b : Nat) : EngRun :=
  let two := op != 4
  if !(signalListed a) || (two && !(signalListed b)) then r.bad d else
  let va := r.chip.signal d a
  let vb := r.chip.signal d b
  let v := match op with
    | 4 => va
    | 5 => sat16 (va + vb)
    | 6 => sat16 (va - vb)
    | 7 => sat16 (roundDiv (va * vb) 32768)
    | _ => max (-(vb.natAbs : Int)) (min va vb.natAbs)
  (r.spend (if op = 4 then 2 else if op = 7 then 4 else 3) ((signalRead a).toNat + (two && signalRead b).toNat)).act fun s =>
    s.put d (BCE_X xd) BCE_X.VALUE (ofSigned v 16)

/-- One step (Table 07.2). -/
def EngRun.step (r : EngRun) (d : Die) (w : Word) : EngRun :=
  let v := w.toNat
  let op := v / 2 ^ 28
  let n := v / 2 ^ 24 % 4
  if op = 0 then
    let t := r.spend 1 0
    { t with ended := if t.expired then none else some (t.cycle - 1) }
  else if op = 1 then r.spend 1 0
  else if op = 2 then
    if r.ran.contains n then r.bad d
    else
      let t := (r.spend (r.chip.runCycles d n) (r.chip.runReads d n)).act fun s => s.runSlot d n
      { t with ran := if t.expired then r.ran else n :: r.ran }
  else if op = 3 then r.wait (v % 2048)
  else if op ≤ 8 then r.alu d op (v / 2 ^ 24 % 8) (v / 2 ^ 16 % 256) (v / 2 ^ 8 % 256)
  else r.bad d

/-- The steps of a program until END, the last step, or the end of the window. -/
def EngRun.run (d : Die) : List Word → EngRun → EngRun
  | [], r => { r with ended := some (r.cycle - 1) }
  | w :: rest, r =>
    let t := r.step d w
    if t.ended.isSome || t.expired then t else EngRun.run d rest t

namespace Chip

/-- A slice of this stroke halts the engine for its window: one of a BCE partition, or of the scheduler (Table 16.1). -/
def engineHalted (s : Chip) (d : Die) : Bool := (s.slicing d).any [10, 11, 22].contains

/-- The engine at the start of a stroke (R44, Table 07.1): BIST contends in a stroke with a slice, and the halt of one takes the whole of
BIST's total. -/
def engineStart (s : Chip) (d : Die) (stalls : List Stall) : EngRun :=
  let halt := s.engineHalted d
  ⟨s, 0, stalls, 96, 24, if (s.slicing d).isSome && !halt then 1180 else 0, (s.die d).eng.port, halt, [], none, false⟩

/-- BCE_STROKE_PROGRAM (R173 to R197): the program runs, slots whose RUN it did not complete overrun, and its cycles are
reported. `stalls` are the cycles that each data-RAM read lost to contention, of which no more than Table 07.1 allows count. -/
def bceStrokeProgram (d : Die) (stalls : List Stall) (s : Chip) : Chip :=
  if !(s.runsOn d 4) then s else
  let stopped := s.engineRests d
  let custom := s.nowGet d BCE_CTRL BCE_CTRL.PROG_EN = 1 ∧ !stopped
  let prog := if stopped then boundProgram else if custom then (List.range 512).map fun k => s.now d (BCE_PROG k) else standardProgram
  let r := EngRun.run d prog ((s.putB d BCE_STATUS BCE_STATUS.PROG_ACTIVE custom).engineStart d stalls)
  let t := [0, 1, 2, 3].foldl (fun t n =>
    if r.ran.contains n || (stopped && decide (2 ≤ n)) then t
    else if t.slotKind d n = .active then t.overrun d n
    else t.runSlot d n) r.chip
  let last := r.ended.getD 0xFFF
  let t := (t.put d BCE_CYCLES BCE_CYCLES.LAST last).put d BCE_CYCLES BCE_CYCLES.PEAK (max (t.get d BCE_CYCLES BCE_CYCLES.PEAK) last)
  [0, 1, 2, 3].foldl (fun t n => t.put d BCE_STATUS ⟨BCE_STATUS.LIMERR.lo + n, 1⟩ (t.limErr d n).toNat) t

/-! ### The profile generators (R189 to R192) -/

/-- MODE of a profile generator set. -/
def pgenMode (s : Chip) (d : Die) (n m : Nat) : Chip := s.put d (PGEN_STAT n) PGEN_STAT.MODE m

/-- The generator returns to IDLE with i = a = 0. -/
def pgenIdle (s : Chip) (d : Die) (n : Nat) : Chip :=
  (s.updPgen d n fun _ => ⟨0, 0, 0, 0⟩).pgenMode d n 0 |>.put d (PGEN_ACC n) PGEN_ACC.ACCEL 0

/-- The cell whose host target channel n serves (QSTAT). -/
def targetCell (s : Chip) (d : Die) (n : Nat) : Option Nat :=
  match s.selected d n with
  | some k => if s.bit d (CXS_QSTAT k) CXS_QSTAT.ACTIVE && s.get d (CXS_QSTAT k) CXS_QSTAT.CH == n then some k else none
  | none => none

/-- The target current of a channel in the units of R190, before it is clamped. -/
def pgenTarget (s : Chip) (d : Die) (n : Nat) (amax jerk : Int) : Int :=
  if s.get d (PGEN_STAT n) PGEN_STAT.MODE = 2 then
    let q := match s.targetCell d n with
      | some k => (s.die d).cxs.rem.getD k 0 * 65536
      | none => 0
    let term := if jerk = 0 then 0 else (amax * amax).tdiv (2 * jerk)
    sgn q * max ((isqrt (2 * amax * q.natAbs).toNat : Nat) - term) amax
  else if s.bit d (CXS_SEL n) CXS_SEL.RAMP || s.get d (CXS_SEL n) CXS_SEL.OWNER != 1 then 0
  else (if s.bit d (CXS_SEL n) CXS_SEL.DIR then -1 else 1) * (s.get d CXS_MGR_I CXS_MGR_I.MGR_I : Int) * 65536

/-- One step of the S-curve (R190): i and a. -/
def pgenCurve (i a itgt amax jerk : Int) : Int × Int :=
  let jm := if jerk = 0 then 2 * amax else jerk
  let gap := itgt - i
  let brk := if jerk = 0 then 0 else (a * a.natAbs).tdiv (2 * jerk)
  let a' := if brk < gap then min (a + jm) amax else if gap < brk then max (a - jm) (-amax) else a - sgn a * min (a.natAbs : Int) jm
  let inew := i + a'
  if (0 ≤ gap ∧ itgt ≤ inew) ∨ (gap ≤ 0 ∧ inew ≤ itgt) then (itgt, 0) else (inew, a')

/-- One step of a profile generator (R190, R192). -/
def pgenStep1 (d : Die) (n : Nat) (s : Chip) : Chip :=
  let x := s.pgen d n
  let amax : Int := max 1 (s.nowGet d (PGEN_LIM n) PGEN_LIM.DIDT) * 163840
  let jerk : Int := s.nowGet d (PGEN_LIM n) PGEN_LIM.JERK * 512000
  let ilim : Int := s.get d (CXS_STATE n) CXS_STATE.ILIM_NOW * 65536
  let m := s.get d (PGEN_STAT n) PGEN_STAT.MODE
  let show_ := fun (t : Chip) (i a : Int) => (t.updPgen d n fun x => { x with i := i, a := a, next := sat16 (roundDiv i 65536) }).putI d
    (PGEN_ACC n) PGEN_ACC.ACCEL (a.tdiv 163840)
  if m = 0 then s.put d (PGEN_STAT n) PGEN_STAT.ILIMIT 0
  else if m = 3 then
    let by_ := max amax (x.i0.natAbs / 32 : Nat)
    let i := if 0 < x.i then max 0 (x.i - by_) else min 0 (x.i + by_)
    ((show_ s i 0).put d (PGEN_STAT n) PGEN_STAT.ILIMIT 0).cond (i == 0) fun s => s.pgenMode d n 0
  else if s.bit d CXS_STATUS CXS_STATUS.STEPHOLD then s
  else
    let want := s.pgenTarget d n amax jerk
    let itgt := max (-ilim) (min want ilim)
    let r := pgenCurve x.i x.a itgt amax jerk
    ((show_ s r.1 r.2).putB d (PGEN_STAT n) PGEN_STAT.ILIMIT (itgt != want)).cond (m == 1 && itgt == 0 && r.1 == 0) fun s =>
      s.pgenMode d n 0

/-- A waveform's output for its stroke, and the generator's structure for the next one (Table 07.7, R198). -/
def waveform (x : GenX) (mode amp f0 f1 dur hold : Nat) : Int × GenX :=
  let a := min amp 0x7FFF
  match mode with
  | 1 => (sineOut a x.phase (2 ^ 32), { x with m := x.m + 1, phase := (x.phase + f0) % 2 ^ 32 })
  | 2 =>
    let inc := (f0 : Int) + (((f1 : Int) - f0) * x.m).tdiv dur
    (sineOut a x.phase (2 ^ 32), { x with m := x.m + 1, phase := ((x.phase + inc) % 2 ^ 32).toNat })
  | 3 =>
    let nb := (x.prbs.testBit 14) != (x.prbs.testBit 13)
    let y := if x.count = 0 then { x with prbs := (x.prbs * 2) % 2 ^ 15 + nb.toNat, high := nb } else x
    (if y.high then a else -a, { y with m := x.m + 1, count := if hold ≤ x.count then 0 else x.count + 1 })
  | _ => (0, { x with m := x.m + 1 })

/-- INJECTION_STEP (R198, R199): the output of generator n in the stroke that begins. -/
def injectionStep (d : Die) (n : Nat) (s : Chip) : Chip :=
  let x := (s.die d).eng.gens.getD n ⟨false, false, 0, 0, 0x7FFF, 0, false, 0, 1, false⟩
  let setGen := fun (s : Chip) (g : GenX) => s.updEng d fun e => { e with gens := e.gens.set n g }
  if s.bit d (INJ_STAT n) INJ_STAT.OWNER then
    if x.sweep then
      let amp := min (s.get d (INJ_AMP n) INJ_AMP.AMP) 0x7FFF
      ((setGen s { x with m := x.m + 1 }).put d (INJ_STAT n) INJ_STAT.RUNNING 1).put d (INJ_STAT n) INJ_STAT.OUT
        (ofSigned (sineOut amp (x.m * x.k % x.n) x.n) 16)
    else (s.put d (INJ_STAT n) INJ_STAT.RUNNING 0).put d (INJ_STAT n) INJ_STAT.OUT 0
  else
    let mode := s.get d (INJ_CFG n) INJ_CFG.MODE
    let seed := s.get d (INJ_CFG n) INJ_CFG.SEED
    let fresh : GenX := { x with go := false, stop := false, m := 0, phase := 0, prbs := if seed = 0 then 0x7FFF else seed, count := 0 }
    let runs := (s.bit d (INJ_STAT n) INJ_STAT.RUNNING || x.go) && !x.stop
    let x := if x.stop then { x with stop := false, go := false } else if x.go then fresh else x
    let dur := max 1 (s.get d (INJ_DUR n) INJ_DUR.DUR)
    let past := mode == 2 && decide (dur ≤ x.m)
    let rep := s.bit d (INJ_CFG n) INJ_CFG.REPEAT
    let x := if past && rep then { x with m := 0 } else x
    if !runs || (past && !rep) then
      ((setGen s x).put d (INJ_STAT n) INJ_STAT.RUNNING 0).put d (INJ_STAT n) INJ_STAT.OUT 0
    else
      let r := waveform x mode (s.get d (INJ_AMP n) INJ_AMP.AMP) (s.get d (INJ_F0 n) INJ_F0.INC) (s.get d (INJ_F1 n) INJ_F1.INC) dur
        (s.get d (INJ_CFG n) INJ_CFG.HOLD)
      ((setGen s r.2).put d (INJ_STAT n) INJ_STAT.RUNNING 1).put d (INJ_STAT n) INJ_STAT.OUT (ofSigned r.1 16)

/-- Bits set of a mask of four signals; MASK = 0 acts as all (Table 07.17). -/
def signalCount (m : Nat) : Nat := ((List.range 4).filter fun i => m = 0 || m.testBit i).length

/-- An accepted arming (R201): the capture in progress is discarded. With TRIG = 0 recording begins in this stroke, with a blot where
BLOT_OUT asks for it; with TRIG = 1 the buffer waits for the blot. -/
def armCapture (s : Chip) (d : Die) : Chip :=
  let w := s.reg d INJ_CAPCFG
  let blot := INJ_CAPCFG.TRIG.read w = 1
  let depth := 4096 / signalCount (INJ_CAPCFG.MASK.read w)
  let t := (s.setReg d INJ_CAPSTAT (if blot then 1 else 2)).updEng d fun e =>
    { e with cap := ⟨false, false, INJ_CAPCFG.DECIM.read w, 0, if blot then none else some depth⟩ }
  t.cond (!blot && INJ_CAPCFG.BLOT_OUT.read w == 1) fun s => s.trigger d 3 0

/-- The engine's part of a stroke edge: pending values take effect (R193), outputs are those of the stroke before (R188), a start
capture begins (R201), and the injection generators step. -/
def engineEdge (d : Die) (s : Chip) : Chip :=
  let t := s.updEng d fun e => { e with held := [], port := 0, slots := e.slots.map fun x => { x with applied := x.out } }
  let t := t.cond (t.die d).eng.cap.start fun s => s.armCapture d
  t.each [0, 1, 2, 3] fun n s => s.injectionStep d n

/-- A write of INJ_CFG (R198, R199, Table 07.16): refused while a sweeper owns the generator; STOP before GO. Of several writes with GO or
STOP in one stroke the last one acts (R193). A generator stopped for an entry does not start (R394). -/
def writeInjCfg (s : Chip) (d : Die) (n : Nat) (w : Word) : Chip :=
  if s.bit d (INJ_STAT n) INJ_STAT.OWNER then s else
  let go := INJ_CFG.GO.read w = 1 ∧ !(s.engineRests d)
  let stop := INJ_CFG.STOP.read w = 1
  let w := INJ_CFG.STOP.write (INJ_CFG.GO.write (w &&& 0x7FFFFF7F) 0) 0
  let w := if 4 ≤ INJ_CFG.MODE.read w then INJ_CFG.MODE.write w 0 else w
  let g := (s.die d).eng.gens.getD n ⟨false, false, 0, 0, 0x7FFF, 0, false, 0, 1, false⟩
  let g' := if go || stop then { g with go := go && !stop, stop := stop } else g
  (s.writePending d (INJ_CFG n) w).updEng d fun e => { e with gens := e.gens.set n g' }

/-- A write of a frequency (R198): an increment outside 6,711 to 0x2000_0000 is clamped. -/
def writeInjFreq (s : Chip) (d : Die) (n a : Nat) (w : Word) : Chip :=
  if s.bit d (INJ_STAT n) INJ_STAT.OWNER then s else
  let v := max 6711 (min w.toNat 0x20000000)
  (s.writePending d a (BitVec.ofNat 32 v)).cond (v != w.toNat) fun s => s.put d (INJ_STAT n) INJ_STAT.CLAMPED 1

/-- A write of INJ_CAPCFG (R193, R200, R201): in force from the next stroke edge. With ARM a new capture starts there, unless the engine
has stopped for an entry (R394). -/
def writeCapture (s : Chip) (d : Die) (w : Word) : Chip :=
  (s.writePending d INJ_CAPCFG (INJ_CAPCFG.ARM.write (w &&& 0x1FFFFFFF) 0)).cond (INJ_CAPCFG.ARM.read w == 1 && !(s.engineRests d)) fun s =>
    s.updEng d fun e => { e with cap := { e.cap with start := true } }

/-- A write of BCE_PROG is refused while PROG_EN = 1 (R177). -/
def progLocked (s : Chip) (d : Die) : Bool := s.get d BCE_CTRL BCE_CTRL.PROG_EN == 1

end Chip

/-- BCE_STROKE_PROGRAM (R177). -/
def execBceStrokeProgram (d : Die) (stalls : List Stall) (s : State) : Host.Outcome State Fault Refusal :=
  s.run (Chip.bceStrokeProgram d stalls)

/-- PGEN_STEP (R190): the set-points of the next stroke. -/
def execPgenStep (d : Die) (s : State) : Host.Outcome State Fault Refusal :=
  s.run fun c => if c.runsOn d 4 then (c.pgenStep1 d 0).pgenStep1 d 1 else c

/-- INJ_GO (R198): a write of INJ_CFG with GO starts the waveform at the next stroke edge. -/
def execInjGo (d : Die) (slot : Fin 4) (w : Word) (s : State) : Host.Outcome State Fault Refusal :=
  s.run fun c => if c.on d 4 then c.writeInjCfg d slot.val (INJ_CFG.GO.write w 1) else c

/-- INJ_STOP (R198): a write of INJ_CFG with STOP sets the output to 0 from the next stroke edge. -/
def execInjStop (d : Die) (slot : Fin 4) (w : Word) (s : State) : Host.Outcome State Fault Refusal :=
  s.run fun c => if c.on d 4 then c.writeInjCfg d slot.val (INJ_CFG.STOP.write w 1) else c

/-- CAPTURE_ARM (R201): a write of INJ_CAPCFG with ARM. -/
def execCaptureArm (d : Die) (w : Word) (s : State) : Host.Outcome State Fault Refusal :=
  s.run fun c => if c.on d 4 then c.writeCapture d (INJ_CAPCFG.ARM.write w 1) else c

end Sys2Proof.Machine
end

