-- ==== Sys2Proof/Machine/Stage.lean ====
section
/-! DEFINITION. The balancing stage: converter channels and their selections, bleed switches, the hysteretic manager, host charge
targets, stop ramps and the current leveller (chapter Balancing Stage; R116, R117, R127, R139). -/
namespace Sys2Proof.Machine

namespace Chip

/-- A converter channel's structure. -/
def chan (s : Chip) (d : Die) (n : Nat) : ChanX := (s.die d).cxs.chans.getD n ⟨false, none, none, 0, false, false, false⟩

/-- A converter channel's structure changed. -/
def updChan (s : Chip) (d : Die) (n : Nat) (f : ChanX → ChanX) : Chip :=
  s.updCxs d fun x => { x with chans := x.chans.set n (f (s.chan d n)) }

/-- Cell k is marked INVALID (R101). -/
def cellInvalid (s : Chip) (d : Die) (k : Nat) : Bool := (s.die d).cfe.invalid.contains k

/-- The wiring rules of Shared mode hold: Shared wiring, or WIRING not written since reset (R109). -/
def sharedRules (s : Chip) (d : Die) : Bool :=
  !((s.die d).boot.locked.contains OWD_CONFIG) || s.bit d OWD_CONFIG OWD_CONFIG.WIRING

/-- Shared wiring is in force (R109). -/
def shared (s : Chip) (d : Die) : Bool := (s.die d).boot.locked.contains OWD_CONFIG && s.bit d OWD_CONFIG OWD_CONFIG.WIRING

/-! ### Limits (R152, R326 to R328) -/

/-- The throttle current floor, LSB 125 µA: IFLOOR above 2.0 A acts as 2.0 A. -/
def throttleFloor (s : Chip) (d : Die) : Nat := min (s.get d THM_CFG THM_CFG.IFLOOR * 80) 16000

/-- The throttle current limit of a depth (Table 12.4). -/
def depthLimit (s : Chip) (d : Die) (depth : Nat) : Nat :=
  if depth ≤ 6 then max (16000 - 2000 * depth) (s.throttleFloor d) else s.throttleFloor d

/-- The thermal limit of R152: by depth, or the host's (R328). -/
def thermalLimit (s : Chip) (d : Die) : Nat :=
  if s.mode d FOL_MODENOW.THROT then s.get d THM_HOSTLIM THM_HOSTLIM.ILIM
  else if s.get d THM_STAT THM_STAT.DEPTH = 0 then 16000
  else s.depthLimit d (s.get d THM_STAT THM_STAT.DEPTH)

/-- The present current limit of a channel (R152). -/
def presentLimit (s : Chip) (d : Die) (n : Nat) : Nat :=
  min (min (s.get d (CXS_CFG n) CXS_CFG.ILIM) 16000) (s.thermalLimit d)

/-! ### Selecting a cell (R116, R153, R154, R167) -/

/-- A channel is free (R153): its set-point is zero and |ICELL| is below 20 mA. -/
def chanFree (s : Chip) (d : Die) (n : Nat) : Bool :=
  s.getI d (PGEN_STAT n) PGEN_STAT.SP == 0 && decide ((s.getI d (CXS_I n) CXS_I.ICELL).natAbs < 160)

/-- The open-wire structure of a die changed. -/
def updOwd (s : Chip) (d : Die) (f : OwdX → OwdX) : Chip := s.upd d fun x => { x with owd := f x.owd }

/-- A step stage holds the bleed duties, the selections and the set-points of the line that begins (R112): for its 8 lines, or until a
reading fell in a degraded line. -/
def stepHeld (s : Chip) (d : Die) : Bool :=
  s.bit d CXS_STATUS CXS_STATUS.STEPHOLD && !((s.die d).owd.spoilt)
    && match (s.die d).owd.step with
      | some (_, _, l) => decide (s.stroke d / 4 < l + 8)
      | none => false

/-- The event that keeps the stage from assigning a channel (Table 06.3; sources 108 and 115; R399 group 0). -/
def noAssign (s : Chip) (d : Die) : Bool :=
  s.bit d CXS_STATUS CXS_STATUS.THOLD || s.heldAtZero d || s.isolated d 108 || s.isolated d 115
    || s.bit d CXS_STATUS CXS_STATUS.RETIRED || (s.die d).cxs.asleep || (s.get d PWR_PAD PWR_PAD.HELD).testBit 0

/-- A current-sense item holds channel n at this line (R355). -/
def senseHolds (s : Chip) (d : Die) (n : Nat) : Bool :=
  (s.die d).cal.sense.any fun i => i.1 / 2 == n && decide (s.stroke d / 4 < i.2)

/-- Channel n may take a cell at this line boundary (R153, R168, R355). -/
def mayTake (s : Chip) (d : Die) (n : Nat) : Bool :=
  (s.selected d n).isNone && s.chanFree d n && s.bit d (CXS_CFG n) CXS_CFG.EN && !(s.noAssign d) && !(s.stepHeld d) && !(s.senseHolds d n)

/-- The cell for which sweeper n takes its channel at this line boundary (R139, R140, R327): it waits, the channel may take a cell, and with
PRIO = 0 there is no demand on it. -/
def sweepTakes (s : Chip) (d : Die) (n : Nat) : Option Nat :=
  if s.get d (EIS_STATUS n) EIS_STATUS.STATE == 1 && s.mayTake d n && !(s.bit d THM_STAT THM_STAT.SWPAUSE)
      && (s.bit d EIS_SCHED ⟨n, 1⟩ || (s.chan d n).want.isNone) then some (s.get d (EIS_STATUS n) EIS_STATUS.CELL)
  else none

/-- The cell that keeps channel n from others at this line boundary (R116, R154): the one that the other channel selects. CX0 is granted
before CX1, so CX1 yields to the cell that CX0 takes there; CX0 yields to a cell that CX1 is to take only while CX0 itself is not free. -/
def otherCell (s : Chip) (d : Die) (n : Nat) : Option Nat :=
  let taking := fun (m : Nat) => ((s.chan d m).want.map (·.1)).or ((s.sweepTakes d m).filter fun k => !(s.cellInvalid d k))
  (s.selected d (1 - n)).or (if n = 0 && (s.selected d 0).isNone then none else taking (1 - n))

/-- Why a channel may not select a cell (R154): 1 adjacency, 2 same cell, 3 INVALID cell. -/
def refusal (s : Chip) (d : Die) (n k : Nat) : Option Nat :=
  let other := s.otherCell d n
  if other = some k then some 2
  else if s.sharedRules d && (match other with | some o => decide (o ≤ k + 1) && decide (k ≤ o + 1) | none => false) then some 1
  else if s.cellInvalid d k then some 3
  else none

/-- The row that last stopped a channel (Table 06.3): a cause that ends the current at once keeps its place. -/
def setCause (s : Chip) (d : Die) (n cause : Nat) : Chip :=
  if (s.heldAtZero d || s.severeStop d n) && [3, 4, 5, 6].contains (s.get d (CXS_STATE n) CXS_STATE.STOPCAUSE)
      && [1, 2, 7].contains cause then s
  else s.put d (CXS_STATE n) CXS_STATE.STOPCAUSE cause

/-- A release (R161, R189): the set-point goes to zero through the profile generator. -/
def releaseChan (s : Chip) (d : Die) (n : Nat) : Chip :=
  if (s.selected d n).isNone then s
  else (s.put d (CXS_SEL n) CXS_SEL.RAMP 1).cond (s.get d (PGEN_STAT n) PGEN_STAT.MODE == 2) fun s => s.pgenMode d n 1

/-- A stop ramp (R167, R192), with its STOPCAUSE where the event has one. -/
def stopRamp (s : Chip) (d : Die) (n : Nat) (cause : Option Nat) : Chip :=
  if (s.selected d n).isNone then s else
  let t := match cause with
    | some c => s.setCause d n c
    | none => s
  if (s.chan d n).stopping then t
  else (((t.put d (CXS_SEL n) CXS_SEL.RAMP 1).updPgen d n fun x => { x with i0 := x.i, a := 0 }).pgenMode d n 3).updChan d n
    fun c => { c with stopping := true }

/-- A stop ramp on both channels. -/
def stopRamps (s : Chip) (d : Die) (cause : Option Nat) : Chip := (s.stopRamp d 0 cause).stopRamp d 1 cause

/-- A channel is deselected. -/
def deselect (s : Chip) (d : Die) (n : Nat) : Chip :=
  let t := match s.selected d n with
    | some k => s.put d (CXS_QSTAT k) CXS_QSTAT.ACTIVE 0
    | none => s
  let sel := CXS_SEL.REFUSE.write 0x1F (s.get d (CXS_SEL n) CXS_SEL.REFUSE)
  (((t.setReg d (CXS_SEL n) sel).pgenIdle d n).put d (CXS_STATE n) CXS_STATE.DUTY 0).updChan d n fun c =>
    { c with stopping := false, past := none, severe := false }

/-- A selection runs break-before-make (Table 06.2): D is 0 and PENDING stands until the next stroke edge. -/
def select (s : Chip) (d : Die) (n k owner dir : Nat) : Chip :=
  let sel := CXS_SEL.REFUSE.write (BitVec.ofNat 32 (k + 32 * owner + 128 * dir + 256)) (s.get d (CXS_SEL n) CXS_SEL.REFUSE)
  let t := ((s.setReg d (CXS_SEL n) sel).pgenIdle d n).put d (CXS_STATE n) CXS_STATE.DUTY 0
  let t := t.updChan d n fun c => { c with stopping := false, want := none, past := none, severe := false }
  t.cond (owner == 2) fun s =>
    (s.put d (CXS_QSTAT k) CXS_QSTAT.ACTIVE 1).put d (CXS_QSTAT k) CXS_QSTAT.CH n

/-- The events that suspend host targets: those of `noAssign` but a supply dip (Table 06.3). -/
def suspends (s : Chip) (d : Die) : Bool :=
  s.bit d CXS_STATUS CXS_STATUS.THOLD || s.bit d CXS_STATUS CXS_STATUS.CUT || s.bit d CXS_STATUS CXS_STATUS.SAFE
    || s.isolated d 108 || s.isolated d 115 || s.bit d CXS_STATUS CXS_STATUS.RETIRED

/-- A sweep with PRIO = 1 keeps channel n from every demand (R139). -/
def sweepWins (s : Chip) (d : Die) (n : Nat) : Bool :=
  s.bit d EIS_SCHED ⟨n, 1⟩ && s.get d (EIS_STATUS n) EIS_STATUS.STATE != 0

/-- Channel n may take a cell at this line boundary, or is held by a sweeper that gives way to a demand (R139). -/
def chanOpen (s : Chip) (d : Die) (n : Nat) : Bool :=
  s.bit d (CXS_CFG n) CXS_CFG.EN && !(s.sweepWins d n)
    && (((s.selected d n).isNone && s.chanFree d n && !(s.senseHolds d n)) || s.get d (CXS_SEL n) CXS_SEL.OWNER == 3)

/-- The order in which the channels take cells at a line boundary (R161, R165): CX0 before CX1, and a channel that a sweeper holds, for which
a demand only makes the sweeper give way (R139), after a free one. -/
def takeOrder (s : Chip) (d : Die) : List Nat := if s.get d (CXS_SEL 0) CXS_SEL.OWNER = 3 then [1, 0] else [0, 1]

/-- The first cell of a ranking that channel n may select; where the channel is free, the reason for the first one passed over goes to
REFUSE (R154). -/
def pick (s : Chip) (d : Die) (n : Nat) (ranked : List Nat) : Option Nat × Chip :=
  let choice := ranked.find? fun k => (s.refusal d n k).isNone
  let passed := ranked.takeWhile fun k => (s.refusal d n k).isSome
  match passed.head?.bind (s.refusal d n) with
  | some why => (choice, s.cond ((s.selected d n).isNone && s.chanFree d n) fun s => s.put d (CXS_SEL n) CXS_SEL.REFUSE why)
  | none => (choice, s)

/-- Cells a channel selects, or is to select at this line boundary. -/
def servedCells (s : Chip) (d : Die) : List Nat :=
  [0, 1].filterMap fun n => (s.selected d n).or ((s.chan d n).want.map (·.1))

/-! ### The manager (R159 to R162) -/

/-- The LINE samples of a die latched at a line, if it has them. -/
def lineSamples (s : Chip) (d : Die) (line : Nat) : Option (List (Int × Nat)) :=
  ((s.die d).cfe.lines.find? (·.1 == line)).map (·.2)

/-- A sample is eligible (R159): none of INVALID, RANGE, SHADOW_ONLY. -/
def eligibleFlags (fl : Nat) : Bool := !(fl.testBit 0 || fl.testBit 3 || fl.testBit 4)

/-- The eligible samples of a die at a line. -/
def eligible (s : Chip) (d : Die) (line : Nat) : List (Nat × Int) :=
  match s.lineSamples d line with
  | some l => ((List.range (min 16 (s.cells d))).zip l).filterMap fun x => if eligibleFlags x.2.2 then some (x.1, x.2.1) else none
  | none => []

/-- The mean of samples, rounded half to even. -/
def meanOf (l : List Int) : Option Int := if l = [] then none else some (roundDiv (sumInt l) l.length)

/-- The target T of R159 at line L. -/
def target (s : Chip) (d : Die) (line : Nat) : Option Int :=
  let own := (s.eligible d (line - 1)).map (·.2)
  let all := ((allDies.filter fun k => s.fitted k && s.alive d k).map fun k => (s.eligible k (line - 2)).map (·.2)).flatten
  match s.get d CXS_MGR CXS_MGR.TSRC with
  | 0 => meanOf all
  | 1 => all.foldl (fun m v => match m with | none => some v | some x => some (min x v)) none
  | 2 => let v := s.getI d CXS_TARGET CXS_TARGET.TARGET; if v = -8388608 then none else some v
  | _ => meanOf own

/-- A ranking of cells by a magnitude, largest first, ties to the lower cell. -/
def rankBy (l : List Nat) (mag : Nat → Nat) : List Nat :=
  l.foldl (fun acc k => (acc.takeWhile fun j => mag k ≤ mag j) ++ k :: (acc.dropWhile fun j => mag k ≤ mag j)) []

/-- The candidates of R160. -/
def candidates (s : Chip) (d : Die) (line : Nat) (t : Option Int) : Chip :=
  let hi : Int := s.get d CXS_BAND CXS_BAND.BAND_HI * 100
  let lo : Int := min (s.get d CXS_BAND CXS_BAND.BAND_LO * 100) hi
  let el := s.eligible d (line - 1)
  let judge := fun k =>
    match t, el.find? (·.1 == k) with
    | some t, some v =>
      let e := v.2 - t
      let was := (s.die d).cxs.cand.getD k false
      (if was then !decide ((e.natAbs : Int) < lo) else decide (hi < (e.natAbs : Int)), e)
    | _, _ => (false, 0)
  let js := (List.range 16).map judge
  (s.updCxs d fun x => { x with cand := js.map (·.1), err := js.map (·.2) }).put d CXS_TGTUSE CXS_TGTUSE.TARGET
    (ofSigned (t.getD (-8388608)) 24) |>.putB d CXS_TGTUSE CXS_TGTUSE.VALID t.isSome

/-- A cell is a candidate, and its error. -/
def isCand (s : Chip) (d : Die) (k : Nat) : Bool := (s.die d).cxs.cand.getD k false
def errOf (s : Chip) (d : Die) (k : Nat) : Int := (s.die d).cxs.err.getD k 0

/-- Channel n is held by the manager and not being released. -/
def mgrHolds (s : Chip) (d : Die) (n : Nat) : Bool :=
  (s.selected d n).isSome && s.get d (CXS_SEL n) CXS_SEL.OWNER == 1 && !(s.bit d (CXS_SEL n) CXS_SEL.RAMP)

/-- Step 1 of R161. -/
def mgrKeep (d : Die) (n : Nat) (s : Chip) : Chip :=
  match s.selected d n with
  | some k =>
    let dir := s.bit d (CXS_SEL n) CXS_SEL.DIR
    if s.mgrHolds d n && !(s.isCand d k && dir == decide (s.errOf d k < 0)) then s.releaseChan d n else s
  | none => s

/-- The unserved candidates, ranked. -/
def unserved (s : Chip) (d : Die) : List Nat :=
  rankBy ((List.range 16).filter fun k => s.isCand d k && !((s.servedCells d).contains k)) fun k => (s.errOf d k).natAbs

/-- Step 2 of R161: at most one channel is released for a better candidate. -/
def mgrSwap (d : Die) (s : Chip) : Chip :=
  let mag := fun n => match s.selected d n with | some k => (s.errOf d k).natAbs | none => 0
  let held := [0, 1].filter fun n => s.mgrHolds d n
  let h := match held with
    | [a, b] => if mag b < mag a then some b else some a
    | l => l.head?
  match h with
  | none => s
  | some n =>
    let better := (s.unserved d).any fun k => (s.refusal d n k).isNone
      && decide (mag n + s.get d CXS_BAND CXS_BAND.SWAP * 1000 ≤ (s.errOf d k).natAbs)
    s.cond better fun s => s.releaseChan d n

/-- Step 3 of R161 for a channel, in the order of `takeOrder`: the cell it wants at this line boundary. -/
def mgrTake (d : Die) (n : Nat) (s : Chip) : Chip :=
  if !(s.chanOpen d n) || s.noAssign d then s else
  let p := s.pick d n (s.unserved d)
  match p.1 with
  | some k => p.2.updChan d n fun c => { c with want := some (k, 1, (decide (s.errOf d k < 0)).toNat) }
  | none => p.2

/-- The bleed duties of the manager (R162). -/
def mgrBleed (d : Die) (s : Chip) : Chip :=
  let past := rankBy ((List.range 16).filter fun k => s.isCand d k && decide (0 < s.errOf d k) && !((s.servedCells d).contains k))
    fun k => (s.errOf d k).natAbs
  let cells := past.take (min 16 (s.get d CXS_MGR CXS_MGR.MAXBLEED))
  let duty := min 256 (s.get d CXS_MGR CXS_MGR.BLEED_DUTY)
  s.updCxs d fun x => { x with mgr := (List.range 16).map fun k => if cells.contains k then duty else 0 }

/-- MANAGER_LINE (R159 to R162): in hardware mode, once per line. During a step stage it is evaluated, and its changes wait (R168). -/
def managerLine (d : Die) (s : Chip) : Chip :=
  let conv := s.bit d CXS_MGR CXS_MGR.CONV_EN
  let bleed := s.bit d CXS_MGR CXS_MGR.BLEED_EN
  let hold := s.stepHeld d
  let off := fun (s : Chip) => s.updCxs d fun x => { x with mgr := List.replicate 16 0 }
  let t := s.each [0, 1] fun n s =>
    (s.cond (!conv && !hold && s.mgrHolds d n) fun s => s.releaseChan d n).updChan d n fun c => { c with want := none }
  if !conv && !bleed then off t
  else
    let line := s.stroke d / 4
    let t := t.candidates d line (t.target d line)
    let t := t.cond (conv && !hold && !(t.noAssign d)) fun s => ((s.mgrKeep d 0).mgrKeep d 1).mgrSwap d
    let t := t.cond (conv && !hold) fun s => s.each (s.takeOrder d) fun n s => mgrTake d n s
    if bleed then t.mgrBleed d else off t

/-! ### Host targets (R163 to R165) -/

/-- The host targets kept suspended for a sweep (R139): that of a channel which a PRIO = 1 sweep wins, until the sweep has ended and
released the channel. -/
def sweptTargets (s : Chip) (d : Die) : List (Nat × Nat) :=
  let kept := (s.die d).cxs.swept.filter fun p => s.sweepWins d p.1 || s.get d (CXS_SEL p.1) CXS_SEL.OWNER == 3
  [0, 1].foldl (fun l n =>
    match s.targetCell d n with
    | some k => if s.sweepWins d n && !(l.contains (n, k)) then (n, k) :: l else l
    | none => l) kept

/-- A target is suspended (R165): its cell is INVALID, a sweep holds its channel, or an event of Table 06.3 suspends it. -/
def targetSuspended (s : Chip) (d : Die) (k : Nat) : Bool :=
  (s.die d).cxs.rem.getD k 0 != 0 && (s.cellInvalid d k || s.suspends d || (s.die d).cxs.swept.any fun p => p.2 == k)

/-- The targets that a PRIO = 1 sweep takes their channels from, noted while they are served (R139). -/
def noteSwept (d : Die) (s : Chip) : Chip :=
  let l := s.sweptTargets d
  s.updCxs d fun x => { x with swept := l }

/-- The suspension of every target at a line boundary, in either mode. -/
def suspendLine (d : Die) (s : Chip) : Chip :=
  (s.noteSwept d).each (List.range 16) fun k s => s.putB d (CXS_QSTAT k) CXS_QSTAT.SUSP (s.targetSuspended d k)

/-- Cells that a host target's channel serves or is to serve; a cell that a sweeper holds still makes its demand (R139). -/
def hostServed (s : Chip) (d : Die) : List Nat :=
  [0, 1].filterMap fun n =>
    (if s.get d (CXS_SEL n) CXS_SEL.OWNER = 3 then none else s.selected d n).or ((s.chan d n).want.map (·.1))

/-- HOST_TARGET_SCHEDULE (R165): suspended targets are left, and free channels want cells. During a step stage nothing changes (R168). -/
def hostLine (d : Die) (s : Chip) : Chip :=
  let rem := fun k => (s.die d).cxs.rem.getD k 0
  let hold := s.stepHeld d
  let t := s.each [0, 1] fun n s =>
    match s.targetCell d n with
    | some k => s.cond (s.targetSuspended d k && !hold) fun s => s.releaseChan d n
    | none => s
  let t := t.each [0, 1] fun n s => s.updChan d n fun c => { c with want := none }
  if t.noAssign d || hold then t else
  t.each (t.takeOrder d) fun n s =>
    if !(s.chanOpen d n) then s else
    let ranked := rankBy ((List.range (min 16 (s.cells d))).filter fun k =>
      rem k != 0 && !(s.targetSuspended d k) && !((s.hostServed d).contains k)) fun k => (rem k).natAbs
    let p := s.pick d n ranked
    match p.1 with
    | some k => p.2.updChan d n fun c => { c with want := some (k, 2, (decide (rem k < 0)).toNat) }
    | none => p.2

/-! ### Bleeds (R155 to R158, R166) -/

/-- All bleeds are off (Table 06.3, sources 108 and 115, R399 group 1). -/
def bleedsOff (s : Chip) (d : Die) : Bool :=
  s.bit d THM_STAT THM_STAT.HOLD || s.bit d CXS_STATUS CXS_STATUS.CUT || s.bit d CXS_STATUS CXS_STATUS.SAFE
    || s.isolated d 108 || s.isolated d 115 || s.bit d CXS_STATUS CXS_STATUS.RETIRED || (s.die d).cxs.asleep
    || (s.get d PWR_PAD PWR_PAD.HELD).testBit 1

/-- The commanded duty of a cell (R166). -/
def commanded (s : Chip) (d : Die) (k : Nat) : Nat :=
  if s.mode d FOL_MODENOW.BAL then min 256 (s.get d (CXS_BLEED k) CXS_BLEED.DUTY) else (s.die d).cxs.mgr.getD k 0

/-- FORCED of a cell: its applied duty differs from the commanded one (R158); always in RETIRED (Table 06.3) and while pad group 1 is held
(R399). In hardware mode DUTY reads
the manager's duty (R166). -/
def showForced (d : Die) (k : Nat) (s : Chip) : Chip :=
  let cmd := s.commanded d k
  (s.cond (!(s.mode d FOL_MODENOW.BAL)) fun s => s.put d (CXS_BLEED k) CXS_BLEED.DUTY cmd).putB d (CXS_BLEED k) CXS_BLEED.FORCED
    ((s.die d).cxs.applied.getD k 0 != cmd || s.bit d CXS_STATUS CXS_STATUS.RETIRED
      || (s.get d PWR_PAD PWR_PAD.HELD).testBit 1)

/-- FORCED of every cell of a powered D3 follows a change of the pads (R399). -/
def padsShow (s : Chip) (d : Die) : Chip := s.cond (s.on d 3) fun s => s.each (List.range 16) fun k s => s.showForced d k

/-- The applied duties shown: BLEEDING, FORCED, and the manager's duty in hardware mode. -/
def showBleeds (s : Chip) (d : Die) (applied : List Nat) : Chip :=
  let t := s.updCxs d fun x => { x with applied := applied }
  let t := t.put d CXS_STATUS CXS_STATUS.BLEEDING
    ((List.range 16).foldl (fun m k => if applied.getD k 0 = 0 then m else m + 2 ^ k) 0)
  t.each (List.range 16) fun k s => s.showForced d k

/-- Every bleed is turned off at once, in cycle `cyc` of the line (Table 06.3): a switch that was still on for its duty is cut (R110). -/
def bleedsStop (s : Chip) (d : Die) (cyc : Nat) : Chip :=
  (s.updCxs d fun x =>
    let cut := (List.range 16).filter fun k => decide (cyc < 16 * x.begun.getD k 0) && !(x.cutAt.any (·.1 == k))
    { x with cutAt := x.cutAt ++ cut.map fun k => (k, cyc) }).showBleeds d (List.replicate 16 0)

/-- The bleeds stop at the stroke edge, which ends a stroke of their line. -/
def bleedsStopEdge (s : Chip) (d : Die) : Chip := s.bleedsStop d (1024 * (if s.lineStroke d = 0 then 4 else s.lineStroke d))

/-- The line cycle of an event within the present stroke: the event's row brings none, so its place in the stroke is free
(assumption 155). -/
def lineCycle (s : Chip) (d : Die) : Nat := 1024 * s.lineStroke d + Config.freeNat s.free % 1024

/-- The bleeds stop within the present stroke. -/
def bleedsStopNow (s : Chip) (d : Die) : Chip := (s.bleedsStop d (s.lineCycle d)).draw

/-- The line's MCLK cycle in which the switch of cell k turned off (R155, R157). -/
def bleedEnd (s : Chip) (d : Die) (k : Nat) : Nat :=
  let x := (s.die d).cxs
  min (16 * x.begun.getD k 0) (((x.cutAt.find? (·.1 == k)).map (·.2)).getD 4096)

/-- The duty of the step cell in the line that begins (R112). -/
def stepDuty (s : Chip) (d : Die) (c : Nat) : Option Nat :=
  match (s.die d).owd.step with
  | some (_, k, l) => if k = c ∧ s.stepHeld d then some (if (s.stroke d / 4 - l) % 2 = 0 then 256 else 0) else none
  | none => none

/-- The duties of the line that begins (R155, R158): the step stage of R112, duties held by an active bin (R127), and the commands. -/
def bleedLine (d : Die) (s : Chip) : Chip :=
  let off := s.bleedsOff d
  let x := (s.die d).cxs
  let held := s.stepHeld d
  let duties := (List.range 16).map fun k =>
    if off || s.cellInvalid d k || x.ocHeld.contains k then 0
    else match s.stepDuty d k, x.holdDuty.find? (·.1 == k) with
      | some u, _ => u
      | none, some h => h.2
      | none, none => if held then x.applied.getD k 0 else s.commanded d k
  (s.updCxs d fun x => { x with begun := duties, cutAt := [] }).showBleeds d duties

/-- The on-currents of the line that ended (R156): of each switch that was on for at least 32 MCLK cycles. -/
def bleedCurrents (d : Die) (ion : List Nat) (s : Chip) : Chip :=
  s.each (List.range 16) fun k s =>
    s.cond (decide (32 ≤ s.bleedEnd d k)) fun s => s.putSat d (CXS_BLEED k) CXS_BLEED.ION (ion.getD k 0)

/-- The on-current of the step cell joins the sum of its stage after each of its on lines (R112, R156). -/
def stepCurrent (d : Die) (s : Chip) : Chip :=
  match (s.die d).owd.step with
  | some (_, k, l) =>
    let q := s.stroke d / 4 - l
    s.cond (decide (q < 8) && q % 2 == 1) fun s => s.updOwd d fun x => { x with stepIon := x.stepIon + s.get d (CXS_BLEED k) CXS_BLEED.ION }
  | none => s

/-! ### The leveller (R169, R170) -/

/-- The dummy load and what it leaves to show: HEADROOM where the own draw without it exceeds the target (R170), and the own draw with
it; LSB 0.1 µA. During a dip the dummy load is off, and its setting stands until normal work resumes (R170, R407). -/
def level (s : Chip) (d : Die) (target draw dummy : Nat) : Chip :=
  let head := s.bit d CXS_LEVEL CXS_LEVEL.EN && decide (target < draw)
  let load := if !(s.bit d CXS_LEVEL CXS_LEVEL.EN) || head then 0 else dummy
  ((s.updCxs d fun x => { x with dummy := load }).putB d CXS_LEVSTAT CXS_LEVSTAT.HEADROOM head).putSat d CXS_LEVSTAT CXS_LEVSTAT.DRAW
    (draw + if s.degraded d then 0 else load)

/-- LEVELLER_ADJUST and LEVELLER_HEADROOM in RUN and DOZE (R169, R170): `draw` is the own draw without dummy load, LSB 0.1 µA; the dummy
load moves by one 10 µA step a line, in a dip not at all. -/
def levellerLine (d : Die) (draw : Nat) (s : Chip) : Chip :=
  let tgt := s.get d CXS_LEVEL CXS_LEVEL.RUN_TGT * 100
  let was := (s.die d).cxs.dummy
  s.level d tgt draw (if s.degraded d then was else if draw + was + 100 ≤ tgt then was + 100 else if tgt < draw + was then was - 100 else was)

/-- The leveller in NIGHTCAP and DEEP (R169, R170): the dummy load makes up what the own draw lacks of SLEEP_TGT. -/
def levellerSleep (s : Chip) (d : Die) (draw : Nat) : Chip :=
  let tgt := s.get d CXS_LEVEL CXS_LEVEL.SLEEP_TGT
  s.level d tgt draw (tgt - draw)

/-! ### The stage at the stroke edge and the line boundary -/

/-- CHARGE_DECREMENT (R164): the served cell's remaining charge falls by ICELL × 31.25 µs, which is ICELL/256 µC; at zero or a change
of sign the target is done. -/
def chargeServed (d : Die) (n k : Nat) (icell : Int) (s : Chip) : Chip :=
  let before := (s.die d).cxs.rem.getD k 0
  let after := before - icell
  if after == 0 || sgn before != sgn after then
    let t := (s.updCxs d fun x => { x with rem := x.rem.set k 0 }).put d (CXS_QTGT k) CXS_QTGT.REMAIN 0
    let t := ((t.put d (CXS_QSTAT k) CXS_QSTAT.DONE 1).put d (CXS_QSTAT k) CXS_QSTAT.ACTIVE 0).releaseChan d n
    t.updChan d n fun c => { c with past := some after }
  else (s.updCxs d fun x => { x with rem := x.rem.set k after }).put d (CXS_QTGT k) CXS_QTGT.REMAIN (ofSigned (after.tdiv 256) 32)

/-- The charge moved since the target ended (R191), LSB 1 µC, rounded half to even. -/
def chargeOver (d : Die) (n : Nat) (v icell : Int) (s : Chip) : Chip :=
  (s.updChan d n fun c => { c with past := some (v - icell) }).putSat d (PGEN_ACC n) PGEN_ACC.OVERSHOOT
    (roundDiv (v - icell).natAbs 256).toNat

/-- The charge of a channel in the stroke that ended (R164): it counts to the target of the cell that the channel serves as a host
target's channel, while it ramps down as well; with none, to the charge moved since the target ended (R191). -/
def chargeEdge (d : Die) (n : Nat) (icell : Int) (s : Chip) : Chip :=
  match (if s.get d (CXS_SEL n) CXS_SEL.OWNER = 2 then s.selected d n else none) with
  | some k =>
    if (s.die d).cxs.rem.getD k 0 != 0 then s.chargeServed d n k icell
    else match (s.chan d n).past with
      | some v => s.chargeOver d n v icell
      | none => s
  | none => s

/-- The profile generator of a channel at a stroke edge: IDLE from zero where the converters are held or stopped (R192), started
after a selection (Table 06.2), and its set-point in force. -/
def pgenEdge (d : Die) (n : Nat) (zero : Bool) (s : Chip) : Chip :=
  let owner := s.get d (CXS_SEL n) CXS_SEL.OWNER
  let idle := s.get d (PGEN_STAT n) PGEN_STAT.MODE == 0 && (s.selected d n).isSome && !(s.bit d (CXS_SEL n) CXS_SEL.RAMP)
  let s := if zero then (s.pgenIdle d n).updSlot d n fun x => { x with out := 0, applied := 0 }
    else if idle && owner == 1 then s.pgenMode d n 1
    else if idle && owner == 2 then s.pgenMode d n 2 else s
  s.put d (PGEN_STAT n) PGEN_STAT.SP (ofSigned (s.pgen d n).next 16)

/-- CONVERTER_DUTY_LOAD (R149, R150): the output of the bound slot becomes direction and duty count; after a reversal the first
switching period switches nothing. PEAK shows the stroke that ended. DIR stays the direction that the manager chose for its cell
(R161), and follows the duty of a host target, which may reverse (R164), and of a sweeper. -/
def dutyEdge (d : Die) (n : Nat) (zero : Bool) (s : Chip) : Chip :=
  let u := if zero || (s.selected d n).isNone then 0 else (s.slot d n).applied
  let duty := min (roundDiv u.natAbs 8).toNat (s.get d (CXS_CFG n) CXS_CFG.DMAX)
  let last := (s.chan d n).sign
  let dir := if duty = 0 then 0 else sgn u
  let s := (s.put d (CXS_STATE n) CXS_STATE.DUTY duty).putB d (CXS_STATE n) CXS_STATE.PEAK (s.chan d n).peak
  let s := s.cond (decide (2 ≤ s.get d (CXS_SEL n) CXS_SEL.OWNER) && dir != 0) fun s => s.putB d (CXS_SEL n) CXS_SEL.DIR (dir == -1)
  s.updChan d n fun c => { c with sign := if dir = 0 then last else dir, skip := dir * last == -1, peak := false }

/-- A channel at a stroke edge (R149, R151, R153, R164, R188): `icell` and `ispan` are the means of the stroke that ended. -/
def chanEdge (d : Die) (n : Nat) (icell ispan : Int) (s : Chip) : Chip :=
  let s := ((s.putI d (CXS_I n) CXS_I.ICELL icell).putI d (CXS_I n) CXS_I.ISPAN ispan).put d (CXS_SEL n) CXS_SEL.PENDING 0
  let s := s.chargeEdge d n icell
  let s := s.put d (CXS_STATE n) CXS_STATE.ILIM_NOW (s.presentLimit d n)
  let zero := s.heldAtZero d || s.severeStop d n
  (s.pgenEdge d n zero).dutyEdge d n zero

/-- Writes of the remaining charge take effect (R163): a write of 0 cancels the target. -/
def targetWrites (d : Die) (s : Chip) : Chip :=
  let ws := (s.die d).cxs.qPend
  (s.updCxs d fun x => { x with qPend := [] }).each ws fun w s =>
    let t := (s.updCxs d fun x => { x with rem := x.rem.set w.1 (w.2 * 256) }).put d (CXS_QTGT w.1) CXS_QTGT.REMAIN (ofSigned w.2 32)
    t.each [0, 1] fun n s =>
      s.cond (w.2 == 0 && s.targetCell d n == some w.1) fun s => (s.releaseChan d n).put d (CXS_QSTAT w.1) CXS_QSTAT.ACTIVE 0

/-- The stage's part of a stroke edge. -/
def stageEdge (d : Die) (i : Senses) (s : Chip) : Chip :=
  if !(s.on d 3) then s
  else
    let t := ((s.chanEdge d 0 i.icell0 i.ispan0).chanEdge d 1 i.icell1 i.ispan1).targetWrites d
    t.cond (t.bit d CXS_STATUS CXS_STATUS.SAFE) fun s => s.bleedsStopEdge d

/-- A channel at a line boundary: a cell that became INVALID is left (R154), and a channel that has ramped down or was stopped at once
is deselected (R153, Table 06.3). A stop ramp ends with STOP_RAMP_COMPLETE. A step stage holds all but what stops at once. A sweeper whose
channel is taken from it here, by EN = 0 or an INVALID cell, runs its bins on without it (DESIGN CHOICE, assumption 156: R142 is silent). -/
def chanLine (d : Die) (n : Nat) (s : Chip) : Chip :=
  match s.selected d n with
  | none => s
  | some k =>
    let hold := s.stepHeld d
    let t := s.cond (s.cellInvalid d k && !hold && !(s.bit d (CXS_SEL n) CXS_SEL.RAMP)) fun s => s.releaseChan d n
    let atOnce := t.bit d CXS_STATUS CXS_STATUS.CUT || t.bit d CXS_STATUS CXS_STATUS.SAFE || t.severeStop d n
    if atOnce || (!hold && t.bit d (CXS_SEL n) CXS_SEL.RAMP && !(t.chan d n).stopping && t.chanFree d n) then t.deselect d n else t

/-- The stage's part of a line boundary. During a step stage selections and set-points are held (R112). -/
def stageLine (d : Die) (ion : List Nat) (s : Chip) : Chip :=
  if !(s.on d 3) then s else
  let s := (s.bleedCurrents d ion).stepCurrent d
  let s := s.updCxs d fun x => { x with ocHeld := if s.isolated d 116 then x.ocHeld else [] }
  let s := (((s.noteSwept d).chanLine d 0).chanLine d 1).suspendLine d
  let s := if s.mode d FOL_MODENOW.BAL then s.hostLine d else s.managerLine d
  s.bleedLine d

/-- SELECTION_CHANGE (R116, R153, R154): the free channel takes the cell it wants, if the rules of R154 still allow it. -/
def selectionChange (d : Die) (n : Nat) (s : Chip) : Chip :=
  match (s.chan d n).want with
  | none => s
  | some (k, owner, dir) =>
    if !(s.runsOn d 3 && s.lineStroke d == 0 && s.mayTake d n && decide (k < s.cells d)) then s
    else match s.refusal d n k with
      | some why => (s.put d (CXS_SEL n) CXS_SEL.REFUSE why).updChan d n fun c => { c with want := none }
      | none => s.select d n k owner dir

/-- STOP_RAMP_COMPLETE (R167): the channel whose stop ramp has ended is deselected at the line boundary. -/
def stopRampComplete (d : Die) (n : Nat) (s : Chip) : Chip :=
  if s.runsOn d 3 && s.lineStroke d == 0 && (s.chan d n).stopping && s.chanFree d n then s.deselect d n else s

/-- The effect of a write of CXS_CFG on the channel (R168, R197): EN = 0 runs a stop ramp, EN = 1 re-enables; in RETIRED EN reads 0. -/
def writeCxsCfg (s : Chip) (d : Die) (n : Nat) (w : Word) : Chip :=
  let was := s.bit d (CXS_CFG n) CXS_CFG.EN
  let w := w &&& 0x1FFFFFFF
  if s.bit d CXS_STATUS CXS_STATUS.RETIRED then s.setReg d (CXS_CFG n) (CXS_CFG.EN.write w 0)
  else
    let t := s.setReg d (CXS_CFG n) w
    let en := CXS_CFG.EN.read w = 1
    if was && !en then t.stopRamp d n (some 1) else t

/-- A write of the remaining charge (R163): BAD_PARAM for a cell that is not connected. -/
def writeQtgt (s : Chip) (d : Die) (k : Nat) (w : Word) : Chip :=
  if s.cells d ≤ k then s else s.updCxs d fun x => { x with qPend := x.qPend.filter (·.1 != k) ++ [(k, toSigned w.toNat 32)] }

/-- A write of WIRING = 1 with adjacent selections (R117). -/
def wiringInterlock (s : Chip) (d : Die) : Chip :=
  match s.selected d 0, s.selected d 1 with
  | some a, some b => s.cond (decide (a ≤ b + 1) && decide (b ≤ a + 1)) fun s => (s.releaseChan d 1).put d OWD_STATUS OWD_STATUS.INTERLOCK 1
  | _, _ => s

/-- The safe state's actions on the stage, from the next stroke edge (Table 06.3). -/
def stageSafe (s : Chip) (d : Die) : Chip :=
  ((s.put d CXS_STATUS CXS_STATUS.SAFE 1).each [0, 1] fun n s =>
    s.cond (s.selected d n).isSome fun s => s.setCause d n 4).bleedsStopEdge d

/-- The cut's actions on the stage: at once (Table 06.3). -/
def stageCut (s : Chip) (d : Die) : Chip :=
  ((s.put d CXS_STATUS CXS_STATUS.CUT 1).each [0, 1] fun n s =>
    s.cond (s.selected d n).isSome fun s => (s.put d (CXS_STATE n) CXS_STATE.DUTY 0).setCause d n 3).bleedsStopNow d

/-- The severe overrun of a bound slot (R197). -/
def stageOverrun (s : Chip) (d : Die) (n : Nat) : Chip :=
  ((s.put d (CXS_CFG n) CXS_CFG.EN 0).put d (CXS_STATE n) CXS_STATE.STOPCAUSE 6).updChan d n fun c =>
    { c with severe := (s.selected d n).isSome }

/-- The stage in RETIRED (Table 06.3). -/
def stageRetire (s : Chip) (d : Die) : Chip :=
  (((s.stopRamps d (some 1)).put d CXS_STATUS CXS_STATUS.RETIRED 1).each [0, 1] fun n s =>
    (s.put d (CXS_CFG n) CXS_CFG.EN 0).put d (CXS_STATE n) CXS_STATE.STOPCAUSE 1).bleedsStopNow d

/-- The sleep entry reaching D3 (Table 06.3). -/
def stageSleep (s : Chip) (d : Die) : Chip :=
  let t := (s.stopRamps d (some 7)).updCxs d fun x =>
    { x with asleep := true, cand := List.replicate 16 false, mgr := List.replicate 16 0, swept := [], rem := List.replicate 16 0, qPend := [] }
  (t.each (List.range 16) fun k s => ((s.put d (CXS_QTGT k) CXS_QTGT.REMAIN 0).put d (CXS_QSTAT k) CXS_QSTAT.ACTIVE 0).put d
    (CXS_QSTAT k) CXS_QSTAT.SUSP 0).bleedsStopNow d

/-- Both channels are free and deselected. -/
def stageFree (s : Chip) (d : Die) : Bool := (s.selected d 0).isNone && (s.selected d 1).isNone

end Chip

/-- SELECTION_CHANGE (R153). -/
def execSelectionChange (d : Die) (n : Pair) (s : State) : Host.Outcome State Fault Refusal :=
  s.run (Chip.selectionChange d n.val)

/-- STOP_RAMP_COMPLETE (R167). -/
def execStopRampComplete (d : Die) (n : Pair) (s : State) : Host.Outcome State Fault Refusal :=
  s.run (Chip.stopRampComplete d n.val)

/-- PEAK_LIMIT (R150): the comparator ended an on-time of the running stroke; PEAK shows it from the next edge (Table 06.12). -/
def execPeakLimit (d : Die) (n : Pair) (s : State) : Host.Outcome State Fault Refusal :=
  s.run fun c => if c.runsOn d 3 && c.get d (CXS_STATE n.val) CXS_STATE.DUTY != 0 then
      c.updChan d n.val fun x => { x with peak := true }
    else c

/-- BLEED_OVERCURRENT (R157): the switch is off for the rest of the line, OC is set and source 116 is reported. -/
def execBleedOvercurrent (d : Die) (cell : Fin 16) (s : State) : Host.Outcome State Fault Refusal :=
  s.run fun c => if c.runsOn d 3 && (c.die d).cxs.applied.getD cell.val 0 != 0 && !((c.die d).cxs.cutAt.any (·.1 == cell.val)) then
      ((((c.put d (CXS_BLEED cell.val) CXS_BLEED.OC 1).report d 116).updCxs d fun x =>
        { x with cutAt := (cell.val, c.lineCycle d) :: x.cutAt, ocHeld := cell.val :: x.ocHeld.filter (· != cell.val) })).draw
    else c

/-- CXS_QTGT_WRITE (R163): from the next stroke edge; refused for a cell that is not connected. -/
def execCxsQtgtWrite (d : Die) (cell : Fin 16) (w : Word) (s : State) : Host.Outcome State Fault Refusal :=
  s.run fun c => if c.on d 3 then c.writeQtgt d cell.val w else c

/-- CXS_EN_WRITE (R168): a write of CXS_CFG. -/
def execCxsEnWrite (d : Die) (n : Pair) (w : Word) (s : State) : Host.Outcome State Fault Refusal :=
  s.run fun c => if c.on d 3 then c.writeCxsCfg d n.val w else c

end Sys2Proof.Machine
end

