-- ==== Sys2Proof/Machine/Boot.lean ====
section
/-! DEFINITION. The firmware image and the core: the LOAD commands, the check of an image, starting and stopping the core
(chapter Start-Up, Firmware Download and Folios; R375). -/
namespace Sys2Proof.Machine

/-- The bytes of block `b` of an image of `len` bytes in `n` blocks (R302). -/
def blockLen (len n b : Nat) : Nat := if b + 1 = n then len - 496 * (n - 1) else 496

namespace Chip

/-- The boot structure of a die changed. -/
def updBoot (s : Chip) (d : Die) (f : BootX → BootX) : Chip := s.upd d fun x => { x with boot := f x.boot }

/-- The image bytes from an offset in code RAM. -/
def imageBytes (s : Chip) (d : Die) (off n : Nat) : List Byte :=
  (List.range n).map fun i => ramGet (s.die d).boot.code (off + i)

/-- A value of `n` bytes of the image header, least-significant byte first (R300). -/
def imageField (s : Chip) (d : Die) (off n : Nat) : Nat := leValue (s.imageBytes d off n)

/-- The CRC check of R305, order 2. -/
def imageCrcOk (s : Chip) (d : Die) : Bool :=
  crc32c (s.imageBytes d 0 (s.get d BOOT_IMAGE BOOT_IMAGE.LENGTH)) == (s.reg d BOOT_LOADCRC).toNat

/-- A command of kind F that was executing and had not committed is settled with NOT_LOADED (R273). -/
def settleExecuting (s : Chip) (d : Die) : Chip :=
  match (s.die d).jnl.entries.find? fun e => e.st == .executing with
  | some e => (s.upd d fun x => { x with chk := { x.chk with serves := none } }).settle d e 0x15
      (s.get d CMD_STAT CMD_STAT.FWSTATE)
  | none => s

/-- The core starts at ENTRY: running, its command loop not yet reached; the image releases pad groups 0 and 1 of a powered
D3 (R307, R399). -/
def runCore (s : Chip) (d : Die) : Chip :=
  let held := s.get d PWR_PAD PWR_PAD.HELD
  (((s.put d CMD_STAT CMD_STAT.FWSTATE 3).put d CMD_STAT CMD_STAT.LOOP 0).upd d fun x =>
    { x with fcol := { x.fcol with kickPages := 0 } }).cond (s.on d 3) fun s =>
    (s.put d PWR_PAD PWR_PAD.HELD (held / 4 * 4)).padsShow d

/-- The boot ROM starts a core again after the CRC check of R308; a failure makes the load state CRC failed, and the core stays
stopped. -/
def restartCore (s : Chip) (d : Die) : Chip :=
  if s.imageCrcOk d then s.runCore d
  else (((s.put d BOOT_LOAD BOOT_LOAD.STATE 4).put d BOOT_LOAD BOOT_LOAD.ERR 3).put d CMD_STAT CMD_STAT.FWSTATE 4).put d CMD_STAT
    CMD_STAT.LOOP 0

/-- The core stops on a fault (R375): FWSTATE stopped, source 155; with RESTART = 1 the boot ROM starts it again, at most 3 times
in 1,875 pages. -/
def stopCore (s : Chip) (d : Die) : Chip :=
  let t := (((s.put d CMD_STAT CMD_STAT.FWSTATE 4).put d CMD_STAT CMD_STAT.LOOP 0).report d 155).settleExecuting d
  if s.bit d FCOL_CFG FCOL_CFG.RESTART && decide ((s.die d).fcol.restarts.length < 3)
      && s.get d BOOT_LOAD BOOT_LOAD.STATE == 3 then
    (t.restartCore d).upd d fun x => { x with fcol := { x.fcol with restarts := 0 :: x.fcol.restarts } }
  else t

/-- The lowest missing block, 0xFFFF if none (Table 11.9). -/
def firstMissing (s : Chip) (d : Die) : Nat :=
  ((List.range (s.die d).boot.nblocks).find? fun b => !((s.die d).boot.blocks.contains b)).getD 0xFFFF

/-- Every block of the load is present. -/
def allBlocks (s : Chip) (d : Die) : Bool := s.firstMissing d == 0xFFFF

/-- A load whose LOAD_END and blocks are all in is complete (R303). -/
def completeLoad (s : Chip) (d : Die) : Chip :=
  s.cond (s.bit d BOOT_LOAD BOOT_LOAD.ENDSEEN && s.allBlocks d && s.get d BOOT_LOAD BOOT_LOAD.STATE == 1) fun s =>
    s.put d BOOT_LOAD BOOT_LOAD.STATE 2

/-- LOAD_BEGIN is well formed (R300, R301). -/
def beginWellFormed (len blocks id : Nat) : Bool :=
  len % 4 == 0 && decide (256 ≤ len) && decide (len ≤ 122880) && blocks == (len + 495) / 496 && id != 0

/-- The effect of LOAD_BEGIN (R301). -/
def applyLoadBegin (d : Die) (q : List Byte) (s : Chip) : Chip :=
  let len := p32 q 0
  let id := p16 q 10
  if s.lifecycle d = 4 then s.put d BOOT_LOAD BOOT_LOAD.ERR 7
  else if !(beginWellFormed len (p16 q 8) id) then s.put d BOOT_LOAD BOOT_LOAD.ERR 1
  else if id = s.get d BOOT_LOAD BOOT_LOAD.LOADID then s
  else
    let t := (((s.put d CMD_STAT CMD_STAT.FWSTATE 1).put d CMD_STAT CMD_STAT.LOOP 0).settleExecuting d).updBoot d fun b =>
      { b with code := [], blocks := [], nblocks := p16 q 8, checking := false, missPages := 0, resultSent := false }
    let t := (t.setReg d BOOT_LOAD 0).put d BOOT_LOAD BOOT_LOAD.LOADID id |>.put d BOOT_LOAD BOOT_LOAD.STATE 1
    let t := (t.setReg d BOOT_LOADCRC (BitVec.ofNat 32 (p32 q 4))).setReg d BOOT_IMAGE 0
    (t.put d BOOT_IMAGE BOOT_IMAGE.LENGTH len).put d BOOT_MISS BOOT_MISS.FIRSTMISS 0

/-- The effect of LOAD_DATA (R302). -/
def applyLoadData (d : Die) (q : List Byte) (s : Chip) : Chip :=
  let x := (s.die d).boot
  let b := p16 q 2
  let len := s.get d BOOT_IMAGE BOOT_IMAGE.LENGTH
  if p16 q 0 ≠ s.get d BOOT_LOAD BOOT_LOAD.LOADID ∨ x.nblocks ≤ b ∨ p16 q 4 ≠ blockLen len x.nblocks b then
    s.inc d BOOT_MISS BOOT_MISS.BADBLK
  else if x.blocks.contains b then s
  else
    let t := (s.updBoot d fun x => { x with blocks := b :: x.blocks, code := ramStore x.code (496 * b) (q.drop 8) }).inc d
      BOOT_LOAD BOOT_LOAD.BLOCKS
    (t.put d BOOT_MISS BOOT_MISS.FIRSTMISS (t.firstMissing d)).completeLoad d

/-- The effect of LOAD_END (R303): LOAD_MISSING is due at once, also where the die itself already holds every block. -/
def applyLoadEnd (d : Die) (q : List Byte) (s : Chip) : Chip :=
  if p16 q 0 = s.get d BOOT_LOAD BOOT_LOAD.LOADID ∧ p16 q 0 ≠ 0 then
    ((s.put d BOOT_LOAD BOOT_LOAD.ENDSEEN 1).updBoot d fun b => { b with missPages := 4 }).completeLoad d
  else s

/-- The effect of LOAD_BOOT in a die whose load is checked and whose core is not running (R307, R308). -/
def applyLoadBoot (d : Die) (q : List Byte) (s : Chip) : Chip :=
  if p16 q 0 = s.get d BOOT_LOAD BOOT_LOAD.LOADID ∧ s.get d BOOT_LOAD BOOT_LOAD.STATE = 3
      ∧ s.get d CMD_STAT CMD_STAT.FWSTATE ≠ 3 ∧ s.lifecycle d ≠ 4 then
    if s.get d CMD_STAT CMD_STAT.FWSTATE = 4 then s.restartCore d else s.runCore d
  else s

/-- The result bytes of LOAD_STATUS (Table 10.4). -/
def loadStatus (s : Chip) (d : Die) (id : Nat) : List Byte :=
  if id ≠ s.get d BOOT_LOAD BOOT_LOAD.LOADID then [0, 0, 0, 0] ++ leBytes 2 0xFFFF ++ [0, 0]
  else leBytes 1 (s.get d BOOT_LOAD BOOT_LOAD.STATE) ++ [0] ++ leBytes 2 (s.get d BOOT_LOAD BOOT_LOAD.BLOCKS)
    ++ leBytes 2 (s.firstMissing d) ++ [0, 0]

/-- A ring-wide command of kind B (R274, R259): taken once by (SMOD, SEQ), discarded and counted where its packet fails a
check. -/
def ringWide (s : Chip) (d : Die) (op : Nat) (f : FrameIn) (act : List Byte → Chip → Chip) : Chip :=
  if !(s.fitted d && s.on d 0 && s.on d 6 && s.address d != 0 && validCmd f && f.dmod == 127
      && pktOpcode f.payload == op && !(s.takenBefore d f.smod 2 f.seq) && (s.die d).pwr.gasp.isNone) then s
  else if !(s.frameLinkOk d f) then s.frameLinkFail d f
  else
    let t := s.noteTaken d f.smod 2 f.seq
    if (packetFault f.payload).isSome then t.inc d JNL_CNT JNL_CNT.REFUSED
    else act (pktParams f.payload) (t.put d CMD_STAT CMD_STAT.LASTOP op)

/-- A LOAD command from the journal or ring-wide. A journalled one has its effect after its commit. -/
def loadCommand (s : Chip) (d : Die) (op : Nat) (src : CmdSrc) (act : List Byte → Chip → Chip)
    (form : Chip → List Byte → Formed) : Chip :=
  match src with
  | .entry seq => s.executeEntry d seq op 0x23 form
  | .ringWide f => s.ringWide d op f act

/-- The outcome of the checks of R305: load state, ERR, and VERIFIED. -/
def imageVerdict (s : Chip) (d : Die) : Nat × Nat × Nat :=
  let len := s.get d BOOT_IMAGE BOOT_IMAGE.LENGTH
  let flags := s.imageField d 6 1
  let entry := s.imageField d 12 4
  let key := s.imageBytes d 64 64
  let slot := s.imageField d 7 1
  let lcy := s.lifecycle d
  if !(s.imageField d 0 4 == 0x5A4C4331 && s.imageField d 4 2 == 1 && decide (flags < 2) && s.imageField d 8 4 == len
      && decide (128 ≤ entry) && decide (entry < len - 64)) then (4, 2, 0)
  else if !(s.imageCrcOk d) then (4, 3, 0)
  else if lcy = 0 then (3, 0, 0)
  else if flags = 0 then (if lcy = 1 then (3, 0, 0) else (5, 4, 0))
  else if !(decide (slot < 4) && (s.get d LCY_KEYS LCY_KEYS.PROG).testBit slot
      && !((s.get d LCY_KEYS LCY_KEYS.REVOKED).testBit slot)
      && sha256 key == (s.die d).lcy.keyHash.getD slot 0) then (5, 5, 0)
  else if ecdsaVerify key (sha256 (s.imageBytes d 0 (len - 64))) (s.imageBytes d (len - 64) 64) then (3, 0, 1)
  else (5, 6, 0)

/-- IMAGE_CHECK_COMPLETE (R305 to R307). -/
def imageCheckComplete (d : Die) (s : Chip) : Chip :=
  if !(s.runsOn d 5 && (s.die d).boot.checking) then s else
  let v := s.imageVerdict d
  let t := (s.updBoot d fun b => { b with checking := false }).put d BOOT_LOAD BOOT_LOAD.STATE v.1 |>.put d BOOT_LOAD
    BOOT_LOAD.ERR v.2.1
  let t := ((t.put d BOOT_IMAGE BOOT_IMAGE.SIGNED (s.imageField d 6 1)).put d BOOT_IMAGE BOOT_IMAGE.KEYIDX (s.imageField d 7 1)).put
    d BOOT_IMAGE BOOT_IMAGE.VERIFIED v.2.2
  t.cond (v.1 == 3) fun s =>
    (s.setReg d BOOT_VERSION (BitVec.ofNat 32 (s.imageField d 16 4))).put d CMD_STAT CMD_STAT.FWSTATE 2

/-- The dies of the module that still miss blocks of the master's load after LOAD_END (R303). -/
def diesMissing (s : Chip) (d : Die) : List Die :=
  s.liveDies.filter fun k => s.get k BOOT_LOAD BOOT_LOAD.LOADID == s.get d BOOT_LOAD BOOT_LOAD.LOADID && !(s.allBlocks k)

/-- LOAD_MISSING_SEND (R303, Table 11.3): at LOAD_END with blocks missing, and then every 4 pages. -/
def loadMissingSend (d : Die) (s : Chip) : Chip :=
  let ks := s.diesMissing d
  let n := (s.die d).boot.nblocks
  let missing := (List.range n).filter fun b => ks.any fun k => !((s.die k).boot.blocks.contains b)
  if s.runs d && s.master d == d && s.bit d BOOT_LOAD BOOT_LOAD.ENDSEEN && ks != [] && decide (4 ≤ (s.die d).boot.missPages) then
    (s.event d 0x0150 (leBytes 2 (s.get d BOOT_LOAD BOOT_LOAD.LOADID) ++ leBytes 1 (ks.foldl (fun m k => m + 2 ^ k.val) 0)
      ++ leBytes 2 (missing.headD 0xFFFF) ++ leBytes 2 missing.length)).updBoot d fun b => { b with missPages := 0 }
  else s

/-- LOAD_RESULT_SEND (R303, Table 11.3): once every fitted live die has a final load state of the master's load. -/
def loadResultSend (d : Die) (s : Chip) : Chip :=
  let st := fun k => s.get k BOOT_LOAD BOOT_LOAD.STATE
  let live := allDies.filter fun k => s.fitted k && s.on k 0 && s.alive d k
  let failing := live.find? fun k => st k == 4 || st k == 5
  if s.runs d && s.master d == d && s.get d BOOT_LOAD BOOT_LOAD.LOADID != 0 && !((s.die d).boot.resultSent)
      && live.all fun k => decide (3 ≤ st k) && s.get k BOOT_LOAD BOOT_LOAD.LOADID == s.get d BOOT_LOAD BOOT_LOAD.LOADID then
    (s.event d 0x0151 (leBytes 2 (s.get d BOOT_LOAD BOOT_LOAD.LOADID)
      ++ allDies.map (fun k => BitVec.ofNat 8 (if live.contains k then st k else 0xFF))
      ++ leBytes 2 ((failing.map fun k => s.get k BOOT_LOAD BOOT_LOAD.ERR).getD 0))).updBoot d fun b =>
        { b with resultSent := true }
  else s

/-- One LOAD_DATA frame of a retransmission (R304). -/
def retransmitBlock (d : Die) (b : Nat) (s : Chip) : Chip :=
  let n := blockLen (s.get d BOOT_IMAGE BOOT_IMAGE.LENGTH) (s.die d).boot.nblocks b
  let q := s.takeSeq d 2
  q.2.enqueue d ⟨2, 0, 127, 0, s.address d, d.val, 0, q.1,
    leBytes 2 0x0061 ++ leBytes 2 (s.get d MOD_SESSION MOD_SESSION.SESSION) ++ leBytes 4 0
      ++ leBytes 2 (s.get d BOOT_LOAD BOOT_LOAD.LOADID) ++ leBytes 2 b ++ leBytes 2 n ++ leBytes 2 0
      ++ s.imageBytes d (496 * b) n, true, true⟩

/-- A LOAD_MISSING that the die has copied names these blocks (R304): the event gives the lowest and how many, no more than 2 pages ago. -/
def blocksNamed (s : Chip) (d : Die) (smod loadid : Nat) (blocks : List Nat) (m : LoadMiss) : Bool :=
  m.smod == smod && m.loadid == loadid && !m.served && m.low == blocks.headD 0xFFFF && m.count == blocks.length
    && decide ((s.stroke d + 2 ^ 48 - m.at_) % 2 ^ 48 ≤ 2048)

/-- FIRMWARE_RETRANSMIT (R304): a snooping Ring Head whose master holds every block of the LOADID of a LOAD_MISSING it has copied sends
the missing blocks ring-wide in ascending order, once for each event and at most 8 times for one LOADID. -/
def firmwareRetransmit (d : Die) (smod loadid : Nat) (blocks : List Nat) (s : Chip) : Chip :=
  let x := (s.die d).boot
  let used := if x.retxId = loadid then x.retxCount else 0
  let bs := (List.range x.nblocks).filter fun b => blocks.contains b
  if s.runsOn d 6 && s.isHead d && s.bit d ULK_CFG ULK_CFG.SNOOP && s.master d == d
      && s.get d BOOT_LOAD BOOT_LOAD.LOADID == loadid && loadid != 0 && s.allBlocks d && decide (used < 8)
      && (s.die d).ring.missing.any (s.blocksNamed d smod loadid bs) then
    bs.foldl (fun s b => retransmitBlock d b s)
      ((s.updBoot d fun b => { b with retxId := loadid, retxCount := used + 1 }).updRing d fun r => { r with
        missing := r.missing.map fun m => if s.blocksNamed d smod loadid bs m then { m with served := true } else m })
  else s

/-- An uncorrectable word of a RAM (0 code, 1 data, 2 retention): its source, and the reaction of Table 14.3, which host-assisted reactions
withhold (R364): the core stops (R375), or the word is voided. -/
def eccLost (s : Chip) (d : Die) (ram : Nat) (target : EccTarget) : Chip :=
  let s := s.report d (150 + ram)
  if s.mode d FOL_MODENOW.FREACT then s else
    match ram, target with
    | 0, _ => if s.get d CMD_STAT CMD_STAT.FWSTATE == 3 then s.stopCore d else s
    | 2, .journal seq => s.updEntry d seq fun e => { e with crcOk := false }
    | 2, .folio b => s.put d FOL_STAT (if b then FOL_STAT.BVALID else FOL_STAT.AVALID) 0
    | 2, .roster e => if ownerOf e = d.val ∧ s.eState d e ≠ 0 then s.setEntryState d e 3 else s
    | _, _ => s

/-- CHK_RUN_DONE (R292, R293): the result and DONE, or ERR on an uncorrectable ECC error of the range, whose word `ecc` names, with the RAM's
source and reaction (R371). An armed injection of the RAM's ECC acts on the read (R377). -/
def chkRunDone (d : Die) (ecc : Option EccTarget) (s : Chip) : Chip :=
  if !(s.runsOn d 5 && s.bit d CHK_STAT CHK_STAT.BUSY) then s else
  let x := (s.die d).chk
  let ram := x.addr / 0x100000
  let one := x.payload.isNone && s.injected d (6 + 2 * ram)
  let two := x.payload.isNone && s.injected d (7 + 2 * ram)
  let s := (s.cond (one || two) fun s => s.useInjection d).cond one fun s => s.report d (147 + ram)
  let t := (s.put d CHK_STAT CHK_STAT.BUSY 0).upd d fun x => { x with chk := { x.chk with serves := none } }
  if x.payload.isNone && (ecc.isSome || two) then
    ((((t.put d CHK_STAT CHK_STAT.ERR 1).eccLost d ram (ecc.getD .other)).chkAnswer d x.serves none)).chkNext d
  else
    let r := s.chkResult d (x.payload.getD ((List.range x.len).map fun i => s.memByte d (x.addr + i)))
    let t := t.cond (x.payload.isNone && decide (0x100000 ≤ x.addr)) fun s => s.draw
    (((((t.setReg d CHK_RES_LO (BitVec.ofNat 32 r)).setReg d CHK_RES_HI (BitVec.ofNat 32 (r / 2 ^ 32))).put d CHK_STAT
      CHK_STAT.DONE 1)).chkAnswer d x.serves (some r)).chkNext d

/-- RAM_ECC_ERROR (R375, sources 147 to 152; R377 for an armed injection). -/
def ramEccError (d : Die) (ram : Nat) (correctable : Bool) (target : EccTarget) (s : Chip) : Chip :=
  if !(s.fitted d && s.on d 0) then s else
  let one := s.injected d (6 + 2 * ram)
  let two := s.injected d (7 + 2 * ram)
  let s := s.cond (one || two) fun s => s.useInjection d
  if one || (correctable && !two) then s.report d (147 + ram)
  else s.eccLost d ram target

end Chip

/-- CHK_RUN_DONE (R292). -/
def execChkRunDone (d : Die) (ecc : Option EccTarget) (s : State) : Host.Outcome State Fault Refusal :=
  s.run (Chip.chkRunDone d ecc)

/-- LOAD_BEGIN (R301). -/
def execLoadBegin (d : Die) (src : CmdSrc) (s : State) : Host.Outcome State Fault Refusal :=
  s.run fun c => c.loadCommand d 0x60 src (Chip.applyLoadBegin d) fun _ q => .ok [] [.act 0x60 q]

/-- LOAD_DATA (R302). -/
def execLoadData (d : Die) (src : CmdSrc) (s : State) : Host.Outcome State Fault Refusal :=
  s.run fun c => c.loadCommand d 0x61 src (Chip.applyLoadData d) fun _ q => .ok [] [.act 0x61 q]

/-- LOAD_STATUS (R272). -/
def execLoadStatus (d : Die) (seq : Nat) (s : State) : Host.Outcome State Fault Refusal :=
  s.run fun c => c.executeEntry d seq 0x63 0x23 fun t q => .ok (t.loadStatus d (p16 q 0)) []

/-- LOAD_BOOT (R307, R272): NOT_LOADED unless the load of the LOADID is checked or its core already runs. -/
def execLoadBoot (d : Die) (src : CmdSrc) (s : State) : Host.Outcome State Fault Refusal :=
  s.run fun c => c.loadCommand d 0x64 src (Chip.applyLoadBoot d) fun t q =>
    if p16 q 0 = t.get d BOOT_LOAD BOOT_LOAD.LOADID ∧ p16 q 0 ≠ 0 ∧ t.lifecycle d ≠ 4
        ∧ (t.get d BOOT_LOAD BOOT_LOAD.STATE = 3 ∨ t.get d CMD_STAT CMD_STAT.FWSTATE = 3) then .ok [] [.act 0x64 q]
    else .refuse 0x15 (t.get d CMD_STAT CMD_STAT.FWSTATE)

/-- IMAGE_CHECK (R303, R305): a complete load's check starts. -/
def execImageCheck (d : Die) (s : State) : Host.Outcome State Fault Refusal :=
  s.run fun c => if c.runsOn d 5 && c.get d BOOT_LOAD BOOT_LOAD.STATE == 2 && !((c.die d).boot.checking) then
      c.updBoot d fun b => { b with checking := true }
    else c

/-- IMAGE_CHECK_COMPLETE (R305). -/
def execImageCheckComplete (d : Die) (s : State) : Host.Outcome State Fault Refusal := s.run (Chip.imageCheckComplete d)

/-- LOAD_MISSING_SEND (R303). -/
def execLoadMissingSend (d : Die) (s : State) : Host.Outcome State Fault Refusal := s.run (Chip.loadMissingSend d)

/-- LOAD_RESULT_SEND (R303). -/
def execLoadResultSend (d : Die) (s : State) : Host.Outcome State Fault Refusal := s.run (Chip.loadResultSend d)

/-- FIRMWARE_RETRANSMIT (R304): `smod` is the module whose LOAD_MISSING names the blocks; which blocks are missing beside the lowest, the
event does not say, and the row gives them. -/
def execFirmwareRetransmit (d : Die) (smod loadid : Nat) (blocks : List Nat) (s : State) :
    Host.Outcome State Fault Refusal :=
  s.run (Chip.firmwareRetransmit d smod loadid blocks)

/-- COMMAND_LOOP_REACHED (R307): the running image sets LOOP. -/
def execCommandLoopReached (d : Die) (s : State) : Host.Outcome State Fault Refusal :=
  s.run fun c => if c.runsOn d 5 && c.get d CMD_STAT CMD_STAT.FWSTATE == 3 then c.put d CMD_STAT CMD_STAT.LOOP 1 else c

/-- WATCHDOG_EXPIRY (R375): no KICK for 2 pages while the core runs. -/
def execWatchdogExpiry (d : Die) (s : State) : Host.Outcome State Fault Refusal :=
  s.run fun c => if c.runsOn d 5 && c.get d CMD_STAT CMD_STAT.FWSTATE == 3 && decide (2 ≤ (c.die d).fcol.kickPages) then
      c.stopCore d
    else c

/-- CORE_EXCEPTION (R375). -/
def execCoreException (d : Die) (s : State) : Host.Outcome State Fault Refusal :=
  s.run fun c => if c.runsOn d 5 && c.get d CMD_STAT CMD_STAT.FWSTATE == 3 then c.stopCore d else c

/-- RAM_ECC_ERROR (R375). -/
def execRamEccError (d : Die) (ram : Fin 3) (correctable : Bool) (target : EccTarget) (s : State) :
    Host.Outcome State Fault Refusal :=
  s.run (Chip.ramEccError d ram.val correctable target)

end Sys2Proof.Machine
end

