-- ==== Sys2Proof/Machine/Folio.lean ====
section
/-! DEFINITION. The two folio copies of a die: their words and records, the inactive copy, the seal and the selection at a start (R310
to R312, R314, R376). -/
namespace Sys2Proof.Machine

/-- One description of an address: plane, block, channel and word (R19). -/
structure Place where
  plane : Nat
  block : Nat
  chan  : Nat
  word  : Nat
  deriving DecidableEq, Repr

/-- The place of an address. -/
def placeOf (a : Nat) : Place := ⟨a / 0x8000000 % 4, a / 0x100000 % 128, a / 0x1000 % 256, a / 4 % 1024⟩

/-- The DIE field of an address. -/
def dieField (a : Nat) : Nat := a / 0x20000000 % 8

/-- The pairs of plane and block of Table 10.10. -/
def blockAssigned (plane block : Nat) : Bool :=
  match plane with
  | 0 => decide (0x10 ≤ block) && decide (block ≤ 0x14)
  | 1 => decide (1 ≤ block) && decide (block ≤ 7)
  | 2 => decide (0x20 ≤ block) && decide (block ≤ 0x2A)
  | _ => [0x06, 0x26, 0x27, 0x30].contains block

/-- An address that R23 refuses. -/
def addrBad (a : Nat) : Bool := a % 4 != 0 || !(blockAssigned (placeOf a).plane (placeOf a).block)

/-- A sequence is newer than another (R312). -/
def seqNewer (new old : Nat) : Bool :=
  let k := (new + 2 ^ 32 - old) % 2 ^ 32
  k != 0 && decide (k < 2 ^ 31)

namespace Chip

/-- The folio structure of a die changed. -/
def updFol (s : Chip) (d : Die) (f : FolX → FolX) : Chip := s.upd d fun x => { x with fol := f x.fol }

/-- The copy that FOL_DATA maps: the one that is not active; A where none is. -/
def inactiveB (s : Chip) (d : Die) : Bool := s.get d FOL_STAT FOL_STAT.ACTIVE == 0

/-- The words of a copy. -/
def copyWords (s : Chip) (d : Die) (b : Bool) : List (Nat × Word) := if b then (s.die d).fol.copyB else (s.die d).fol.copyA

/-- A word of a copy. -/
def copyWord (s : Chip) (d : Die) (b : Bool) (n : Nat) : Word := (storeGet (s.copyWords d b) n).getD 0

/-- The 4,096 bytes of a copy. -/
def copyBytes (s : Chip) (d : Die) (b : Bool) : List Byte :=
  ((List.range 1024).map fun n => leBytes 4 (s.copyWord d b n).toNat).flatten

/-- A copy is valid (R311), and its sequence. -/
def copyValid (s : Chip) (d : Die) (b : Bool) : Bool := s.bit d FOL_STAT (if b then FOL_STAT.BVALID else FOL_STAT.AVALID)
def copySeq (s : Chip) (d : Die) (b : Bool) : Nat := (s.reg d (if b then FOL_SEQB else FOL_SEQA)).toNat
def setCopyValid (s : Chip) (d : Die) (b v : Bool) : Chip := s.putB d FOL_STAT (if b then FOL_STAT.BVALID else FOL_STAT.AVALID) v

/-- A word of the inactive copy written: its seal clears at once (R311). -/
def folWrite (s : Chip) (d : Die) (n : Nat) (w : Word) : Chip :=
  let b := s.inactiveB d
  let set := fun (l : List (Nat × Word)) => if w = 0 then storeDel l n else storePut l n w
  (s.updFol d fun x => if b then { x with copyB := set x.copyB } else { x with copyA := set x.copyA }).setCopyValid d b false

/-- The records of a copy that the die applies, in order: index, local address, word (R310). -/
def records (s : Chip) (d : Die) (b : Bool) : List (Nat × Nat × Word) :=
  let n := min 511 ((s.copyWord d b 0).toNat / 65536)
  let all := (List.range n).map fun r => (r, (s.copyWord d b (2 + 2 * r)).toNat, s.copyWord d b (3 + 2 * r))
  (all.filter fun r => dieField r.2.1 == 7 || dieField r.2.1 == d.val).map fun r => (r.1, r.2.1 % 0x20000000, r.2.2)

/-- A record names an unassigned address, plane 3, or a register with no RW or LCK field (R312, SEALERR 5). -/
def recordBad (a : Nat) : Bool :=
  addrBad a || (placeOf a).plane == 3 || match regDesc a with
    | some r => r.fields.all fun f => f.ty != .rw && f.ty != .lck
    | none => true

/-- SEALERR of a seal with a sequence and a CRC, with the record that fails (R312). -/
def sealError (s : Chip) (d : Die) (seq crc : Nat) : Nat × Nat :=
  let b := s.inactiveB d
  let act := s.get d FOL_STAT FOL_STAT.ACTIVE
  let fmt := (s.copyWord d b 0).toNat
  if s.bit d FOL_STAT FOL_STAT.PENDING then (1, 0)
  else if act < 2 ∧ s.copyValid d (act == 1) ∧ !(seqNewer seq (s.copySeq d (act == 1))) then (2, 0)
  else if crc32c (s.copyBytes d b) ≠ crc then (3, 0)
  else if fmt % 65536 ≠ 1 ∨ 511 < fmt / 65536 then (4, 0)
  else match (s.records d b).find? fun r => recordBad r.2.1 with
    | some r => (5, r.1)
    | none => (0, 0)

/-- The status and DETAIL of a refused seal (R312): `seqOff` and `crcOff` are the packet offsets of the sequence and the CRC. -/
def sealStatus (err seqOff crcOff : Nat) : Nat × Nat :=
  match err with
  | 1 => (0x12, 1)
  | 2 => (0x10, seqOff)
  | 3 => (0x10, crcOff)
  | _ => (0x10, 0xFFFF)

/-- A seal that passes: the sequence and CRC are stored, the copy is valid and the switch is pending. -/
def sealCopy (s : Chip) (d : Die) (seq crc : Nat) : Chip :=
  let b := s.inactiveB d
  let t := s.updFol d fun x => if b then { x with crcB := BitVec.ofNat 32 crc } else { x with crcA := BitVec.ofNat 32 crc }
  ((t.setReg d (if b then FOL_SEQB else FOL_SEQA) (BitVec.ofNat 32 seq)).setCopyValid d b true).put d FOL_STAT FOL_STAT.PENDING 1

/-- A refused seal recorded. -/
def sealRefused (s : Chip) (d : Die) (err rec : Nat) : Chip :=
  (s.put d FOL_STAT FOL_STAT.SEALERR err).cond (err == 5) fun s => s.put d FOL_ERR FOL_ERR.RECORD rec

/-- A seal requested. -/
def requestSeal (s : Chip) (d : Die) (seq crc : Nat) : Chip :=
  match s.sealError d seq crc with
  | (0, _) => s.sealCopy d seq crc
  | (e, r) => s.sealRefused d e r

/-- MODEPEND: a held FOL_MODESEL value differs from the modes in force (R315). -/
def showModePend (s : Chip) (d : Die) : Chip := s.putB d FOL_STAT FOL_STAT.MODEPEND (s.reg d FOL_MODESEL != s.reg d FOL_MODENOW)

/-- A copy whose bytes no longer give the sealed CRC (R314, R376): invalid, CRCERR, source 154. A pending switch to it ends. -/
def copyFails (s : Chip) (d : Die) (b : Bool) : Chip :=
  let t := ((s.setCopyValid d b false).put d FOL_STAT FOL_STAT.CRCERR 1).report d 154
  t.cond (s.bit d FOL_STAT FOL_STAT.PENDING && s.inactiveB d == b) fun s => s.put d FOL_STAT FOL_STAT.PENDING 0

/-- FOLIO_SCRUB (R376) at a page boundary: `rotA` and `rotB` tell which copy's bytes have changed. An armed injection of checker
0x05 fails a copy's check and leaves it valid (Table 14.4). -/
def folioScrub (d : Die) (rotA rotB : Bool) (s : Chip) : Chip :=
  s.each [(false, rotA), (true, rotB)] fun p s =>
    if !(s.copyValid d p.1) then s
    else if s.injected d 0x05 then ((s.useInjection d).put d FOL_STAT FOL_STAT.CRCERR 1).report d 154
    else if p.2 then s.copyFails d p.1 else s

/-- The FOLIO event (Table 11.3), once the module has an address. -/
def folioEvent (s : Chip) (d : Die) (cause : Nat) : Chip :=
  if s.address d = 0 then s.updBoot d fun x => { x with folioEvent := some cause } else
  let act := s.get d FOL_STAT FOL_STAT.ACTIVE
  s.event d 0x0152 (leBytes 1 (if act < 2 then act else 0xFF) ++ leBytes 4 (if act < 2 then s.copySeq d (act == 1) else 0)
    ++ leBytes 1 cause)

/-- A FOLIO event that waited for the address. -/
def folioFlush (s : Chip) (d : Die) : Chip :=
  match (s.die d).boot.folioEvent with
  | none => s
  | some c => if s.address d = 0 then s else (s.updBoot d fun x => { x with folioEvent := none }).folioEvent d c

/-- The check of both copies at a die reset and at a wake (R314): a sealed copy that fails its CRC becomes invalid. -/
def folioCheck (s : Chip) (d : Die) (b : BootFacts) : Chip :=
  s.each [(false, b.rotA), (true, b.rotB)] fun p s => s.cond (p.2 && s.copyValid d p.1) fun s => s.copyFails d p.1

/-- The boot ROM's selection (R314): the newer valid copy, A of equals; it is re-applied at the next line boundary. -/
def folioSelect (s : Chip) (d : Die) : Chip :=
  let prev := s.get d FOL_STAT FOL_STAT.ACTIVE
  let pend := if s.bit d FOL_STAT FOL_STAT.PENDING then (if s.inactiveB d then 1 else 0) else 3
  let va := s.copyValid d false
  let vb := s.copyValid d true
  let sel := if va && vb then (if seqNewer (s.copySeq d true) (s.copySeq d false) then 1 else 0) else if va then 0 else if vb then 1 else 3
  let back := sel != 3 && prev != 3 && sel != prev && sel != pend
  let t := ((s.put d FOL_STAT FOL_STAT.ACTIVE sel).put d FOL_STAT FOL_STAT.PENDING 0).cond back fun s => s.put d FOL_STAT FOL_STAT.FALLBACK 1
  t.updBoot d fun x => { x with reapply := some (if sel = 3 then 3 else if back then 2 else 1) }

end Chip

end Sys2Proof.Machine
end

