-- ==== Sys2Proof/Machine/Spare.lean ====
section
/-! DEFINITION. The spare channel and the channels it may replace: substitution steps, failed channels, repair and losses (R45, R72,
R73, R427 to R430). -/
namespace Sys2Proof.Machine

namespace Chip

/-- The measurement structure of a die changed. -/
def updCfe (s : Chip) (d : Die) (f : CfeX → CfeX) : Chip := s.upd d fun x => { x with cfe := f x.cfe }

/-- State, target and owner of the spare (Table 03.16). -/
def spareState (s : Chip) (d : Die) : Nat := s.get d CFE_SPARE CFE_SPARE.STATE
def spareTarget (s : Chip) (d : Die) : Nat := s.get d CFE_SPARE CFE_SPARE.TARGET
def spareOwner (s : Chip) (d : Die) : Nat := s.get d CFE_SPARE CFE_SPARE.OWNER

/-- The three fields of the spare set. -/
def setSpare (s : Chip) (d : Die) (target state owner : Nat) : Chip :=
  ((s.put d CFE_SPARE CFE_SPARE.TARGET target).put d CFE_SPARE CFE_SPARE.STATE state).put d CFE_SPARE CFE_SPARE.OWNER owner

/-- Twice the group delay of a corner, in strokes (Table 03.2). -/
def settleStrokes (code : Nat) : Nat := [1792, 896, 448, 224, 112, 56, 16, 8].getD code 8

/-- SETTLE on a channel for twice the group delay of both corners (R67). -/
def settleChannel (s : Chip) (d : Die) (c : Nat) : Chip :=
  s.updCfe d fun x => { x with
    setFine := x.setFine.set c (max (x.setFine.getD c 0) (settleStrokes x.fineNow))
    setLine := x.setLine.set c (max (x.setLine.getD c 0) (settleStrokes x.lineNow)) }

/-- The spare is taken for channel c (Table 03.4), and its own output leaves INVALID (R67, R458); for itself it is ACTIVE at once
(Table 13.1). -/
def spareEnter (s : Chip) (d : Die) (owner c : Nat) : Chip :=
  if c = 16 then s.setSpare d 16 2 owner else (s.setSpare d c 1 owner).settleChannel d 16

/-- The spare is IDLE. -/
def spareIdle (s : Chip) (d : Die) : Chip := (s.setSpare d 0x1F 0 0).updCfe d fun x => { x with spareDue := false }

/-- The owner gives the spare up (R72): at once IDLE where it was taken for itself, else with its next step, which the stroke scheduler
grants at a line boundary. -/
def spareGiveUp (s : Chip) (d : Die) (owner : Nat) : Chip :=
  if s.spareOwner d ≠ owner ∨ s.spareState d = 4 ∨ s.spareState d = 0 then s
  else if s.spareTarget d = 16 then s.spareIdle d
  else s.updCfe d fun x => { x with spareDue := s.spareState d != 3 }

/-- The owner releases the spare at a line boundary (Table 03.4): LEAVE; a spare that has not come to serve yet is only given up. -/
def spareRelease (s : Chip) (d : Die) (owner : Nat) : Chip :=
  if s.spareOwner d = owner ∧ s.spareState d = 2 ∧ s.spareTarget d ≠ 16 then s.put d CFE_SPARE CFE_SPARE.STATE 3
  else s.spareGiveUp d owner

/-- SPARE_SUBSTITUTION_STEP (R72, R428) at a line boundary: a spare that was given up leaves, or disconnects before it has served. -/
def spareStep (d : Die) (s : Chip) : Chip :=
  if s.spareState d = 1 then
    if s.spareOwner d = 4 then
      ((s.put d CFE_SPARE CFE_SPARE.STATE 4).put d BIST_REPAIR BIST_REPAIR.SPARETGT (s.spareTarget d)).report d 111
    else if (s.die d).cfe.spareDue then s.spareIdle d
    else s.put d CFE_SPARE CFE_SPARE.STATE 2
  else if s.spareState d = 3 then s.spareIdle d
  else if s.spareState d = 2 ∧ (s.die d).cfe.spareDue then
    (s.put d CFE_SPARE CFE_SPARE.STATE 3).updCfe d fun x => { x with spareDue := false }
  else s

/-- The channel whose corner stages take the spare's output: while ACTIVE, LEAVE or COMMITTED (R72). -/
def spareServes (s : Chip) (d : Die) (c : Nat) : Bool :=
  s.spareTarget d == c && [2, 3, 4].contains (s.spareState d)

/-- One more loss (R430): at the third, source 112. -/
def countLoss (s : Chip) (d : Die) : Chip :=
  let n := s.get d BIST_REPAIR BIST_REPAIR.LOSSES
  (s.put d BIST_REPAIR BIST_REPAIR.LOSSES (min 3 (n + 1))).cond (n == 2) fun s => s.report d 112

/-- CHANNEL_SHADOW_ONLY (R429): the channel takes the shadow sample for good. -/
def makeShadowOnly (s : Chip) (d : Die) (c src : Nat) : Chip :=
  ((s.updCfe d fun x => { x with shadowOnly := c :: x.shadowOnly.filter (· != c), repair := if x.repair = some c then none else x.repair }).raise
    d src).countLoss d

/-- Channel c has failed (R427): it is repaired with the spare, or becomes shadow-only; a failing spare is out of use
(R428, R429). -/
def failChannel (s : Chip) (d : Die) (c : Nat) : Chip :=
  if (s.get d BIST_CHFAIL BIST_CHFAIL.FAILED).testBit c then s else
  let t := s.put d BIST_CHFAIL BIST_CHFAIL.FAILED (s.get d BIST_CHFAIL BIST_CHFAIL.FAILED + 2 ^ c)
  if c = 16 then
    let u := t.put d BIST_REPAIR BIST_REPAIR.SPAREFAIL 1
    if s.spareState d = 4 then
      if s.spareTarget d = 0x1F then u else u.makeShadowOnly d (s.spareTarget d) 82
    else ((u.setSpare d 0x1F 4 4).raise d 82).countLoss d
  else if s.spareState d = 4 ∨ s.bit d BIST_REPAIR BIST_REPAIR.SPAREFAIL ∨ (s.die d).cfe.repair.isSome ∨ s.spareOwner d = 4 then
    t.makeShadowOnly d c (66 + c)
  else t.updCfe d fun x => { x with repair := some c }

/-- Channel c waits for its repair, or the repair's spare has not arrived yet (R428). -/
def underRepair (s : Chip) (d : Die) (c : Nat) : Bool :=
  (s.die d).cfe.repair == some c || (s.spareOwner d == 4 && s.spareState d == 1 && s.spareTarget d == c)

/-! ### Filters (R66 to R68) -/

/-- SETTLE on every channel for at least `nf` strokes in FINE and `nl` in LINE. -/
def settleAll (s : Chip) (d : Die) (nf nl : Nat) : Chip :=
  s.updCfe d fun x => { x with setFine := x.setFine.map (max nf), setLine := x.setLine.map (max nl) }

end Chip

end Sys2Proof.Machine
end

