-- ==== Sys2Proof/Machine/Owd.lean ====
section
/-! DEFINITION. Sense wires: the open-wire tests, the all-wire test, the sum check, deviating cells and the step stage (chapter Sense
Wires, Open Wires and Balancing Interaction). -/
namespace Sys2Proof.Machine

/-- An element of a list of readings. -/
def at' (l : List Int) (i : Nat) : Int := l.getD i 0

/-- NODATA of a 24-bit sample (R69). -/
def noData : Int := -8388608

namespace Chip

/-- The cells' channels that wire k touches, the lower one first (Table 04.1, R93). -/
def wireCells (n k : Nat) : List Nat := (if k = 0 then [] else [k - 1]) ++ (if k < n then [k] else [])

/-- The channels that an open wire makes wrong: its cells, and the span for an end wire (R101). -/
def wireChannels (n k : Nat) : List Nat := wireCells n k ++ (if k = 0 || k == n then [17] else [])

/-- The channels marked INVALID follow the wires marked OPEN (R101); a channel that leaves INVALID settles (R67). -/
def showMarks (s : Chip) (d : Die) : Chip :=
  let n := s.cells d
  let now := (List.range 18).filter fun c => (s.die d).owd.marked.any fun k => (wireChannels n k).contains c
  let left := (s.die d).cfe.invalid.filter fun c => !(now.contains c)
  (s.updCfe d fun x => { x with invalid := now }).each left fun c s => s.settleChannel d c

/-- QUEUED follows the requests that wait. -/
def showQueued (s : Chip) (d : Die) : Chip :=
  s.putB d OWD_STATUS OWD_STATUS.QUEUED (!((s.die d).owd.queue.isEmpty) || !((s.die d).owd.devQueue.isEmpty))

/-! ### Requests (R104) -/

/-- A request for a test: dropped while another one waits, or for a wire above n. -/
def requestTest (s : Chip) (d : Die) (all : Bool) (wire : Nat) (cur down : Bool) : Chip :=
  if !((s.die d).owd.queue.isEmpty) || (!all && decide (s.cells d < wire)) then s.put d OWD_STATUS OWD_STATUS.DROPPED 1
  else (s.updOwd d fun x => { x with queue := [⟨all, false, false, wire, cur, down, 0, false⟩] }).showQueued d

/-- A write of OWD_CMD (Table 04.13). An all-wire test takes OD_CUR as it stands at the request (DESIGN CHOICE, assumption 127). -/
def writeOwdCmd (s : Chip) (d : Die) (w : Word) : Chip :=
  if OWD_CMD.GO.read w = 0 then s
  else if OWD_CMD.ALL.read w = 1 then s.requestTest d true 0 (s.bit d OWD_CONFIG OWD_CONFIG.OD_CUR) false
  else s.requestTest d false (OWD_CMD.WIRE.read w) (OWD_CMD.CUR.read w == 1) (OWD_CMD.POL.read w == 1)

/-! ### The start of a test (R98, R99, R102, R105) -/

/-- A background test of wire k is deferred (R141): an active bin is in SETTLE or INTEGRATE on a cell of the wire. -/
def owdDeferred (s : Chip) (d : Die) (k : Nat) : Bool :=
  s.bit d EIS_SCHED EIS_SCHED.OWD_DEFER && decide ((s.die d).owd.defer.getD k 0 < 16) && [0, 1].any fun n =>
    [2, 3].contains (s.get d (EIS_STATUS n) EIS_STATUS.STATE)
      && (wireCells (s.cells d) k).contains (s.get d (EIS_STATUS n) EIS_STATUS.CELL)

/-- The next wire of the rotation, brought back to S0 past Sn. -/
def nextWire (s : Chip) (d : Die) : Nat :=
  let k := s.get d OWD_STATUS OWD_STATUS.NEXT
  if s.cells d < k then 0 else k

/-- The background test that may start in this page (R98). -/
def backgroundTest (s : Chip) (d : Die) : Option OwdTest :=
  let pol := s.get d OWD_CONFIG OWD_CONFIG.BG_POL
  if !(s.mode d FOL_MODENOW.OWD) && s.bit d OWD_CONFIG OWD_CONFIG.BG_EN && !((s.die d).owd.pageDone)
      && decide (s.stroke d / 4 % 256 < 192) && s.get d CAL_STAT CAL_STAT.STATE != 4 && !(s.owdDeferred d (s.nextWire d)) then
    some ⟨false, true, false, s.nextWire d, s.bit d OWD_CONFIG OWD_CONFIG.BG_CUR,
      if 2 ≤ pol then (s.die d).owd.down else pol == 1, 0, false⟩
  else none

/-- The test whose start comes next: a request or a retried test, the tests of deviating cells, the rotation (R103, R104). -/
def nextTest (s : Chip) (d : Die) : Option OwdTest :=
  let x := (s.die d).owd
  if x.retryAt.any fun p => s.stroke d / 1024 < p then none
  else match x.queue, x.devQueue with
    | t :: _, _ => some t
    | [], t :: _ => some t
    | [], [] => s.backgroundTest d

/-- The spare is free for a test: IDLE, or COMMITTED, when the test runs without it (R102); no repair waits. -/
def spareFreeFor (s : Chip) (d : Die) : Bool :=
  (s.spareState d == 0 || s.spareState d == 4) && (s.die d).cfe.repair.isNone

/-- OPEN_WIRE_TEST_START (R99, R102, R104, R105): line L of the test. -/
def openWireTestStart (d : Die) (s : Chip) : Chip :=
  if !(s.runsOn d 1 && s.lineStroke d == 0) || s.stepAsked d 5
      || (s.die d).cfe.stopped || (s.die d).owd.test.isSome || (s.die d).owd.step.isSome then s else
  match s.nextTest d with
  | none => s
  | some t =>
    if !t.all && !(s.spareFreeFor d) then s else
    let t := { t with line := s.stroke d / 4 }
    let u := s.updOwd d fun x => { x with
      test := some t, spoilt := false, retryAt := none, pageDone := x.pageDone || t.bg
      queue := if t.bg || t.dev then x.queue else x.queue.drop 1, devQueue := if t.dev then x.devQueue.drop 1 else x.devQueue
      defer := if t.bg then x.defer.set t.wire 0 else x.defer }
    let v := ((u.put d OWD_STATUS OWD_STATUS.BUSY 1).put d OWD_STATUS OWD_STATUS.WIRE (if t.all then 0x10 else t.wire)).put d
      OWD_STATUS OWD_STATUS.STAGE (if t.all then 6 else 1)
    let w := v.cond (t.bg && s.nextWire d != s.get d OWD_STATUS OWD_STATUS.NEXT) fun s => s.put d OWD_STATUS OWD_STATUS.NEXT 0
    (w.cond (!t.all && s.spareState d == 0) fun s => s.spareEnter d 1 (t.wire - 1)).showQueued d

/-- OPEN_WIRE_SKIP_PAGE (R102, R141): the page's background test has not started by line 192. -/
def openWireSkipPage (d : Die) (s : Chip) : Chip :=
  let x := (s.die d).owd
  let k := s.nextWire d
  if s.runsOn d 1 && s.lineStroke d == 0 && decide (192 ≤ s.stroke d / 4 % 256) && !x.pageDone
      && !(s.mode d FOL_MODENOW.OWD) && s.bit d OWD_CONFIG OWD_CONFIG.BG_EN then
    (s.inc d OWD_STATUS OWD_STATUS.SKIPCNT).updOwd d fun x => { x with
      pageDone := true, defer := if s.owdDeferred d k then x.defer.set k (x.defer.getD k 0 + 1) else x.defer }
  else s

/-! ### The current (R94, R100, R105) -/

/-- The test current in µA. -/
def testCurrent (cur : Bool) : Int := if cur then 400 else 50

/-- What the current moves the pin of wire k by, in µV, with the stored R_PATH. -/
def pinShift (s : Chip) (d : Die) (cur : Bool) (k : Nat) : Int :=
  roundDiv (testCurrent cur * s.get d (OWD_WIRE k) OWD_WIRE.RPATH) 10

/-- What the die adds to the cells of a single-wire test (R100). -/
def wireShift (s : Chip) (d : Die) (t : OwdTest) : List (Nat × Int) :=
  let v := s.pinShift d t.cur t.wire * (if t.down then -1 else 1)
  (if t.wire = 0 then [] else [(t.wire - 1, -v)]) ++ (if t.wire < s.cells d then [(t.wire, v)] else [])

/-- What the die adds to the cells of an all-wire test (R105). -/
def allShift (s : Chip) (d : Die) (cur : Bool) : List (Nat × Int) :=
  (List.range (s.cells d)).map fun c =>
    let v := s.pinShift d cur c + s.pinShift d cur (c + 1)
    (c, if c % 2 = 1 then -v else v)

/-- OPEN_WIRE_CURRENT_ON (R94, R100): at L + 2 lines. -/
def openWireCurrentOn (d : Die) (s : Chip) : Chip :=
  match (s.die d).owd.test with
  | some t =>
    if s.runsOn d 1 && s.lineStroke d == 0 && !t.all && !t.judged && (s.die d).owd.shift.isEmpty && s.stroke d / 4 == t.line + 2 then
      (s.updOwd d fun x => { x with shift := s.wireShift d t }).put d OWD_STATUS OWD_STATUS.STAGE 3
    else s
  | none => s

/-! ### Verdicts (R96, R101, R105) -/

/-- A verdict of wire k: its register, the marks of an OPEN wire, and the result for a cell being classified. Whichever test gives it, a
verdict of the wire counts for a cell that waits (DESIGN CHOICE, assumption 157: R108 does not say which verdicts). -/
def giveVerdict (s : Chip) (d : Die) (k verdict : Nat) (all : Bool) : Chip :=
  let t := ((s.put d (OWD_WIRE k) OWD_WIRE.VERDICT verdict).putB d (OWD_WIRE k) OWD_WIRE.OD all).put d (OWD_WIRE k) OWD_WIRE.AGE 0
  t.updOwd d fun x => { x with
    marked := if verdict = 2 ∧ k ∉ x.marked then k :: x.marked else x.marked
    clearDue := if verdict = 2 then x.clearDue.filter (· != k) else if k ∈ x.marked then k :: x.clearDue else x.clearDue
    pairs := x.pairs.map fun p => (p.1, p.2.1, if p.1 = k then some verdict else p.2.2.1, if p.1 + 1 = k then some verdict else p.2.2.2) }

/-- Offset and gain in force of a channel, LSB 0.125 µV and 0.125 ppm (R339). -/
def correction (s : Chip) (d : Die) (c : Nat) : Int × Int :=
  let f := (s.die d).cal.fac.getD c (0, 0)
  (f.1 + s.getI d (CAL_CH c) CAL_CH.OFFSET, f.2 + s.getI d (CAL_CH c) CAL_CH.GAIN)

/-- A change of a channel's reading from `a` to `b`, corrected (R339), in units of 1/8,000,000 of the reading's: the offset cancels. -/
def changeOf (s : Chip) (d : Die) (c : Nat) (a b : Int) : Int := (b - a) * (8000000 + (s.correction d c).2)

/-- Twice the test value of Table 04.2 from the changes since the baseline line, in the unit of the changes. -/
def testValue (n k : Nat) (down : Bool) (dlt : Nat → Int) : Int :=
  (if down then -1 else 1) * (if k = 0 then 2 * (dlt 1 - dlt 0) else if k = n then 2 * (dlt (n - 1) - dlt (n - 2)) else dlt (k - 1) - dlt k)

/-- The cells whose readings form a test value. -/
def testCells (n k : Nat) : List Nat := if k = 0 then [0, 1] else if k = n then [n - 1, n - 2] else [k - 1, k]

/-- A step stage follows a good verdict of wire k (R112). -/
def stepFollows (s : Chip) (d : Die) (verdict : Nat) : Bool :=
  s.shared d && s.bit d OWD_CONFIG OWD_CONFIG.STEP_EN && verdict != 2

/-- Step cell, reference cell and the cells whose changes give ρ (Table 04.7), as channels, with the sign of ρ. -/
def stepCells (n k : Nat) : Nat × Nat × List Nat × Int :=
  if k = 0 then (0, 2, [0, 1], -1) else if k = n then (n - 1, n - 3, [n - 1, n - 2], -1)
  else if k = 1 then (1, 3, [0], 1) else (k, k - 2, [k - 1], 1)

/-- The next wire of the rotation; the polarity turns with each rotation (R98). -/
def advanceRotation (s : Chip) (d : Die) : Chip :=
  let k := s.get d OWD_STATUS OWD_STATUS.NEXT + 1
  if s.cells d < k then (s.put d OWD_STATUS OWD_STATUS.NEXT 0).updOwd d fun x => { x with down := !x.down }
  else s.put d OWD_STATUS OWD_STATUS.NEXT k

/-- OPEN_WIRE_VERDICT (R96, R99): at L + 6 lines. R_PATH = δ4 / I is rounded half to even to 0.1 Ω and held to 0 to 65,535 (DESIGN CHOICE,
assumption 128). -/
def openWireVerdict (d : Die) (r : RampIn) (s : Chip) : Chip :=
  match (s.die d).owd.test with
  | none => s
  | some t =>
    if !(s.runsOn d 1 && s.lineStroke d == 0) || t.all || t.judged || (s.die d).owd.spoilt || s.stroke d / 4 < t.line + 6 then s else
    let n := s.cells d
    let x1 := testValue n t.wire t.down fun c => s.changeOf d c (at' r.base c) (at' r.l1 c)
    let x4 := testValue n t.wire t.down fun c => s.changeOf d c (at' r.base c) (at' r.l4 c)
    let range := (testCells n t.wire).any fun c => r.range.getD c false
    let th : Int := s.get d OWD_THRESH OWD_THRESH.RAMP_TH * 1600000000
    let i := 8000000 * testCurrent t.cur
    let verdict := if th < x4 - x1 || range then 2
      else if i * s.get d OWD_THRESH OWD_THRESH.RPATH_MAX < 5 * x4 then 3 else 1
    let u := s.giveVerdict d t.wire verdict false
    let u := u.cond (verdict != 2) fun s => s.put d (OWD_WIRE t.wire) OWD_WIRE.RPATH (max 0 (min 65535 (roundDiv (5 * x4) i))).toNat
    let u := (u.putI d OWD_LAST OWD_LAST.RAMP (roundDiv (x4 - x1) 1600000000)).putI d OWD_LAST OWD_LAST.DELTA4 (roundDiv x4 1600000000)
    let u := u.updOwd d fun x => { x with test := some { t with judged := true }, shift := [] }
    let u := (u.put d OWD_STATUS OWD_STATUS.STAGE 4).cond t.bg fun s => s.advanceRotation d
    (u.spareRelease d 1).showMarks d

/-- The deviations of an all-wire test, by cell 1 to n in units of 1/8,000,000 µV; the division, in µV, rounds toward zero (R105, Scope,
Notation). -/
def allDev (s : Chip) (d : Die) (r : RampIn) (k : Nat) : Int :=
  (if k % 2 = 0 then 1 else -1) * (s.changeOf d (k - 1) (at' r.l1 (k - 1)) (at' r.l4 (k - 1))
    - 8000000 * (s.changeOf d 17 r.span1 r.span4).tdiv (8000000 * s.cells d))

/-- The wires that an all-wire test finds open (R105), with a threshold in µV. -/
def openWires (s : Chip) (d : Die) (th : Int) (r : RampIn) : List Nat :=
  let n := s.cells d
  let a := s.allDev d r
  let th := 8000000 * th
  let ramp := fun k => decide (1 ≤ k) && decide (k ≤ n) && (decide (th < a k) || r.range.getD (k - 1) false)
  let lone := fun k => decide (2 ≤ k) && decide (k + 1 ≤ n) && ramp k && !(ramp (k - 1)) && !(ramp (k + 1))
  (List.range (n + 1)).filter fun p =>
    if p = 0 then ramp 1 && (!(ramp 2) || decide (3 * a 2 < 2 * a 1)) || lone 1
    else if p = n then ramp n && (!(ramp (n - 1)) || decide (3 * a (n - 1) < 2 * a n)) || lone n
    else (ramp p && ramp (p + 1)) || lone p || lone (p + 1)

/-- The test that runs has ended. -/
def endTest (s : Chip) (d : Die) : Chip :=
  (((s.updOwd d fun x => { x with test := none, step := none, shift := [], spoilt := false }).put d OWD_STATUS OWD_STATUS.BUSY 0).put d
    OWD_STATUS OWD_STATUS.WIRE 0x1F).put d OWD_STATUS OWD_STATUS.STAGE 0

/-- ALL_WIRE_VERDICT (R105): at L + 8 lines. -/
def allWireVerdict (d : Die) (r : RampIn) (s : Chip) : Chip :=
  match (s.die d).owd.test with
  | none => s
  | some t =>
    if !(s.runsOn d 1 && s.lineStroke d == 0) || !t.all || (s.die d).owd.spoilt || s.stroke d / 4 < t.line + 8 then s else
    let n := s.cells d
    let th : Int := s.get d OWD_THRESH OWD_THRESH.RAMP_TH * (if t.cur then 800 else 100)
    let opens := s.openWires d th r
    let u := s.each (List.range (n + 1)) fun k s => s.giveVerdict d k (if opens.contains k then 2 else 1) true
    (u.endTest d).showMarks d

/-- OPEN_WIRE_ABANDON (R103): the current goes off, the spare is released and the test waits to be retried. -/
def abandonTest (s : Chip) (d : Die) : Chip :=
  match (s.die d).owd.test with
  | none => s
  | some t =>
    let u := (s.endTest d).spareRelease d 1
    if t.bg then u
    else (u.updOwd d fun x => { x with
      retryAt := some (s.stroke d / 1024 + 1)
      queue := if t.dev then x.queue else t :: x.queue, devQueue := if t.dev then t :: x.devQueue else x.devQueue }).showQueued d

/-- The step stage ends: the bleeds and set-points it held are free again (R112). -/
def endStage (s : Chip) (d : Die) : Chip := (s.endTest d).put d CXS_STATUS CXS_STATUS.STEPHOLD 0

/-- OPEN_WIRE_ABANDON at a line boundary: the test (R103), or after its verdict the step stage without a result (R112). -/
def openWireAbandon (d : Die) (s : Chip) : Chip :=
  if !(s.runsOn d 1 && s.lineStroke d == 0 && (s.die d).owd.spoilt) then s
  else if (s.die d).owd.step.isSome then s.endStage d else s.abandonTest d

/-! ### The step stage (R112, R113) -/

/-- The step stage begins, or the test ends without one. -/
def stepStart (s : Chip) (d : Die) (t : OwdTest) : Chip :=
  let n := s.cells d
  let c := stepCells n t.wire
  let good := s.stepFollows d (s.get d (OWD_WIRE t.wire) OWD_WIRE.VERDICT)
    && !((c.1 :: c.2.1 :: c.2.2.1).any fun k => s.cellInvalid d k)
    && !(s.bit d THM_STAT THM_STAT.HOLD) && !(s.bit d CXS_STATUS CXS_STATUS.SAFE)
  if good then
    ((s.updOwd d fun x => { x with step := some (t.wire, c.1, s.stroke d / 4), stepIon := 0 }).put d OWD_STATUS OWD_STATUS.STAGE 5).put d
      CXS_STATUS CXS_STATUS.STEPHOLD 1
  else s.endTest d

/-- The result of a step stage on wire k: ρ in units of 10 µΩ (Table 04.7), from the corrected readings of its lines (R339) and the
on-current summed over the on lines. -/
def stepResult (s : Chip) (d : Die) (k : Nat) (l : List StepPair) (ion : Nat) : Int :=
  let c := stepCells (s.cells d) k
  let sum := fun i => sumInt (l.map fun p => s.changeOf d i (at' p.off i) (at' p.on i))
  roundDiv (c.2.2.2 * 100 * sumInt (c.2.2.1.map fun i => sum i - sum c.2.1)) (8000000 * ion)

/-- STEP_STAGE_END (R112, R113): after 8 lines. A degraded line abandons the stage. 'Below 100 mA' is judged by the mean of the four on
lines, whose sum R112 takes (DESIGN CHOICE, assumption 158). ρ is rounded half to even to 10 µΩ, and one below 0 is stored as 0
(DESIGN CHOICE, assumption 128). -/
def stepStageEnd (d : Die) (l : List StepPair) (s : Chip) : Chip :=
  match (s.die d).owd.step with
  | none => s
  | some (k, _, line) =>
    if !(s.runsOn d 1 && s.lineStroke d == 0) || s.stroke d / 4 < line + 8 then s else
    let t := s.endStage d
    let ion := (s.die d).owd.stepIon
    if (s.die d).owd.spoilt || decide (ion < 400) then t else
    let rho := s.stepResult d k l ion
    let t := ((t.put d (OWD_RWIRE k) OWD_RWIRE.RWIRE (max 0 (min 65535 rho)).toNat).put d (OWD_RWIRE k) OWD_RWIRE.VALID 1).put d
      (OWD_RWIRE k) OWD_RWIRE.AGE 0
    t.cond (decide (5000 < rho)) fun s => (s.put d (OWD_RWIRE k) OWD_RWIRE.LIMIT 1).report d (49 + k)

/-- The line-scheduled part of the tests (Table 04.4, R105). -/
def owdLine (d : Die) (s : Chip) : Chip :=
  let x := (s.die d).owd
  let s := if x.clearDue = [] then s else
    (s.updOwd d fun x => { x with marked := x.marked.filter fun k => !(x.clearDue.contains k), clearDue := [] }).showMarks d
  let line := s.stroke d / 4
  match x.test with
  | none => s
  | some t =>
    if t.all then
      if line = t.line + 1 then s.updOwd d fun x => { x with shift := s.allShift d t.cur }
      else if t.line + 5 ≤ line then s.updOwd d fun x => { x with shift := [] } else s
    else if t.judged then (if t.line + 7 ≤ line ∧ x.step.isNone then s.stepStart d t else s)
    else if line = t.line + 1 then s.put d OWD_STATUS OWD_STATUS.STAGE 2 else s

/-- The page-scheduled part: ages, the rotation's page, and the references of R107, none before the first LINE sample. -/
def owdPage (d : Die) (s : Chip) : Chip :=
  let none_ := (s.die d).cfe.lines.isEmpty
  let t := s.each (List.range 17) fun k s => (s.inc d (OWD_WIRE k) OWD_WIRE.AGE).inc d (OWD_RWIRE k) OWD_RWIRE.AGE
  t.updOwd d fun x => { x with
    pageDone := false
    ref := (List.range 16).map fun c => if none_ then noData else s.getI d (CFE_LINE c) CFE_LINE.SAMPLE
    refSpan := if none_ then noData else s.getI d (CFE_LINE 17) CFE_LINE.SAMPLE
    refSup := s.get d PWR_SUPPLY PWR_SUPPLY.VSTK }

/-! ### The sum check (R106) -/

/-- A flag byte carries TEST, INVALID or RANGE. -/
def spoils (fl : Nat) : Bool := fl.testBit 0 || fl.testBit 2 || fl.testBit 3

/-- The LINE sample and flags of a channel. -/
def lineV (s : Chip) (d : Die) (c : Nat) : Int := s.getI d (CFE_LINE c) CFE_LINE.SAMPLE
def lineF (s : Chip) (d : Die) (c : Nat) : Nat := s.get d (CFE_LINE c) CFE_LINE.FLAGS

/-- SUM_CHECK (R106) on the LINE samples of the line. M is rounded half to even to 100 µV (DESIGN CHOICE, assumption 128). -/
def sumCheck (d : Die) (s : Chip) : Chip :=
  let n := s.cells d
  if (17 :: List.range n).any fun c => spoils (s.lineF d c) then s.put d OWD_SUMCHK OWD_SUMCHK.SKIP 1 else
  let m := sumInt ((List.range n).map fun c => s.lineV d c) - 16 * s.lineV d 17
  let out := decide (s.get d OWD_PAIRCFG OWD_PAIRCFG.SUM_TOL * 1000 < m.natAbs)
  let bad := if out then min 8 ((s.die d).owd.sumBad + 1) else 0
  let good := if out then 0 else min 8 ((s.die d).owd.sumGood + 1)
  let t := ((s.put d OWD_SUMCHK OWD_SUMCHK.SKIP 0).putI d OWD_SUMCHK OWD_SUMCHK.M (roundDiv m 100)).updOwd d fun x =>
    { x with sumBad := bad, sumGood := good }
  if bad = 8 then t.put d OWD_SUMCHK OWD_SUMCHK.LIVE 1 else if good = 8 then t.put d OWD_SUMCHK OWD_SUMCHK.LIVE 0 else t

/-! ### Deviating cells (R107, R108) -/

/-- The class field of a cell's channel. -/
def classReg (c : Nat) : Nat := if c < 8 then OWD_CLASS_LO else OWD_CLASS_HI
def classField (c : Nat) : Fld := ⟨4 * (c % 8), 4⟩

/-- The deviation of a cell times n since the page boundary, in µV; none where a value is missing. -/
def deviation (s : Chip) (d : Die) (c : Nat) : Option Int :=
  let n := s.cells d
  let x := (s.die d).owd
  let v := s.lineV d c
  let sp := s.lineV d 17
  if at' x.ref c = -8388608 ∨ x.refSpan = -8388608 ∨ v = -8388608 ∨ sp = -8388608 then none
  else some ((v - at' x.ref c) * n - 16 * (sp - x.refSpan))

/-- The pair test of a deviating cell holds (Table 04.5). -/
def pairHolds (s : Chip) (d : Die) (c : Nat) (dev : List Int) : Bool :=
  let n := s.cells d
  let x := (s.die d).owd
  let dspan := 16 * (s.lineV d 17 - x.refSpan)
  if c = 0 ∨ c + 1 = n then
    decide (s.get d OWD_PAIRCFG OWD_PAIRCFG.EDGE_TOL * 10000
      < (dspan - 2000 * ((s.get d PWR_SUPPLY PWR_SUPPLY.VSTK : Int) - x.refSup)).natAbs)
  else [c - 1, c + 1].any fun j =>
    let others := (List.range n).filter fun i => i != c && i != j
    let dp := dspan - sumInt (others.map fun i => s.lineV d i - at' x.ref i)
    at' dev j * at' dev c < 0
      && decide ((dp * n - 2 * dspan).natAbs ≤ s.get d OWD_PAIRCFG OWD_PAIRCFG.PS_HOLD * 1000 * n)

/-- DEVIATION_CHECK (R107, R108) on the LINE samples of the line. The tests it queues pull up (DESIGN CHOICE, assumption 129); without them,
in host-assisted mode or with DEVTEST_EN = 0, the class stays PENDING until it is cleared. -/
def deviationCheck (d : Die) (s : Chip) : Chip :=
  let n := s.cells d
  let lim := s.get d OWD_PAIRCFG OWD_PAIRCFG.PS_DEV * 1000 * n
  let x := (s.die d).owd
  let judge := fun c =>
    let run := x.devRun.getD c 0
    match s.deviation d c with
    | some a =>
      if (s.lineF d c).testBit 2 || (s.lineF d c).testBit 3 then (run, at' x.devNow c)
      else if decide (lim < a.natAbs) then (min 5 (run + 1), if 3 ≤ run then a else 0) else (0, 0)
    | none => (run, at' x.devNow c)
  let js := (List.range n).map judge
  let dev := js.map (·.2)
  let new := (List.range n).filter fun c => (js.getD c (0, 0)).1 == 4 && x.devRun.getD c 0 == 3
  let t := s.updOwd d fun x => { x with devRun := js.map (·.1), devNow := dev }
  let test := s.bit d OWD_CONFIG OWD_CONFIG.DEVTEST_EN && !(s.mode d FOL_MODENOW.OWD)
  let cur := s.bit d OWD_CONFIG OWD_CONFIG.BG_CUR
  let wire := fun k => (⟨false, false, true, k, cur, false, 0, false⟩ : OwdTest)
  t.each new fun c s =>
    if (s.die d).owd.pairs.any (·.1 == c) then s else
    let s := s.put d (classReg c) (classField c) 5
    (s.updOwd d fun x => { x with
      pairs := if test then x.pairs ++ [(c, s.pairHolds d c dev, none, none)] else x.pairs
      devQueue := if test then x.devQueue ++ [wire c, wire (c + 1)] else x.devQueue }).showQueued d

/-- DEVIATION_CLASSIFY (R108): both wires of the cell have their verdicts. -/
def deviationClassify (d : Die) (c : Nat) (s : Chip) : Chip :=
  match (s.die d).owd.pairs.find? (·.1 == c) with
  | some (_, holds, some a, some b) =>
    if !(s.runsOn d 1) then s else
    let opn := a == 2 || b == 2
    let code := match holds, opn with
      | false, false => 1
      | true, true => 2
      | true, false => 3
      | false, true => 4
    let t := (s.updOwd d fun x => { x with pairs := x.pairs.filter (·.1 != c) }).put d (classReg c) (classField c) code
    t.cond (code == 3) fun s => s.report d 108
  | _ => s

/-- Cells whose class field has been written clear are no longer being classified (R108). -/
def dropCleared (s : Chip) (d : Die) : Chip :=
  s.updOwd d fun x => { x with pairs := x.pairs.filter fun p => s.get d (classReg p.1) (classField p.1) != 0 }

/-- A write of OWD_RWIREn (R113). -/
def writeRwire (s : Chip) (d : Die) (k : Nat) (w : Word) : Chip :=
  let t := ((s.put d (OWD_RWIRE k) OWD_RWIRE.RWIRE (OWD_RWIRE.RWIRE.read w)).put d (OWD_RWIRE k) OWD_RWIRE.VALID 1).put d
    (OWD_RWIRE k) OWD_RWIRE.AGE 0
  t.cond (OWD_RWIRE.LIMIT.read w == 1) fun s => s.put d (OWD_RWIRE k) OWD_RWIRE.LIMIT 0

end Chip

/-- OPEN_WIRE_TEST_START (R102). -/
def execOpenWireTestStart (d : Die) (s : State) : Host.Outcome State Fault Refusal := s.run (Chip.openWireTestStart d)

/-- OPEN_WIRE_SKIP_PAGE (R102). -/
def execOpenWireSkipPage (d : Die) (s : State) : Host.Outcome State Fault Refusal := s.run (Chip.openWireSkipPage d)

/-- OPEN_WIRE_CURRENT_ON (R94). -/
def execOpenWireCurrentOn (d : Die) (s : State) : Host.Outcome State Fault Refusal := s.run (Chip.openWireCurrentOn d)

/-- OPEN_WIRE_VERDICT (R96). -/
def execOpenWireVerdict (d : Die) (r : RampIn) (s : State) : Host.Outcome State Fault Refusal := s.run (Chip.openWireVerdict d r)

/-- OPEN_WIRE_ABANDON (R103). -/
def execOpenWireAbandon (d : Die) (s : State) : Host.Outcome State Fault Refusal := s.run (Chip.openWireAbandon d)

/-- STEP_STAGE_END (R112). -/
def execStepStageEnd (d : Die) (p0 p1 p2 p3 : StepPair) (s : State) : Host.Outcome State Fault Refusal :=
  s.run (Chip.stepStageEnd d [p0, p1, p2, p3])

/-- ALL_WIRE_VERDICT (R105). -/
def execAllWireVerdict (d : Die) (r : RampIn) (s : State) : Host.Outcome State Fault Refusal := s.run (Chip.allWireVerdict d r)

/-- DEVIATION_CLASSIFY (R108). -/
def execDeviationClassify (d : Die) (cell : Fin 16) (s : State) : Host.Outcome State Fault Refusal :=
  s.run (Chip.deviationClassify d cell.val)

/-- OWD_SINGLE_WIRE_REQUEST (R104). -/
def execOwdSingleWireRequest (d : Die) (wire : Nat) (cur pol : Bool) (s : State) : Host.Outcome State Fault Refusal :=
  s.run fun c => if c.on d 1 then c.requestTest d false wire cur pol else c

/-- OWD_ALL_WIRE_REQUEST (R104, R105). -/
def execOwdAllWireRequest (d : Die) (s : State) : Host.Outcome State Fault Refusal :=
  s.run fun c => if c.on d 1 then c.requestTest d true 0 (c.bit d OWD_CONFIG OWD_CONFIG.OD_CUR) false else c

end Sys2Proof.Machine
end

