-- ==== Sys2Proof/Machine/Measure.lean ====
section
/-! DEFINITION. Cell measurement: the primary path with its corrections and flags, the shadow path, the AUX inputs and the stream
frames (chapter Cell Measurement; R110, R111, R334, R339, R372). -/
namespace Sys2Proof.Machine

/-- The first bit of a flag byte that a condition sets. -/
def flagIf (b : Bool) (bitNo : Nat) : Nat := if b then 2 ^ bitNo else 0

namespace Chip

/-! ### Corrections (R110, R111, R339) -/

/-- The channel's output with correction of channel `by_`, over 64,000,000 for a cell and over 256,000,000 for the span: the span's
correction acts at the divider output node. -/
def corrected (s : Chip) (d : Die) (by_ : Nat) (span : Bool) (x : Int) : Int :=
  let k := s.correction d by_
  (if span then 32 * x - 5 * k.1 else 8 * x - k.1) * (8000000 + k.2)

/-- The denominator of `corrected`. -/
def corrDen (span : Bool) : Int := if span then 256000000 else 64000000

/-- I_j of R110 for the cell of channel c in FIR1 interval i, of 256 MCLK cycles, of line stroke q, in units of 1/256 mA: the bleed is on
from the line's start to its end (R155, R157); `fir0` and `fir1` are the converters' means over the intervals, LSB 125 µA. -/
def intervalCurrent (s : Chip) (d : Die) (fir0 fir1 : List Int) (c q i : Nat) : Int :=
  let on : Nat := min 256 (s.bleedEnd d c - 256 * (4 * q + i))
  let conv := fun n (l : List Int) => if s.selected d n = some c then at' l i else 0
  on * s.get d (CXS_BLEED c) CXS_BLEED.ION + 32 * (conv 0 fir0 + conv 1 fir1)

/-- The harness currents of the stroke that ended (R110): with its edge at the present stroke. -/
def harnessEdge (d : Die) (fir0 fir1 : List Int) (s : Chip) : Chip :=
  let q := (s.stroke d + 3) % 4
  s.updCfe d fun x => { x with
    harness := (List.range 16).map fun c => (List.range 4).map fun i => s.intervalCurrent d fir0 fir1 c q i }

/-- W_k · ρ_k of wire k in FIR1 interval i, in units of 1/25,600 µV (R110, R111). -/
def wireDrop (s : Chip) (d : Die) (i k : Nat) : Int :=
  let n := s.cells d
  let cur := fun j => if 1 ≤ j ∧ j ≤ n then at' ((s.die d).cfe.harness.getD (j - 1) []) i else 0
  (cur k - cur (k + 1)) * s.get d (OWD_RWIRE k) OWD_RWIRE.RWIRE

/-- The Shared-mode correction of a channel in FIR1 interval i, in units of 1/25,600 µV (R111); channel 16 takes that of the channel it
serves. -/
def sharedCorr (s : Chip) (d : Die) (i c : Nat) : Int :=
  let c := if c = 16 then s.spareTarget d else c
  if !(s.shared d) then 0
  else if c = 17 then s.wireDrop d i (s.cells d) - s.wireDrop d i 0
  else s.wireDrop d i (c + 1) - s.wireDrop d i c

/-! ### Samples (R69 to R73, R458) -/

/-- A full calibration runs (R356). -/
def fullCal (s : Chip) (d : Die) : Bool := s.get d CAL_STAT CAL_STAT.STATE == 3

/-- The channel whose input CAL or an element test has taken while the spare is committed (R73). -/
def takenChannels (s : Chip) (d : Die) : List Nat :=
  if s.spareState d != 4 then [] else
    let own := (match (s.die d).cal.pass with | some p => p.running.map (·.code) | none => [])
      ++ (match (s.die d).bist.elem with | some e => [e.1] | none => [])
    own.map fun c => if c = 16 then s.spareTarget d else c

/-- The channel takes the shadow sample (R73, R428, R429). -/
def shadowed (s : Chip) (d : Die) (c : Nat) : Bool :=
  (s.die d).cfe.shadowOnly.contains c || s.underRepair d c || (s.takenChannels d).contains c

/-- The latest shadow sample of a channel as a primary value (R429). -/
def shadowValue (s : Chip) (d : Die) (c : Nat) : Int :=
  let code : Int := s.get d (SHD_SAMPLE c) SHD_SAMPLE.CODE
  if c = 17 then code * 125 else (code - 4096) * 100

/-- A value held to the measurable range, and whether it lies outside it (R69, R70). That a span input beyond its range is held to it as a
cell's is, is the model's choice (DESIGN CHOICE, assumption 159: R69 gives the clamp for cells). -/
def ranged (span : Bool) (v : Int) : Int × Bool :=
  let lo : Int := if span then -62500 else -300000
  let hi : Int := if span then 6250000 else 5500000
  if v < lo then (lo, true) else if hi < v then (hi, true) else (v, false)

/-- The flags that an age or a run gives for a corner: SUBST, TEST, COMP, SETTLE. -/
def ageFlags (s : Chip) (d : Die) (c code settle : Nat) : Nat :=
  let x := (s.die d).cfe
  let n := settleStrokes code
  flagIf (x.subAge.getD c 4095 ≤ n) 1 + flagIf (x.testAge.getD c 4095 ≤ n) 2 + flagIf (x.compAge.getD c 4095 ≤ n) 5
    + flagIf (settle != 0) 6

/-- Channel c carries no measurement (R71, R101, R356, R458). -/
def noMeasurement (s : Chip) (d : Die) (c : Nat) : Bool :=
  s.fullCal d || s.cellInvalid d c || (c < 16 && decide (s.cells d ≤ c))

/-- The correction that a corner stage's output carries, in units of 1/25,600 µV: the compensation of R111 where the channel's corrections
were uniform over the stage's window, else a free value, since the coefficients that weigh them are not stated. `kind` is 0 FINE, 1
LINE, 2 COMPARE, which has the compensation removed (R78). -/
def stageCorr (s : Chip) (d : Die) (c kind code : Nat) : Int :=
  let x := (s.die d).cfe
  let n := settleStrokes code
  if x.calAge.getD c 4095 < n || (kind != 2 && decide (x.corrAge.getD c 4095 < n)) then Config.cornerMix s.free (3 * c + kind)
  else if kind = 2 then 0 else at' x.corrNow c

/-- A stage's output x corrected with the correction of channel `by_` and the compensation of the window, before it is held to a
range. -/
def stageValue (s : Chip) (d : Die) (c by_ : Nat) (span : Bool) (x : Int) (kind code : Nat) : Int :=
  let den := corrDen span
  let m : Int := if span then 409600 else 25600
  roundDiv (s.corrected d by_ span x * m + s.stageCorr d c kind code * den) (den * m)

/-- A sample of a channel with its flags: `x` the output of its stage, `kind` 0 FINE, 1 LINE, 2 COMPARE, `code` the corner, `settle` the
strokes of SETTLE left. A shadow sample outside the range of R69 is neither clamped nor flagged RANGE (DESIGN CHOICE, assumption 123:
R69 speaks of the channel's input, R73 and R429 of the latest shadow sample). -/
def sampleOf (s : Chip) (d : Die) (c : Nat) (x : Int) (kind code settle : Nat) : Int × Nat :=
  let span := c == 17
  let fl := s.ageFlags d c code settle
  let fl := if kind = 2 then fl - (fl &&& 32) else fl
  if s.noMeasurement d c then (noData, if c < 16 ∧ s.cells d ≤ c then 8 else fl ||| 8)
  else if s.shadowed d c then (s.shadowValue d c, fl ||| 16)
  else
    let by_ := if s.spareServes d c then 16 else c
    let sh : Int := ((s.die d).owd.shift.find? (·.1 == c)).elim 0 (·.2)
    let v := ranged span (s.stageValue d c by_ span x kind code + sh)
    (v.1, fl ||| flagIf v.2 0)

/-- The spare's own sample (R458). While the spare is COMMITTED it reports its target throughout, also while it is calibrated in place as
item 16 (DESIGN CHOICE, assumption 124: R458 names the whole time it is COMMITTED, and TARGET is then not 16). -/
def spareSample (s : Chip) (d : Die) (x : Int) (kind code settle : Nat) : Int × Nat :=
  let t := s.spareTarget d
  if t ≠ 0x1F ∧ t ≠ 16 ∧ s.spareState d ≠ 0 ∧ !(s.fullCal d) ∧ !((s.die d).bist.elem.any (·.1 == 16)) then
    let v := ranged (t == 17) (s.stageValue d 16 16 (t == 17) x kind code)
    (v.1, 2 + flagIf v.2 0 + (s.ageFlags d 16 code settle &&& 0x60))
  else (noData, 8)

/-- A channel's FINE sample, its LINE sample and its COMPARE output: values and flags. -/
def latched (s : Chip) (d : Die) (c : Nat) (x : ChanIn) : (Int × Nat) × (Int × Nat) × (Int × Nat) :=
  let f := (s.die d).cfe
  let nf := f.setFine.getD c 0
  let nl := f.setLine.getD c 0
  if c = 16 then (s.spareSample d x.fine 0 f.fineNow nf, s.spareSample d x.line 1 f.lineNow nl, (noData, 8))
  else (s.sampleOf d c x.fine 0 f.fineNow nf, s.sampleOf d c x.line 1 f.lineNow nl, s.sampleOf d c x.cmp 2 6 0)

/-- The strokes since a channel's quantity last changed: 0 where it does. -/
def ageOf (l : List Nat) (now : Nat → Bool) : List Nat := (List.range 18).map fun c => if now c then 0 else min 4095 (l.getD c 4095 + 1)

/-- The ages of what the stages of each channel have taken: 0 while it is taken, else one stroke more; and of their corrections, 0 where
one changed within the stroke or since the last. A correction of R111 that is not zero counts for COMP whatever `OWD_RWIREn.VALID` and AGE
say and however large ρ is: outside the conditions of R114 COMP is still set. -/
def ageChannels (d : Die) (s : Chip) : Chip :=
  let x := (s.die d).cfe
  let cal := (List.range 18).map fun c => s.correction d (if s.spareServes d c then 16 else c)
  let corr := (List.range 18).map fun c => (List.range 4).map fun i => s.sharedCorr d i c
  s.updCfe d fun x' => { x' with
    subAge := ageOf x.subAge fun c => s.spareServes d c
    testAge := ageOf x.testAge fun c => (s.die d).owd.shift.any (·.1 == c)
    compAge := ageOf x.compAge fun c => (corr.getD c []).any (· != 0)
    calAge := ageOf x.calAge fun c => !(x.calNow.isEmpty) && x.calNow[c]? != cal[c]?
    calNow := cal
    corrAge := ageOf x.corrAge fun c => (corr.getD c []).any (· != at' x.corrNow c)
    corrNow := (List.range 18).map fun c => at' (corr.getD c []) 3 }

/-- What a page gathers of a channel takes one more LINE sample (R88). -/
def pageStatAdd (p : PageStat) (v : Int × Nat) : PageStat :=
  if v.2.testBit 0 || v.2.testBit 3 then { p with flags := p.flags ||| v.2 }
  else ⟨if p.count = 0 then v.1 else min p.lo v.1, if p.count = 0 then v.1 else max p.hi v.1, p.sum + v.1, p.count + 1, p.flags ||| v.2⟩

/-- The LINE samples of a line: registers, the last three lines, the page, the sum check and the deviations. -/
def latchLine (d : Die) (vs : List (Int × Nat)) (s : Chip) : Chip :=
  let t := s.each (List.range 18) fun c s =>
    (s.putI d (CFE_LINE c) CFE_LINE.SAMPLE (vs.getD c (noData, 8)).1).put d (CFE_LINE c) CFE_LINE.FLAGS (vs.getD c (noData, 8)).2
  let t := t.updCfe d fun x => { x with
    lineRec := true
    lines := ((s.stroke d / 4, vs) :: x.lines).take 3
    page := (List.range 18).map fun c => pageStatAdd (x.page.getD c ⟨0, 0, 0, 0, 0⟩) (vs.getD c (noData, 8)) }
  (t.sumCheck d).deviationCheck d

/-- The record of a sleep (R61, Table 02.3): queued at the first samples latched after it, for the classes that were enabled at the entry or
are now (DEDUCED, assumption 153). -/
def sleepGap (s : Chip) (d : Die) : Chip :=
  let x := s.die d
  if x.time.gapMask = 0 then s else
  let first := x.time.gapFrom.toNat
  let count := s.stroke d - first
  (s.queueGapOf d first count 1 (gapClasses first count &&& (x.time.gapMask ||| x.cfe.streamNow.toNat % 8))).updTime d fun t =>
    { t with gapMask := 0 }

/-- CFE_LATCH (R65, R106, R107, R339): the FINE and COMPARE outputs of every stroke, and at a line boundary the LINE outputs. -/
def cfeLatch (d : Die) (chans : List ChanIn) (s : Chip) : Chip :=
  if !(s.runsOn d 1) || (s.die d).cfe.stopped then s else
  let s := (s.sleepGap d).ageChannels d
  let out := (List.range 18).map fun c => s.latched d c (chans.getD c ⟨0, 0, 0⟩)
  let get := fun c => out.getD c ((noData, 8), (noData, 8), (noData, 8))
  let t := s.each (List.range 17) fun c s =>
    (s.putI d (CFE_FINE c) CFE_FINE.SAMPLE (get c).1.1).put d (CFE_FINE c) CFE_FINE.FLAGS (get c).1.2
  let t := t.updCfe d fun x => { x with
    fineRec := true, spanFine := (get 17).1.1, spanFlags := (get 17).1.2
    cmp := (List.range 18).map fun c => (get c).2.2.1, cmpFlags := (List.range 18).map fun c => (get c).2.2.2
    setFine := x.setFine.map (· - 1), setLine := x.setLine.map (· - 1) }
  let t := t.draw
  if s.lineStroke d = 0 then t.latchLine d (out.map (·.2.1)) else t

/-! ### Filters (R67, R68, R83) -/

/-- FILTER_CHANGE (R67, R68) and the stream settings (R83) at a line boundary. -/
def filterLine (d : Die) (s : Chip) : Chip :=
  let x := (s.die d).cfe
  let fine := s.get d CFE_FILTSEL CFE_FILTSEL.FINE
  let line := s.get d CFE_FILTSEL CFE_FILTSEL.LINE
  let notch := s.bit d CFE_FILTSEL CFE_FILTSEL.NOTCH_EN
  let turned := notch != x.notchNow
  let t := s.updCfe d fun x => { x with
    fineNow := fine, lineNow := line, notchNow := notch, streamNow := s.reg d CFE_STREAMCFG
    selNow := [0, 1, 2, 3].map fun i => s.reg d (MOD_FINESEL i) }
  t.settleAll d (if fine != x.fineNow || turned then settleStrokes fine else 0) (if line != x.lineNow || turned then settleStrokes line else 0)

/-- NOTCH_CENTRE_LOAD (R68) at a stroke edge. The samples of the next 2 lines are those of the 8 strokes from the edge (DESIGN CHOICE,
assumption 125); the 2% of R68 are taken of the old centre (DESIGN CHOICE, assumption 160). -/
def notchEdge (d : Die) (s : Chip) : Chip :=
  let old := (s.die d).cfe.centre
  let new := s.get d CFE_NOTCH CFE_NOTCH.CENTRE
  let far := (s.die d).cfe.notchNow && decide (old < 50 * ((new : Int) - old).natAbs)
  (s.updCfe d fun x => { x with centre := new }).cond far fun s => s.settleAll d 8 8

/-- A write of CFE_NOTCH (R68): the centre is clamped to 500 Hz to 16 kHz; CLAMPED is sticky. -/
def writeNotch (s : Chip) (d : Die) (w : Word) : Chip :=
  let c := CFE_NOTCH.CENTRE.read w
  let k := max 2000 (min 64000 c)
  let t := s.cond (CFE_NOTCH.CLAMPED.read w == 1) fun s => s.put d CFE_NOTCH CFE_NOTCH.CLAMPED 0
  (t.put d CFE_NOTCH CFE_NOTCH.CENTRE k).cond (k != c) fun s => s.put d CFE_NOTCH CFE_NOTCH.CLAMPED 1

/-! ### The shadow path (R74 to R78, R372) -/

/-- The shadow structure of a die changed. -/
def updShd (s : Chip) (d : Die) (f : ShdX → ShdX) : Chip := s.upd d fun x => { x with shd := f x.shd }

/-- SHADOW_THRESHOLD (R76): a conversion of cell channel c. -/
def shadowThreshold (s : Chip) (d : Die) (c code : Nat) : Chip :=
  let ov := s.get d SHD_OV SHD_OV.CODE
  let uv := s.get d SHD_UV SHD_UV.CODE
  let hy := s.get d SHD_HYST SHD_HYST.CODE
  let x := (s.die d).shd
  let isOv := decide (ov < code)
  let isUv := decide (code < uv)
  let inside := decide (uv + hy ≤ code) && decide (code + hy ≤ ov)
  let o := if isOv then min 2 (x.ovRun.getD c 0 + 1) else 0
  let u := if isUv then min 2 (x.uvRun.getD c 0 + 1) else 0
  let i := if inside then min 2 (x.inRun.getD c 0 + 1) else 0
  let t := s.updShd d fun x => { x with ovRun := x.ovRun.set c o, uvRun := x.uvRun.set c u, inRun := x.inRun.set c i }
  let t := (t.putB d (SHD_SAMPLE c) SHD_SAMPLE.OVV isOv).putB d (SHD_SAMPLE c) SHD_SAMPLE.UVV isUv
  let live := fun (m : Nat) (run : Nat) => withBit m c (run == 2 || (m.testBit c && i != 2))
  (t.put d SHD_STATUS SHD_STATUS.OV_LIVE (live (s.get d SHD_STATUS SHD_STATUS.OV_LIVE) o)).put d SHD_STATUS SHD_STATUS.UV_LIVE
    (live (s.get d SHD_STATUS SHD_STATUS.UV_LIVE) u)

/-- The disagreement window (Table 03.22): values below 10 act as 10. -/
def window (s : Chip) (d : Die) : Nat := max 10 (s.get d SHD_DISAGREE SHD_DISAGREE.WINDOW)

/-- PRIMARY_SHADOW_COMPARE (R78): one comparison that has reached its window. -/
def compareOne (s : Chip) (d : Die) (c code : Nat) (p : Int) (skip : Bool) : Chip :=
  if skip then s.put d (SHD_SAMPLE c) SHD_SAMPLE.SKIP 1 else
  let dv := max (-2047) (min 2047 (roundDiv (p - ((code : Int) - 4096) * 100) 100))
  let t := (s.put d (SHD_SAMPLE c) SHD_SAMPLE.SKIP 0).put d (SHD_SAMPLE c) SHD_SAMPLE.DIFF (ofSigned dv 12)
  let t := t.put d SHD_DIFFMAX SHD_DIFFMAX.MAX (max (t.get d SHD_DIFFMAX SHD_DIFFMAX.MAX) dv.natAbs)
  t.cond (decide (s.window d < dv.natAbs)) fun s => s.report d 109

/-- The comparisons that wait move on by a stroke; those of 8 strokes ago are made. -/
def compareDue (s : Chip) (d : Die) : Chip :=
  let w := (s.die d).shd.waiting.map fun e => (e.1 - 1, e.2)
  (s.updShd d fun x => { x with waiting := w.filter (·.1 != 0) }).each (w.filter (·.1 == 0)) fun e s =>
    s.compareOne d (e.2.1 % 16) e.2.2.1 e.2.2.2.1 e.2.2.2.2

/-- SHADOW_SELF_CHECK (R372). -/
def shadowTest (s : Chip) (d : Die) (code : Nat) (verdictOk : Bool) : Chip :=
  let good := decide (29084 ≤ code) && decide (code ≤ 29108) && verdictOk
  let x := (s.die d).shd
  let bad := if good then 0 else min 2 (x.badRun + 1)
  let run := if good then min 16 (x.goodRun + 1) else 0
  let t := s.updShd d fun x => { x with badRun := bad, goodRun := run }
  let t := t.cond (bad == 2 && !((s.die d).fcol.present.contains 110)) fun s => s.raise d 110
  t.cond (run == 16) fun s => s.cause d 110 false

/-- SHD_CONVERSION (R74 to R78, R299, R372): the slot's cell, in slot 0 the span and in the others the test voltage; the
thresholds act from 16 strokes after D2 powers up. The comparison's 16 strokes since the die left reset count from a wake too, where D2
powers up again (DESIGN CHOICE, assumption 126). A cell at or above CELLS is converted and nothing more: its live OV and UV bits, its
comparisons that wait and its SKIP stay as they are (DESIGN CHOICE, assumption 161). -/
def shdConversion (d : Die) (code spanCode testCode : Nat) (verdictOk : Bool) (s : Chip) : Chip :=
  if !(s.runsOn d 2) then s else
  let c := s.stroke d % 16
  let s := s.compareDue d
  let s := s.putSat d (SHD_SAMPLE c) SHD_SAMPLE.CODE code
  let s := if c = 0 then s.putSat d (SHD_SAMPLE 17) SHD_SAMPLE.CODE spanCode else s.shadowTest d testCode verdictOk
  if s.cells d ≤ c then s else
  let s := if (s.die d).pwr.shdWarm < 16 then s else s.shadowThreshold d c code
  let fl := (s.die d).cfe.cmpFlags.getD c 8
  let skip := spoils fl || fl.testBit 4 || !(s.on d 1) || (s.die d).cfe.stopped || s.degraded d || decide ((s.die d).shd.since < 16)
  s.updShd d fun x => { x with waiting := x.waiting ++ [(8, c, code, (s.die d).cfe.cmp.getD c 0, skip)] }

/-! ### AUX inputs (R80, R81) -/

/-- The form in which a conversion is reported: the code, or its fraction of VREG5 in Q0.16 (R80). A ratio of 1 or more, or of a VREG5 of 0,
reads 65,535 (DESIGN CHOICE, assumption 162). -/
def auxForm (s : Chip) (d : Die) (n code : Nat) : Nat :=
  if (s.get d CFE_AUXCFG CFE_AUXCFG.RATIO).testBit n then
    let v := s.get d PWR_SUPPLY PWR_SUPPLY.VREG5
    if v = 0 then 65535 else min 65535 (roundDiv (code * 2048) v).toNat
  else min 65535 code

/-- A conversion of the AUX converter with its correction (R339), LSB 62.5 µV; offsets count 1 µV and gains 1 ppm. -/
def auxCorrected (s : Chip) (d : Die) (x : Int) : Int :=
  let f := (s.die d).cal.fac.getD 18 (0, 0)
  let o := f.1 + s.getI d CAL_AUX CAL_AUX.OFFSET
  let g := f.2 + s.getI d CAL_AUX CAL_AUX.GAIN
  roundDiv ((125 * x - 2 * o) * (1000000 + g)) 125000000

/-- One input converted: its result waits for the next stroke edge, joins the page's mean and is compared (R80, R88, R334, R339). -/
def auxInput (s : Chip) (d : Die) (n raw : Nat) : Chip :=
  let code := (s.auxCorrected d raw).toNat
  let v := s.auxForm d n code
  let t := s.updCfe d fun x => { x with
    auxDue := x.auxDue ++ [(n, v, decide (52800 < code))]
    auxSum := x.auxSum.set n ((x.auxSum.getD n (0, 0)).1 + v, (x.auxSum.getD n (0, 0)).2 + 1) }
  t.auxTemp d n v (decide (52800 < code))

/-- PACK_CURRENT_CONVERSION (R81): the difference AUX0 − AUX1 and the pack current. RANGE of both inputs is then 0 (DESIGN CHOICE,
assumption 163). -/
def packCurrent (s : Chip) (d : Die) (diff : Int) : Chip :=
  let v := satSigned (s.auxCorrected d diff) 16
  let i := roundDiv (v * s.getI d CFE_PACKI_GAIN CFE_PACKI_GAIN.GAIN) 65536 + s.getI d CFE_PACKI_OFFSET CFE_PACKI_OFFSET.OFFSET
  s.updCfe d fun x => { x with
    auxDue := x.auxDue ++ [(0, ofSigned v 16, false), (1, 0, false)]
    auxSum := x.auxSum.set 0 ((x.auxSum.getD 0 (0, 0)).1 + v, (x.auxSum.getD 0 (0, 0)).2 + 1)
    packDue := some (max (-8388607) (min 8388607 i), s.stroke d) }

/-- AUX_CONVERSION (R80, R81). -/
def auxConversion (d : Die) (codeA codeB : Nat) (diff : Int) (s : Chip) : Chip :=
  if !(s.runsOn d 7) then s else
  let n := 2 * s.lineStroke d
  if d.val = 0 ∧ s.bit d CFE_AUXCFG CFE_AUXCFG.PACKI then
    let t := s.packCurrent d diff
    if n = 0 then t else (t.auxInput d n codeA).auxInput d (n + 1) codeB
  else (s.auxInput d n codeA).auxInput d (n + 1) codeB

/-- The results that a stroke edge latches (R80). -/
def auxEdge (d : Die) (s : Chip) : Chip :=
  let due := (s.die d).cfe.auxDue
  (s.updCfe d fun x => { x with auxDue := [], packNow := x.packDue.or x.packNow, packDue := none }).each due fun e s =>
    (s.put d (CFE_AUX e.1) CFE_AUX.VALUE e.2.1).putB d (CFE_AUX e.1) CFE_AUX.RANGE e.2.2

/-! ### Stream frames (R85 to R88) -/

/-- The connected cells as a mask (R71). -/
def cellMask (s : Chip) (d : Die) : Nat := 2 ^ (min 16 (s.cells d)) - 1

/-- The die's slice of the FINE selection in force (R87). -/
def fineMask (s : Chip) (d : Die) : Nat :=
  (((s.die d).cfe.selNow.getD (d.val / 2) 0).toNat / 2 ^ (16 * (d.val % 2))) % 65536 &&& s.cellMask d

/-- A record: the samples and flags of the channels of a mask. -/
def recordOf (mask : Nat) (v : Nat → Nat) (fl : Nat → Nat) : List (Nat × Nat × Nat) :=
  ((List.range 16).filter fun c => mask.testBit c).map fun c => (c, v c, fl c)

/-- A record joins the open frame of its class, or opens one; a frame whose header has changed ends first (R85). -/
def addRecord (s : Chip) (d : Die) (cls flags mask sub rings : Nat) (r : StreamRec) : Chip :=
  let x := (s.die d).cfe
  let cur := if cls = 1 then x.fineOpen else x.lineOpen
  let same := cur.any fun f => f.dieflags == flags && f.cellmask == mask && f.sub == sub && f.rings == rings
  let s := if cur.isSome && !same then s.closeFrame d cls else s
  let f := match cur with
    | some f => if same then { f with recs := f.recs ++ [r] } else ⟨s.stroke d, flags, mask, sub, rings, [r]⟩
    | none => ⟨s.stroke d, flags, mask, sub, rings, [r]⟩
  s.updCfe d fun x => if cls = 1 then { x with fineOpen := some f } else { x with lineOpen := some f }

/-- The FINE record of the stroke (R87). -/
def assembleFine (s : Chip) (d : Die) : Chip :=
  let w := (s.die d).cfe.streamNow
  let mask := s.fineMask d
  if CFE_STREAMCFG.FINE_EN.read w = 0 ∨ mask = 0 then s.closeFrame d 1
  else if !((s.die d).cfe.fineRec) then s
  else
    let r := recordOf mask (fun c => s.get d (CFE_FINE c) CFE_FINE.SAMPLE) (fun c => s.get d (CFE_FINE c) CFE_FINE.FLAGS)
    let t := s.addRecord d 1 (s.dieFlags d) mask 0 (ringCode (CFE_STREAMCFG.FINE_RING.read w)) r
    if s.stroke d % 8 = 7 then t.closeFrame d 1 else t

/-- The LINE record of the line (R86). -/
def assembleLine (s : Chip) (d : Die) : Chip :=
  let w := (s.die d).cfe.streamNow
  let n := min 8 (CFE_STREAMCFG.LINE_DIV.read w)
  let line := s.stroke d / 4
  if CFE_STREAMCFG.LINE_EN.read w = 0 then s.closeFrame d 2
  else if !((s.die d).cfe.lineRec) || line % 2 ^ n != 0 then s
  else
    let span := CFE_STREAMCFG.LINE_SPAN.read w
    let v := fun c => s.get d (CFE_LINE c) CFE_LINE.SAMPLE
    let fl := fun c => s.get d (CFE_LINE c) CFE_LINE.FLAGS
    let r := recordOf (s.cellMask d) v fl ++ (if span = 1 then [(17, v 17, fl 17)] else [])
    let t := s.addRecord d 2 (s.dieFlags d + 16 * span) (s.cellMask d) n (ringCode (CFE_STREAMCFG.LINE_RING.read w)) r
    if line / 2 ^ n % 8 = 7 then t.closeFrame d 2 else t

/-- STREAM_FRAME_ASSEMBLE (R85 to R87, R89). -/
def streamFrameAssemble (d : Die) (s : Chip) : Chip :=
  if !(s.runsOn d 6) then s else
    ((s.assembleFine d).assembleLine d).updCfe d fun x => { x with fineRec := false, lineRec := false }

/-- The three statistics of a channel in a PAGE summary (R88). -/
def pageFields (p : PageStat) : List Byte :=
  if p.count = 0 then leBytes 3 0x800000 ++ leBytes 3 0x800000 ++ leBytes 3 0x800000
  else leBytes 3 (ofSigned p.lo 24) ++ leBytes 3 (ofSigned p.hi 24) ++ leBytes 3 (ofSigned (roundDiv p.sum p.count) 24)

/-- PAGE_CELL_SUMMARY (R88, Table 03.10) of the page just ended. Of a count difference or a phase offset that its field cannot hold, the
field shows the low bits (DESIGN CHOICE, assumption 164: R55 is silent). -/
def pageSummary (d : Die) (s : Chip) : Chip :=
  let x := (s.die d).cfe
  let w := x.streamNow
  let mask := s.cellMask d
  let chans := (List.range 16).filter fun c => mask.testBit c
  let stat := fun c => x.page.getD c ⟨0, 0, 0, 0, 0⟩
  let host := s.mode d FOL_MODENOW.TALIGN
  let first := s.stroke d - 1024
  let aux := (List.range 8).map fun n =>
    let a := x.auxSum.getD n (0, 0)
    leBytes 2 (ofSigned (if a.2 = 0 then 0 else roundDiv a.1 a.2) 16)
  let body := (chans.map fun c => pageFields (stat c)).flatten ++ pageFields (stat 17)
    ++ (chans.map fun c => leBytes 1 (stat c).flags).flatten ++ aux.flatten ++ leBytes 2 (s.get d SHD_DIFFMAX SHD_DIFFMAX.MAX)
    ++ leBytes 4 (if host then ofSigned x.hsDelta 32 else 0) ++ leBytes 2 (if host then ofSigned x.hsPhase 16 else 0)
    ++ leBytes 1 (s.get d MOD_TOPOLOGY MOD_TOPOLOGY.ALIVE) ++ [0]
  let t := s.cond (CFE_STREAMCFG.PAGE_EN.read w == 1) fun s =>
    s.offerStream d (streamHeader 3 0 (s.dieFlags d) first mask 1 0 ++ body) (ringCode (CFE_STREAMCFG.PAGE_RING.read w)) 2 first (first + 1024)
  (t.put d SHD_DIFFMAX SHD_DIFFMAX.MAX 0).updCfe d fun x => { x with
    page := List.replicate 18 ⟨0, 0, 0, 0, 0⟩, auxSum := List.replicate 8 (0, 0) }

end Chip

/-- CFE_LATCH (R65). -/
def execCfeLatch (d : Die) (chans : List ChanIn) (s : State) : Host.Outcome State Fault Refusal := s.run (Chip.cfeLatch d chans)

/-- SHD_CONVERSION (R74). -/
def execShdConversion (d : Die) (code spanCode testCode : Nat) (verdictOk : Bool) (s : State) : Host.Outcome State Fault Refusal :=
  s.run (Chip.shdConversion d code spanCode testCode verdictOk)

/-- AUX_CONVERSION (R80). -/
def execAuxConversion (d : Die) (codeA codeB : Nat) (diff : Int) (s : State) : Host.Outcome State Fault Refusal :=
  s.run (Chip.auxConversion d codeA codeB diff)

/-- STREAM_FRAME_ASSEMBLE (R85). -/
def execStreamFrameAssemble (d : Die) (s : State) : Host.Outcome State Fault Refusal := s.run (Chip.streamFrameAssemble d)

end Sys2Proof.Machine
end

