-- ==== Sys2Proof/Machine/Exact.lean ====
section
/-! DEFINITION. Exact arithmetic that the spec's formulas need: sines in fixed point, square roots, and binary64 (R131, R143). Every
function is total and structural, so that the kernel evaluates it. -/
namespace Sys2Proof.Machine

/-- The unit of the fixed-point numbers below. -/
def unit60 : Int := 2 ^ 60

/-- A quarter of a turn, π/2, in units of 2^-60. -/
def quarter60 : Int := 1811004864519280711

/-- The alternating power series of the sine (from term x, k = 1) and of the cosine (from term 1, k = 0) in units of 2^-60: each
term is the last one times −x² / ((k + 1)(k + 2)). -/
def series60 (x : Int) : Nat → Nat → Int → Int
  | 0, _, _ => 0
  | n + 1, k, t => t + series60 x n (k + 2) (-(t * x / unit60 * x / unit60) / ((k + 1) * (k + 2)))

/-- Cosine and sine of a part num / den of a turn, in units of 2^-60. -/
def cis (num den : Nat) : Int × Int :=
  let t := 4 * (num % den)
  let x : Int := (t % den : Nat) * quarter60 / den
  let c := series60 x 18 0 unit60
  let v := series60 x 18 1 x
  match t / den with
  | 0 => (c, v)
  | 1 => (-v, c)
  | 2 => (-c, -v)
  | _ => (v, -c)

/-- The product of two complex numbers, the second in units of 2^-60. -/
def cmul (a b : Int × Int) : Int × Int := ((a.1 * b.1 - a.2 * b.2) / unit60, (a.1 * b.2 + a.2 * b.1) / unit60)

/-- The sum of two complex numbers. -/
def cadd (a b : Int × Int) : Int × Int := (a.1 + b.1, a.2 + b.2)

/-- A complex number divided by one in units of 2^-60. -/
def cdiv (a b : Int × Int) : Int × Int :=
  let n := b.1 * b.1 + b.2 * b.2
  ((a.1 * b.1 + a.2 * b.2) * unit60 / n, (a.2 * b.1 - a.1 * b.2) * unit60 / n)

/-- Newton's steps towards a square root, from above. -/
def sqrtFrom (n : Nat) : Nat → Nat → Nat
  | 0, x => x
  | k + 1, x => let y := (x + n / x) / 2; if y < x then sqrtFrom n k y else x

/-- The square root of a number, rounded down. -/
def rootOf (n : Nat) : Nat := if n = 0 then 0 else sqrtFrom n 400 (2 ^ (Nat.log2 n / 2 + 1))

/-! ### Binary64 (IEEE 754, round to nearest, ties to even) -/

/-- A finite binary64 number m · 2^e. -/
structure Binary64 where
  m : Int
  e : Int
  deriving DecidableEq, Repr

/-- A quotient of a whole number and a positive one, rounded to binary64. -/
def toBinary64 (num : Int) (den : Nat) : Binary64 :=
  if num = 0 then ⟨0, 0⟩ else
  let a := num.natAbs
  let k : Int := (Nat.log2 a : Int) - Nat.log2 den - 53
  let up := fun (e : Int) => a * 2 ^ (-e).toNat
  let dn := fun (e : Int) => den * 2 ^ e.toNat
  let e := max (-1074) (if dn k * 2 ^ 53 ≤ up k then k + 1 else k)
  ⟨num.sign * roundDiv (up e) (dn e), e⟩

/-- A number m · 2^e rounded to binary64. -/
def dyadic (m e : Int) : Binary64 := toBinary64 (m * 2 ^ e.toNat) (2 ^ (-e).toNat)

namespace Binary64

/-- Product, sum and difference in binary64. -/
def mul (a b : Binary64) : Binary64 := dyadic (a.m * b.m) (a.e + b.e)
def add (a b : Binary64) : Binary64 :=
  let e := min a.e b.e
  dyadic (a.m * 2 ^ (a.e - e).toNat + b.m * 2 ^ (b.e - e).toNat) e
def sub (a b : Binary64) : Binary64 := a.add ⟨-b.m, b.e⟩

/-- A quotient by a positive number in binary64. -/
def div (a b : Binary64) : Binary64 := toBinary64 (a.m * 2 ^ (a.e - b.e).toNat) (b.m.toNat * 2 ^ (b.e - a.e).toNat)

/-- A number times a power of two compared with a whole number. -/
def leInt (a : Binary64) (n : Int) : Bool := decide (a.m * 2 ^ a.e.toNat ≤ n * 2 ^ (-a.e).toNat)
def geInt (a : Binary64) (n : Int) : Bool := decide (n * 2 ^ (-a.e).toNat ≤ a.m * 2 ^ a.e.toNat)

/-- The whole number nearest to 2^k times a number, ties to even. -/
def roundShift (a : Binary64) (k : Int) : Int := roundDiv (a.m * 2 ^ (a.e + k).toNat) (2 ^ (-(a.e + k)).toNat)

/-- The odd series of twice the inverse hyperbolic tangent of t, in units of 2^-200: 2 (t + t³/3 + …). -/
def atanh2 (t : Int) : Int :=
  2 * ((List.range 66).foldl (fun (p : Int × Int) (i : Nat) =>
    (p.1 + p.2 / (2 * i + 1), p.2 * t / 2 ^ 200 * t / 2 ^ 200)) (0, t)).1

/-- The natural logarithm of a positive number, rounded to nearest: from the fraction in [1, 2) and the power of two. -/
def ln (a : Binary64) : Binary64 :=
  let l := Nat.log2 a.m.toNat
  let p : Int := 2 ^ l
  toBinary64 (atanh2 ((a.m - p) * 2 ^ 200 / (a.m + p)) + ((l : Int) + a.e) * atanh2 (2 ^ 200 / 3)) (2 ^ 200)

/-- A binary32 word as a number; none for an infinity or a NaN. -/
def ofBinary32 (w : Nat) : Option Binary64 :=
  let x := w / 2 ^ 23 % 256
  let f : Int := w % 2 ^ 23
  let m := if x = 0 then f else f + 2 ^ 23
  if x = 255 then none else some (dyadic (if 2 ^ 31 ≤ w then -m else m) ((max 1 x : Nat) - 150))

end Binary64

/-- The core temperature of R143 in units of 1/128 °C, from a real part in units of 10 nΩ and the words of A, B and C: none where R or
tinv is not above 0 or the temperature is not within −60 to +200 °C. Each operation rounds to binary64; a coefficient that is no finite
number gives no temperature. -/
def zTempCode (r : Int) (a b c : Nat) : Option Int :=
  match Binary64.ofBinary32 a, Binary64.ofBinary32 b, Binary64.ofBinary32 c with
  | some a, some b, some c =>
    if r ≤ 0 then none else
    let x := ((toBinary64 r 100).div ⟨1000, 0⟩).ln
    let tinv := (a.add (b.mul x)).add (((c.mul x).mul x).mul x)
    if tinv.m ≤ 0 then none else
    let temp := (Binary64.div ⟨1, 0⟩ tinv).sub (toBinary64 27315 100)
    if temp.geInt (-60) && temp.leInt 200 then some (temp.roundShift 7) else none
  | _, _, _ => none

end Sys2Proof.Machine
end

