-- ==== Sys2Proof/Machine/Eis.lean ====
section
/-! DEFINITION. Impedance spectroscopy and Z-temperature: sweepers, bins, windows and their results (chapter Impedance Spectroscopy
and Z-Temperature). The FINE path's response at a frequency, which the spec does not tabulate, is a free value (assumption 7). -/
namespace Sys2Proof.Machine

/-- Twice the corner frequency of a code, in Hz (Table 03.2). -/
def corner2 (code : Nat) : Nat := [25, 50, 100, 200, 400, 800, 3200, 6400].getD code 6400

/-- The middle of a sorted list of values, the mean of two rounded half to even (R145). -/
def medianOf (l : List Int) : Option Int :=
  let q := l.mergeSort fun a b => decide (a ≤ b)
  let n := q.length
  if n = 0 then none
  else if n % 2 = 1 then some (q.getD (n / 2) 0) else some (roundDiv (q.getD (n / 2 - 1) 0 + q.getD (n / 2) 0) 2)

/-- A result joins those of the page: in order of writing, and within one stroke in channel order (R146). -/
def insertRec (l : List EisRec) (r : EisRec) : List EisRec :=
  let before := fun (o : EisRec) => o.wrote != r.wrote || decide (o.chan ≤ r.chan)
  l.reverse.dropWhile (fun o => !(before o)) |>.reverse |>.append (r :: (l.reverse.takeWhile fun o => !(before o)).reverse)

/-! ### Demodulation (R131, R132) -/

/-- One more sample of a window's stroke i: `e` is the cosine and sine of 2πKi/N. -/
def EisSum.add (a : EisSum) (i : Nat) (e : Int × Int) (x : Int) : EisSum := ⟨a.s0 + x, a.s1 + i * x, a.sc + x * e.1, a.ss + x * e.2⟩

/-- N/2 times the phasor of R131 in units of 2^-60, the least-squares line removed. The line's slope is 6 (2 Σ i·x − (N − 1) Σ x) /
(N (N² − 1)); over whole cycles Σ e^(−j2πKi/N) is 0 and Σ i·e^(−j2πKi/N) is N (−1 + j·cot(πK/N)) / 2. -/
def EisSum.phasor (a : EisSum) (k n : Nat) : Int × Int :=
  let g : Int := 3 * (2 * a.s1 - ((n : Int) - 1) * a.s0)
  let m : Int := (n : Int) * n - 1
  let h := cis k (2 * n)
  (a.sc + g * unit60 / m, -a.ss - g * unit60 * h.1 / (h.2 * m))

/-- A phasor of the converter component divided by H_C = e^(−jπfT)·sinc(fT), with fT = K/N (R131). -/
def overConverter (p : Int × Int) (k n : Nat) : Int × Int :=
  let h := cis k (2 * n)
  let q := cmul p h
  let arc : Int := 2 * quarter60 * k / n
  (q.1 * arc / h.2, q.2 * arc / h.2)

/-- A phasor of the pack component divided by H_C = e^(−j2πf·IDELAY): IDELAY counts 0.25 µs, so f·IDELAY is K·IDELAY/(125 N). -/
def overPack (p : Int × Int) (k n idelay : Nat) : Int × Int := cmul p (cis (k * idelay) (125 * n))

/-- The three numbers of a result (R132, R134): with the voltage sums and N/2 times the corrected reference current in units of 125 µA,
R and X in 10 nΩ; in host mode H_V times the current in µA. -/
def eisParts (host : Bool) (v : EisSum) (cur hv : Int × Int) (k n : Nat) : Int × Int :=
  if host then
    let z := cmul cur hv
    (roundDiv (250 * z.1) (n * unit60), roundDiv (250 * z.2) (n * unit60))
  else
    let u := cdiv (v.phasor k n) hv
    let den := cur.1 * cur.1 + cur.2 * cur.2
    (roundDiv (-800000 * (u.1 * cur.1 + u.2 * cur.2)) den, roundDiv (-800000 * (u.2 * cur.1 - u.1 * cur.2)) den)

/-- IAMP in mA, not yet saturated, from N/2 times the reference current in units of 125 µA (R132). -/
def eisAmp (cur : Int × Int) (n : Nat) : Nat := (roundDiv (rootOf (4 * (cur.1 * cur.1 + cur.2 * cur.2)).toNat) (8 * n * unit60)).toNat

/-- The reference current's amplitude is below 1 mA (Table 05.3). -/
def eisZero (cur : Int × Int) (n : Nat) : Bool := decide (4 * (cur.1 * cur.1 + cur.2 * cur.2) < (8 * n * unit60) ^ 2)

namespace Chip

/-- The impedance structure of a die changed. -/
def updEis (s : Chip) (d : Die) (f : EisX → EisX) : Chip := s.upd d fun x => { x with eis := f x.eis }

/-- A sweeper. -/
def sweep (s : Chip) (d : Die) (n : Nat) : SweepX := (s.die d).eis.sweeps.getD n SweepX.reset

/-- A sweeper changed. -/
def updSweep (s : Chip) (d : Die) (n : Nat) (f : SweepX → SweepX) : Chip :=
  s.updEis d fun x => { x with sweeps := x.sweeps.set n (f (s.sweep d n)) }

/-- State, plan, cell and bin of a sweeper (Table 05.11). -/
def swState (s : Chip) (d : Die) (n : Nat) : Nat := s.get d (EIS_STATUS n) EIS_STATUS.STATE
def swPlan (s : Chip) (d : Die) (n : Nat) : Nat := s.get d (EIS_STATUS n) EIS_STATUS.PLAN
def swCell (s : Chip) (d : Die) (n : Nat) : Nat := s.get d (EIS_STATUS n) EIS_STATUS.CELL
def swBin (s : Chip) (d : Die) (n : Nat) : Nat := s.get d (EIS_STATUS n) EIS_STATUS.BIN

/-- A sweeper's state set. -/
def setSw (s : Chip) (d : Die) (n st : Nat) : Chip := s.put d (EIS_STATUS n) EIS_STATUS.STATE st

/-- N, K, AMP and SETTLE of a bin (R121). -/
def binN (s : Chip) (d : Die) (p b : Nat) : Nat := s.get d (EIS_BIN_W0 p b) EIS_BIN_W0.N
def binK (s : Chip) (d : Die) (p b : Nat) : Nat := s.get d (EIS_BIN_W1 p b) EIS_BIN_W1.K
def binAmp (s : Chip) (d : Die) (p b : Nat) : Nat := s.get d (EIS_BIN_W1 p b) EIS_BIN_W1.AMP
def binSettle (s : Chip) (d : Die) (p b : Nat) : Nat := s.get d (EIS_BIN_W1 p b) EIS_BIN_W1.SETTLE

/-- A plan is passive; the number of its bins; its rest in strokes. -/
def planPassive (s : Chip) (d : Die) (p : Nat) : Bool := s.bit d (EIS_PLAN_HDR0 p) EIS_PLAN_HDR0.MODE
def planBins (s : Chip) (d : Die) (p : Nat) : Nat := s.get d (EIS_PLAN_HDR0 p) EIS_PLAN_HDR0.NBINS_M1 + 1
def planRest (s : Chip) (d : Die) (p : Nat) : Nat := 4 * s.get d (EIS_PLAN_HDR0 p) EIS_PLAN_HDR0.REST

/-- A sweeper runs plan p (R124). -/
def planBusy (s : Chip) (d : Die) (p : Nat) : Bool := [0, 1, 2].any fun n => s.swState d n != 0 && s.swPlan d n == p

/-! ### Start and refusal (R122, R123) -/

/-- A bin passes the checks of R122. -/
def binOk (s : Chip) (d : Die) (p b : Nat) : Bool :=
  let n := s.binN d p b
  let k := s.binK d p b
  k != 0 && decide (16 * k ≤ n) && decide (n ≤ 320000 * k)
    && (s.planPassive d p || (decide (50 ≤ s.binAmp d p b) && decide (s.binAmp d p b ≤ 1000)))

/-- Cells a and b are the same or adjacent. -/
def near (a b : Nat) : Bool := decide (a ≤ b + 1) && decide (b ≤ a + 1)

/-- Table 05.1: the status and LASTERR of a refused start. -/
def sweepRefusal (s : Chip) (d : Die) (sw p cell : Nat) : Option (Nat × Nat) :=
  let active := decide (sw < 2)
  let badBin := (List.range (s.planBins d p)).any fun b => !(s.binOk d p b)
  let other := 1 - sw
  if badBin || decide (2 < sw) || (active == s.planPassive d p) then some (0x10, 2)
  else if active && decide (s.cells d ≤ cell) then some (0x10, 2)
  else if s.swState d sw != 0 then some (0x12, 3)
  else if active && s.sharedRules d && ((s.selected d other).any (near cell) || (s.swState d other != 0 && near cell (s.swCell d other))) then
    some (0x12, 4)
  else if active && s.cellInvalid d cell then some (0x12, 5)
  else if active && (s.bit d CXS_STATUS CXS_STATUS.THOLD || s.bit d CXS_STATUS CXS_STATUS.CUT) then some (0x12, 7)
  else if active && s.isSafe d then some (0x12, 8)
  else none

/-- What a refused start records (R123, R154): LASTERR of its sweeper, and the reason in CXS_SELn.REFUSE of the sweeper's channel: 3 an
INVALID cell, 2 a cell that the other channel selects, 1 an adjacent one. -/
def sweepNotes (s : Chip) (d : Die) (sw p cell : Nat) : List (Nat × Fld × Nat) :=
  match s.sweepRefusal d sw p cell with
  | none => []
  | some (_, err) =>
    if 2 < sw then [] else
      (EIS_STATUS sw, EIS_STATUS.LASTERR, err) ::
        (if err = 5 then [(CXS_SEL sw, CXS_SEL.REFUSE, 3)]
         else if err = 4 then [(CXS_SEL sw, CXS_SEL.REFUSE, if s.selected d (1 - sw) = some cell then 2 else 1)] else [])

/-- Notes taken: fields and their values. -/
def takeNotes (s : Chip) (d : Die) (l : List (Nat × Fld × Nat)) : Chip := s.each l fun n s => s.put d n.1 n.2.1 n.2.2

/-- A start, or its refusal recorded in LASTERR (R123, R139): with PRIO = 1 a transfer on the channel ramps to zero. -/
def sweepGo (s : Chip) (d : Die) (sw p cell passes : Nat) : Chip :=
  match s.sweepRefusal d sw p cell with
  | some _ => s.takeNotes d (s.sweepNotes d sw p cell)
  | none =>
    let w : Word := BitVec.ofNat 32 (1 + 8 * p + 32 * (if sw = 2 then 0 else cell))
    let t := (s.setReg d (EIS_STATUS sw) w).updSweep d sw fun _ =>
      { SweepX.reset with passes := if passes = 0 then none else some passes }
    t.cond (decide (sw < 2) && s.bit d EIS_SCHED ⟨sw, 1⟩) fun s => s.releaseChan d sw

/-- A STOP acts at the next stroke edge (Table 05.5). -/
def sweepStop (s : Chip) (d : Die) (sw : Nat) : Chip :=
  s.each ([0, 1, 2].filter fun n => (n == sw || sw == 3) && s.swState d n != 0) fun n s =>
    s.updSweep d n fun x => { x with stopDue := true }

/-- A write of EIS_CMD: STOP takes precedence over GO (Table 05.9). -/
def writeEisCmd (s : Chip) (d : Die) (w : Word) : Chip :=
  let sw := EIS_CMD.SWEEPER.read w
  if EIS_CMD.STOP.read w = 1 then s.sweepStop d sw
  else if EIS_CMD.GO.read w = 1 then s.sweepGo d sw (EIS_CMD.PLAN.read w) (EIS_CMD.CELL.read w) (EIS_CMD.PASSES.read w)
  else s

/-! ### Z-temperature (R143 to R145) -/

/-- The reference of the cross-check for a channel (R145). -/
def nibMedian (s : Chip) (d : Die) (c : Nat) : Option Int :=
  let age := s.get d EIS_ZT_CFG EIS_ZT_CFG.NIB_AGE
  let es := (s.rosterEntries d).filter fun e =>
    s.get d (MOD_NIB_ENTRY e) MOD_NIB_ENTRY.STATE == 2 && s.get d (MOD_NIB_ENTRY e) MOD_NIB_ENTRY.ASSOC == 16 * d.val + c + 1
      && !(s.bit d (MOD_NIB_ENTRY e) MOD_NIB_ENTRY.EXCL) && s.get d (MOD_NIB_VALUE e) MOD_NIB_VALUE.TEMP != 0x8000
      && decide (s.get d (MOD_NIB_VALUE e) MOD_NIB_VALUE.AGE ≤ age)
  medianOf (es.map fun e => s.getI d (MOD_NIB_VALUE e) MOD_NIB_VALUE.TEMP)

/-- DEV or NOREF of a channel, in EIS_ZT_DEV and in EIS_ZTEMP. -/
def setDev (s : Chip) (d : Die) (c : Nat) (b : Bool) : Chip :=
  (s.putB d EIS_ZT_DEV ⟨c, 1⟩ b).putB d (EIS_ZTEMP c) EIS_ZTEMP.DEV b
def setNoRef (s : Chip) (d : Die) (c : Nat) (b : Bool) : Chip :=
  (s.putB d EIS_ZT_DEV ⟨16 + c, 1⟩ b).putB d (EIS_ZTEMP c) EIS_ZTEMP.NOREF b

/-- The three coefficients of a channel are 0. -/
def noModel (s : Chip) (d : Die) (c : Nat) : Bool := s.reg d (EIS_ZTA c) == 0 && s.reg d (EIS_ZTB c) == 0 && s.reg d (EIS_ZTC c) == 0

/-- Z_TEMP_UPDATE, ZT_CROSS_CHECK and Z_OVERTEMP (R143 to R145, R333) from the real part in 10 nΩ. An update without a model keeps AGE, as
one out of range does (DESIGN CHOICE, assumption 165). -/
def zUpdate (s : Chip) (d : Die) (c : Nat) (r : Int) : Chip :=
  if s.noModel d c then (s.put d (EIS_ZTEMP c) EIS_ZTEMP.TEMP 0x8000).put d (EIS_ZTEMP c) EIS_ZTEMP.NOMODEL 1 else
  match zTempCode r (s.reg d (EIS_ZTA c)).toNat (s.reg d (EIS_ZTB c)).toNat (s.reg d (EIS_ZTC c)).toNat with
  | none => ((s.put d (EIS_ZTEMP c) EIS_ZTEMP.TEMP 0x8000).put d (EIS_ZTEMP c) EIS_ZTEMP.RANGE 1).put d (EIS_ZTEMP c) EIS_ZTEMP.NOMODEL 0
  | some code =>
    let t := ((((s.putI d (EIS_ZTEMP c) EIS_ZTEMP.TEMP code).put d (EIS_ZTEMP c) EIS_ZTEMP.AGE 0).put d (EIS_ZTEMP c)
      EIS_ZTEMP.RANGE 0).put d (EIS_ZTEMP c) EIS_ZTEMP.NOMODEL 0)
    let u := match s.nibMedian d c with
      | none => t.setNoRef d c true
      | some m => (t.setNoRef d c false).setDev d c (decide (s.get d EIS_ZT_CFG EIS_ZT_CFG.LIM * 32 < (code - m).natAbs))
    if u.bit d (EIS_ZTEMP c) EIS_ZTEMP.DEV then u else u.zTempUpdate d c code

/-! ### Results (R131 to R137) -/

/-- A result written (Table 05.15), noted for the page's summary; `stop` is the last window stroke where a window opened. -/
def writeResult (s : Chip) (d : Die) (c p b : Nat) (passive : Bool) (r x : Word) (iamp status flags : Nat) (stop : Option Nat) : Chip :=
  let t := ((s.setReg d (EIS_RES_R c p b) r).setReg d (EIS_RES_X c p b) x).setReg d (EIS_RES_INFO c p b)
    (BitVec.ofNat 32 (iamp + 65536 * status + 16777216 * flags))
  let t := match stop with
    | some e => t.setReg d (EIS_RES_END c p b) (BitVec.ofNat 32 e)
    | none => t
  t.updEis d fun e => { e with
    results := insertRec e.results ⟨c, p, passive, b, r, x, iamp, status, flags, (t.reg d (EIS_RES_END c p b)).toNat, s.stroke d⟩ }

/-- A bin's result without a value (R135). -/
def writeNone (s : Chip) (d : Die) (c p b : Nat) (passive : Bool) (status : Nat) (stop : Option Nat) : Chip :=
  s.writeResult d c p b passive 0x80000000#32 0x80000000#32 0 status 0 stop

/-- A frequency K/N that is not measured (R133). -/
def cornered (s : Chip) (d : Die) (k n : Nat) : Bool :=
  let x := (s.die d).cfe
  decide (7 * corner2 x.fineNow * n < 640000 * k)
    || (x.notchNow && decide (20 * ((128000 * k : Int) - x.centre * n).natAbs ≤ x.centre * n))

/-- The flag byte of a result (Table 05.4). -/
def resultFlags (w : WinX) (fl iamp mini : Nat) : Nat :=
  flagIf (fl.testBit 2) 0 + flagIf w.cross 1 + flagIf (decide (iamp < mini)) 2 + flagIf (fl.testBit 5) 3 + flagIf (fl.testBit 1) 4

/-- The status of a finished window for a channel; the lowest code that applies (Table 05.3). -/
def windowStatus (s : Chip) (d : Die) (w : WinX) (fl : Nat) (zero : Bool) : Nat :=
  if fl.testBit 0 || fl.testBit 3 || fl.testBit 4 || fl.testBit 6 then 2
  else if (w.passive || w.addpack) && w.nocur then 3
  else if w.time then 4
  else if w.supply then 5
  else if s.cornered d w.k w.n then 9
  else if zero then 0xA
  else if w.host then 0xC else 1

/-- N/2 times the reference current of a window (R128, R129, R131) in units of 125 µA. -/
def windowCurrent (w : WinX) : Int × Int :=
  let conv := if w.passive then (0, 0) else overConverter (w.conv.phasor w.k w.n) w.k w.n
  let pack := if w.passive || w.addpack then overPack (w.pack.phasor w.k w.n) w.k w.n w.idelay else (0, 0)
  cadd conv pack

/-- H_V of a bin: the FINE path's response at the die's present corner code and notch (R131). Without the notch its phase is that of the
group delay of Table 03.2, which is constant (R66). Its gain keeps within 0.01 dB up to half the corner (R66) and, with the notch, within
0.05 dB more below half the centre (R68); it is free elsewhere (assumption 7). -/
def fineResponse (s : Chip) (d : Die) (k n : Nat) : Int × Int :=
  let x := (s.die d).cfe
  let r := Config.fineResponse x.fineNow (if x.notchNow then x.centre else 0) k n
  let held := fun (lo hi : Int) => max (unit60 * lo / 1000000) (min (unit60 * hi / 1000000) r.1)
  let gain := if corner2 x.fineNow * n < 128000 * k then r.1
    else if !x.notchNow then held 998849 1001152
    else if 256000 * k < x.centre * n then held 993116 1006932 else r.1
  let lag := cis (k * settleStrokes x.fineNow) (2 * n)
  let turn := if x.notchNow then cis (r.2 % 65536) 65536 else (unit60, 0)
  let p := cmul (lag.1, -lag.2) turn
  (gain * p.1 / unit60, gain * p.2 / unit60)

/-- EIS_BIN_RESULT (R131 to R136) for channel c of a finished window, the i-th of its cells. -/
def finishCell (s : Chip) (d : Die) (w : WinX) (i c : Nat) : Chip :=
  let n := w.n
  let k := w.k
  let cur := windowCurrent w
  let iamp := min 65535 (eisAmp cur n)
  let lim : Int := 0x7FFFFFFF
  let z := eisParts w.host (w.volts.getD i EisSum.zero) cur (s.fineResponse d k n) k n
  let r := max (-lim) (min lim z.1)
  let x := max (-lim) (min lim z.2)
  let fl := w.flags.getD c 0
  let st := s.windowStatus d w fl (eisZero cur n)
  let flags := if st = 1 then resultFlags w fl iamp w.minI else 0
  let good := st == 1 || st == 0xC
  let t := s.writeResult d c w.plan w.bin w.passive (if good then BitVec.ofInt 32 r else 0x80000000#32)
    (if good then BitVec.ofInt 32 x else 0x80000000#32) iamp st flags (some (w.ends - 1))
  let z := st == 1 && flags % 8 == 0 && s.bit d EIS_ZT_CFG EIS_ZT_CFG.EN && s.get d EIS_ZT_CFG EIS_ZT_CFG.PLAN == w.plan
    && s.get d EIS_ZT_CFG EIS_ZT_CFG.BIN == w.bin
  if z then t.zUpdate d c r else t

/-- The windows of a die. -/
def setWins (s : Chip) (d : Die) (l : List WinX) : Chip := s.updEis d fun x => { x with wins := l }

/-- The correlator takes stroke x into a window (R128 to R131, R135): the FINE samples and the reference current of that stroke. -/
def correlate (s : Chip) (d : Die) (x : Nat) (h : Option EisHist) (w : WinX) : WinX :=
  if x < w.opens ∨ w.ends ≤ x then w else
  match h with
  | none => { w with time := true, next := x + 1 }
  | some h =>
    let i := x - w.opens
    let e := cis (w.k * i) w.n
    let cur := ((s.die d).eis.pack.find? (·.1 == x % 2 ^ 48)).bind (·.2)
    let packed := w.passive || w.addpack
    { w with
      next := x + 1
      flags := (List.range 16).map fun c => w.flags.getD c 0 ||| h.flags.getD c 8
      nocur := w.nocur || cur.isNone
      time := w.time || w.next != x || (packed && !h.locked)
      supply := w.supply || h.degraded
      volts := (w.cells.zip w.volts).map fun v => v.2.add i e (h.fine.getD v.1 0)
      conv := w.conv.add i e (h.icell.getD w.sw 0 - h.ispan)
      pack := w.pack.add i e (8 * cur.getD 0) }

/-! ### The sine and the channel (R125, R199) -/

/-- The generator of slot n. -/
def updGen (s : Chip) (d : Die) (n : Nat) (f : GenX → GenX) : Chip :=
  s.updEng d fun e => { e with gens := e.gens.set n (f (e.gens.getD n GenX.reset)) }

/-- A bin on cell k holds the duty of cell c (R127): of cell k itself, and in Shared wiring of its neighbours. -/
def binHolds (s : Chip) (d : Die) (k c : Nat) : Bool := c == k || (s.shared d && near c k)

/-- The sine of a sweeper stops; duties held for its bin are free again (R125, R127). -/
def sineOff (s : Chip) (d : Die) (n : Nat) : Chip :=
  let others := [0, 1].filter fun o => o != n && (s.sweep d o).running
  (((s.updGen d n fun g => { g with sweep := false }).put d (INJ_STAT n) INJ_STAT.OUT 0).put d (INJ_STAT n) INJ_STAT.RUNNING 0).updCxs d
    fun x => { x with holdDuty := x.holdDuty.filter fun h => others.any fun o => s.binHolds d (s.swCell d o) h.1 }

/-- The generator goes back to the host, and the channel is released (R199, Table 05.2). -/
def dropChannel (s : Chip) (d : Die) (n : Nat) : Chip :=
  if !((s.sweep d n).held) then s else
  let t := (s.sineOff d n).updSweep d n fun x => { x with held := false }
  ((t.put d (INJ_STAT n) INJ_STAT.OWNER 0).put d (INJ_CFG n) INJ_CFG.MODE 0).releaseChan d n

/-- A sweeper's windows that are still open are given up, each result written with a status. -/
def closeWins (s : Chip) (d : Die) (n status : Nat) : Chip :=
  let mine := (s.die d).eis.wins.filter fun w => w.sw == n && decide (s.stroke d < w.ends)
  let t := s.setWins d ((s.die d).eis.wins.filter fun w => !(w.sw == n && decide (s.stroke d < w.ends)))
  t.each mine fun w s => s.each w.cells fun c s => s.writeNone d c w.plan w.bin w.passive status (some (w.ends - 1))

/-- The bin after the present one, in the present pass or the next; none after the last; and whether a pass ends. -/
def nextBin (s : Chip) (d : Die) (n : Nat) : Option Nat × Bool :=
  let b := s.swBin d n
  if b + 1 < s.planBins d (s.swPlan d n) then (some (b + 1), false)
  else if (s.sweep d n).passes = some 1 then (none, true) else (some 0, true)

/-- The strokes that a sweeper rests after its bin: none after the last bin, whose channel is released at the next line boundary
(Table 05.2). -/
def restStrokes (s : Chip) (d : Die) (n : Nat) : Nat := if (s.nextBin d n).1.isNone then 0 else s.planRest d (s.swPlan d n)

/-- The bin that a sweeper runs ends with a status before its window ends: its result is written, and the sweeper rests. -/
def endBin (s : Chip) (d : Die) (n status : Nat) : Chip :=
  if !((s.sweep d n).running) then s else
  let open_ := (s.die d).eis.wins.any fun w => w.sw == n && decide (s.stroke d < w.ends)
  let t := if open_ then s.closeWins d n status
    else if s.swState d n == 2 then s.writeNone d (s.swCell d n) (s.swPlan d n) (s.swBin d n) false status none else s
  let t := if n < 2 then t.sineOff d n else t
  (t.updSweep d n fun x => { x with running := false, restAt := s.stroke d + s.restStrokes d n }).setSw d n 4

/-- A sweeper ends (Table 05.5): a running bin with a status, then IDLE with LASTERR. -/
def stopSweep (s : Chip) (d : Die) (n status err : Nat) : Chip :=
  if s.swState d n = 0 then s else
  let t := s.endBin d n status
  let t := if n < 2 then t.dropChannel d n else t
  ((t.updSweep d n fun x => { x with running := false, stopDue := false, waited := 0 }).setSw d n 0).put d (EIS_STATUS n)
    EIS_STATUS.LASTERR err

/-- Both active sweepers end (Table 05.5). -/
def stopActive (s : Chip) (d : Die) (err : Nat) : Chip := (s.stopSweep d 0 6 err).stopSweep d 1 6 err

/-! ### A bin (R125 to R130) -/

/-- Two frequencies K/N lie within ±10% of each other. -/
def closeTo (k1 n1 k2 n2 : Nat) : Bool :=
  decide (10 * ((k1 * n2 : Int) - k2 * n1).natAbs ≤ max (k1 * n2) (k2 * n1))

/-- The window of a bin opens (R125, R129): with the other active sweeper integrating near its frequency both carry CROSS. -/
def openWindow (s : Chip) (d : Die) (n : Nat) : Chip :=
  let p := s.swPlan d n
  let b := s.swBin d n
  let x := s.sweep d n
  let isCross := fun (w : WinX) => decide (n < 2) && decide (w.sw < 2) && w.sw != n && decide (s.stroke d < w.ends)
    && closeTo (s.binK d p b) (s.binN d p b) w.k w.n
  let wins := (s.die d).eis.wins
  let cells := if n = 2 then List.range (min 16 (s.cells d)) else [s.swCell d n]
  let w : WinX := ⟨n, p, b, cells, n == 2,
    s.bit d (EIS_PLAN_HDR0 p) EIS_PLAN_HDR0.ADDPACK, x.host, s.binN d p b, s.binK d p b,
    s.get d (EIS_PLAN_HDR0 p) EIS_PLAN_HDR0.MIN_I, s.get d (EIS_PLAN_HDR1 p) EIS_PLAN_HDR1.IDELAY, x.opens, x.ends, x.opens, List.replicate 16 0, false, false, false,
    wins.any isCross, cells.map fun _ => EisSum.zero, EisSum.zero, EisSum.zero⟩
  (s.setWins d (wins.map (fun v => if isCross v then { v with cross := true } else v) ++ [w])).setSw d n 3

/-- The bleed duties held while a bin runs on cell k (R127). -/
def heldDuties (s : Chip) (d : Die) (k : Nat) : List (Nat × Nat) :=
  ((List.range 16).filter (s.binHolds d k)).map fun c => (c, (s.die d).cxs.applied.getD c 0)

/-- 2π·f·AMP exceeds the di/dt limit of the channel (R126). -/
def tooSteep (s : Chip) (d : Die) (n p b : Nat) : Bool :=
  decide (10 ^ 16 * max 1 (s.get d (PGEN_LIM n) PGEN_LIM.DIDT) * s.binN d p b
    < 64 * 3141592653589793 * s.binK d p b * s.binAmp d p b)

/-- A bin starts at line boundary L (R125, R126, R129): an active one with its sine, unless it exceeds a limit; a passive one
opens its window. -/
def startBin (s : Chip) (d : Die) (n : Nat) : Chip :=
  let p := s.swPlan d n
  let b := s.swBin d n
  let l := s.stroke d
  let nn := s.binN d p b
  let k := s.binK d p b
  let host := s.mode d FOL_MODENOW.EISDEM
  if n = 2 then
    (s.updSweep d 2 fun x => { x with running := true, lineAt := l, opens := l, ends := l + nn, host := host }).openWindow d 2
  else
    let rest := fun (s : Chip) => (s.updSweep d n fun x => { x with running := false, restAt := l + s.restStrokes d n }).setSw d n 4
    if s.presentLimit d n < 8 * s.binAmp d p b then rest (s.writeNone d (s.swCell d n) p b false 7 none)
    else if s.tooSteep d n p b then rest (s.writeNone d (s.swCell d n) p b false 8 none)
    else
      let opens := l + (s.binSettle d p b * nn + k - 1) / k
      let t := s.updSweep d n fun x => { x with running := true, lineAt := l, opens := opens, ends := opens + nn, host := host }
      let t := (t.updGen d n fun g => { g with sweep := true, k := k, n := nn, m := 1 }).put d (INJ_AMP n) INJ_AMP.AMP (8 * s.binAmp d p b)
      let hold := (s.heldDuties d (s.swCell d n)).filter fun h => !((s.die d).cxs.holdDuty.any (·.1 == h.1))
      (((t.put d (INJ_STAT n) INJ_STAT.OUT 0).put d (INJ_STAT n) INJ_STAT.RUNNING 1).updCxs d fun x => { x with holdDuty := x.holdDuty ++ hold }).setSw d n 2

/-- EIS_CHANNEL_GRANT (R139, R140, R154, R199, Table 05.2): the generator is taken from a host waveform, one that runs or one whose GO
has not yet acted; a selection that a rule stops leaves its reason in REFUSE. -/
def eisChannelGrant (d : Die) (n : Nat) (s : Chip) : Chip :=
  if !(s.runsOn d 3 && s.lineStroke d == 0) then s else
  match s.sweepTakes d n with
  | none => s
  | some k =>
  match s.refusal d n k with
  | some why => s.put d (CXS_SEL n) CXS_SEL.REFUSE why
  | none =>
  let ran := s.bit d (INJ_STAT n) INJ_STAT.RUNNING
  let t := ((s.updGen d n fun _ => GenX.reset).put d (INJ_STAT n) INJ_STAT.OUT 0).select d n k 3 0
  let t := t.updSweep d n fun x => { x with held := true, waited := 0 }
  let t := ((t.put d (INJ_STAT n) INJ_STAT.RUNNING 0).put d (INJ_STAT n) INJ_STAT.OWNER 1).cond ran fun s =>
    s.put d (INJ_STAT n) INJ_STAT.PREEMPT 1
  ((t.put d (INJ_CFG n) INJ_CFG.MODE 4).put d (INJ_CFG n) INJ_CFG.POINT 0).startBin d n

/-- EIS_WINDOW_OPEN (R125, R129): an active bin's window opens at its n0, the passive sweeper's first one at a line boundary. -/
def eisWindowOpen (d : Die) (n : Nat) (s : Chip) : Chip :=
  if !(s.runsOn d 1) || s.degraded d then s
  else if n = 2 then (if s.swState d 2 = 1 ∧ s.lineStroke d = 0 then s.startBin d 2 else s)
  else if s.swState d n = 2 ∧ (s.sweep d n).opens ≤ s.stroke d then s.openWindow d n else s

/-- EIS_INJECTION_END (R125): at E the sine ends and the sweeper rests; after the last bin the channel is released at the next line
boundary (Table 05.2). -/
def eisInjectionEnd (d : Die) (n : Nat) (s : Chip) : Chip :=
  let x := s.sweep d n
  if s.runsOn d 3 && s.swState d n == 3 && decide (x.ends ≤ s.stroke d) then
    ((s.sineOff d n).updSweep d n fun x => { x with running := false, restAt := x.ends + s.restStrokes d n }).setSw d n 4
  else s

/-- What a sweeper does before its next bin: give the channel to a demand (R139), pause under the throttle (R327), or start it. -/
def proceed (s : Chip) (d : Die) (n : Nat) : Chip :=
  if n = 2 then s.startBin d 2
  else if !(s.bit d EIS_SCHED ⟨n, 1⟩) && (s.chan d n).want.isSome then (s.dropChannel d n).setSw d n 1
  else if s.bit d THM_STAT THM_STAT.SWPAUSE then s.setSw d n 5
  else s.startBin d n

/-- EIS_NEXT_BIN (R130, R139, Table 05.2). -/
def eisNextBin (d : Die) (n : Nat) (s : Chip) : Chip :=
  let x := s.sweep d n
  if !(s.runsOn d 1 && s.lineStroke d == 0) || s.degraded d || s.stroke d < x.restAt then s
  else if s.swState d n = 5 then (if s.bit d THM_STAT THM_STAT.SWPAUSE ∧ (s.chan d n).want.isNone then s else s.proceed d n)
  else if s.swState d n ≠ 4 then s
  else
    let nb := s.nextBin d n
    let t := s.cond nb.2 fun s => (s.inc d (EIS_STATUS n) EIS_STATUS.DONE).updSweep d n fun x => { x with passes := x.passes.map (· - 1) }
    match nb.1 with
    | some b => (t.put d (EIS_STATUS n) EIS_STATUS.BIN b).proceed d n
    | none => ((if n < 2 then t.dropChannel d n else t).setSw d n 0).put d (EIS_STATUS n) EIS_STATUS.LASTERR 0

/-- EIS_WAIT_TIMEOUT (R139). -/
def eisWaitTimeout (d : Die) (n : Nat) (s : Chip) : Chip :=
  let w := s.get d EIS_SCHED EIS_SCHED.WAIT
  if s.runsOn d 1 && s.swState d n == 1 && w != 0 && decide (w < (s.sweep d n).waited) then s.stopSweep d n 6 6 else s

/-- The sweepers at a stroke edge: STOP, a supply dip, a limit that has fallen below AMP (R126, Table 05.5), and the end of the
passive window. -/
def eisEdge (d : Die) (s : Chip) : Chip :=
  let t := s.each [0, 1, 2] fun n s => s.cond (s.sweep d n).stopDue fun s => s.stopSweep d n 6 1
  let t := t.each [0, 1, 2] fun n s => s.cond (s.degraded d && (s.sweep d n).running) fun s => s.endBin d n 5
  let t := t.each [0, 1] fun n s =>
    s.cond ((s.sweep d n).running && decide (s.presentLimit d n < 8 * s.binAmp d (s.swPlan d n) (s.swBin d n))) fun s => s.endBin d n 7
  t.cond (t.swState d 2 == 3 && decide ((t.sweep d 2).ends ≤ t.stroke d)) fun s =>
    (s.updSweep d 2 fun x => { x with running := false, restAt := x.ends + s.restStrokes d 2 }).setSw d 2 4

/-- EIS_OVERRUN (R137): the windows that hold stroke x end with OVERRUN, and their sweepers go on with the next bin. -/
def eisOverrun (s : Chip) (d : Die) (x : Nat) : Chip :=
  let hit := (s.die d).eis.wins.filter fun w => decide (w.opens ≤ x) && decide (x < w.ends)
  let t := s.setWins d ((s.die d).eis.wins.filter fun w => !(decide (w.opens ≤ x) && decide (x < w.ends)))
  let t := t.each hit fun w s =>
    let s := s.each w.cells fun c s => s.writeNone d c w.plan w.bin w.passive 0xB (some (w.ends - 1))
    s.cond ((s.sweep d w.sw).running && s.swBin d w.sw == w.bin && decide (s.stroke d < w.ends)) fun s => s.endBin d w.sw 0xB
  ((t.inc d EIS_OVR EIS_OVR.OVRCNT).put d EIS_OVR EIS_OVR.OVR 1).report d 125

/-- EIS_CORRELATE (R128, R130 to R137): the FINE samples and the currents of the stroke are kept (a channel runs while it selects a
cell), and the stroke three before is correlated. -/
def eisCorrelate (d : Die) (finished : Bool) (s : Chip) : Chip :=
  if !(s.runsOn d 1) then s else
  let m := s.stroke d
  let now : EisHist := ⟨m, (List.range 16).map fun c => s.get d (CFE_FINE c) CFE_FINE.FLAGS, s.degraded d,
    s.get d ULK_PLLSTAT ULK_PLLSTAT.STATE == 1, (List.range 16).map fun c => s.getI d (CFE_FINE c) CFE_FINE.SAMPLE,
    [0, 1].map fun n => s.getI d (CXS_I n) CXS_I.ICELL,
    (([0, 1].filter fun n => (s.selected d n).isSome).map fun n => s.getI d (CXS_I n) CXS_I.ISPAN).sum⟩
  let t := s.updEis d fun x => { x with hist := (now :: x.hist).take 4 }
  if m < 3 then t else
  let x := m - 3
  if !finished then t.eisOverrun d x else
  let h := (t.die d).eis.hist.find? (·.stroke == x)
  let wins := (t.die d).eis.wins.map fun w => t.correlate d x h w
  let done := (wins.filter fun w => decide (w.ends ≤ x + 1)).map fun w => { w with time := w.time || w.next != w.ends }
  (t.setWins d (wins.filter fun w => !(decide (w.ends ≤ x + 1)))).each done fun w s => s.each w.cells.zipIdx fun c s => s.finishCell d w c.2 c.1

/-! ### The page (R139, R144, R146) -/

/-- A record of the PAGE impedance summary (Table 05.7). -/
def recBytes (first : Nat) (r : EisRec) : List Byte :=
  leBytes 1 (r.chan + 32 * r.plan + 128 * r.passive.toNat) ++ leBytes 1 r.bin ++ leBytes 4 r.r.toNat ++ leBytes 4 r.x.toNat
    ++ leBytes 2 r.iamp ++ leBytes 1 r.status ++ leBytes 1 r.flags ++ leBytes 2 (ofSigned ((r.stop : Int) - (first % 2 ^ 32 : Nat)) 16)

/-- PAGE_IMPEDANCE_SUMMARY (R146, Table 05.6): up to four frames for the page just ended. -/
def eisSummary (d : Die) (s : Chip) : Chip :=
  let rs := (s.die d).eis.results
  let t := s.updEis d fun x => { x with results := [] }
  let w := (s.die d).cfe.streamNow
  if CFE_STREAMCFG.PAGE_EN.read w = 0 || (!(s.bit d EIS_ZT_CFG EIS_ZT_CFG.EN) && rs.isEmpty) then t else
  let first := s.stroke d - 1024
  let zs := (List.range 16).filter fun c => s.get d (EIS_ZTEMP c) EIS_ZTEMP.TEMP != 0x8000
  let cap := (498 - 2 * zs.length) / 16
  let dev := leBytes 2 (s.get d EIS_ZT_DEV EIS_ZT_DEV.DEV)
  let parts := [rs.take cap, (rs.drop cap).take 31, (rs.drop (cap + 31)).take 31, (rs.drop (cap + 62)).take 31]
  let past := decide (cap + 93 < rs.length)
  t.each ((List.range 4).zip parts) fun e s =>
    if e.1 ≠ 0 ∧ e.2 = [] then s else
    let mask := if e.1 = 0 then zs.foldl (fun m c => m + 2 ^ c) 0 else 0
    let temps := if e.1 = 0 then (zs.map fun c => leBytes 2 (s.get d (EIS_ZTEMP c) EIS_ZTEMP.TEMP)).flatten else []
    let fl := s.dieFlags d + (if e.1 = 3 && past then 8 else 0)
    s.offerStream d (streamHeader 3 2 fl first mask e.2.length 0 ++ temps ++ dev ++ (e.2.map (recBytes first)).flatten)
      (ringCode (CFE_STREAMCFG.PAGE_RING.read w)) 2 first (first + 1024)

/-- The page-scheduled part: pages waited for a channel, and the ages of the estimates. -/
def eisPage (d : Die) (s : Chip) : Chip :=
  let t := s.each [0, 1] fun n s => s.cond (s.swState d n == 1) fun s => s.updSweep d n fun x => { x with waited := x.waited + 1 }
  (t.each (List.range 16) fun c s => s.inc d (EIS_ZTEMP c) EIS_ZTEMP.AGE).eisSummary d

/-- A write of a coefficient of the Z-temperature model: NOMODEL follows (Table 05.15). EIS_ZTEMP has no field that a write changes. -/
def writeZt (s : Chip) (d : Die) (a : Nat) (w : Word) (c : Nat) : Chip :=
  if a = EIS_ZTEMP c then s else
  let t := s.setReg d a w
  t.putB d (EIS_ZTEMP c) EIS_ZTEMP.NOMODEL (t.noModel d c)

end Chip

/-- EIS_CHANNEL_GRANT (R139). -/
def execEisChannelGrant (d : Die) (n : Pair) (s : State) : Host.Outcome State Fault Refusal := s.run (Chip.eisChannelGrant d n.val)

/-- EIS_WINDOW_OPEN (R125). -/
def execEisWindowOpen (d : Die) (sw : Fin 3) (s : State) : Host.Outcome State Fault Refusal := s.run (Chip.eisWindowOpen d sw.val)

/-- EIS_INJECTION_END (R125). -/
def execEisInjectionEnd (d : Die) (n : Pair) (s : State) : Host.Outcome State Fault Refusal := s.run (Chip.eisInjectionEnd d n.val)

/-- EIS_NEXT_BIN (R130). -/
def execEisNextBin (d : Die) (sw : Fin 3) (s : State) : Host.Outcome State Fault Refusal := s.run (Chip.eisNextBin d sw.val)

/-- EIS_WAIT_TIMEOUT (R139). -/
def execEisWaitTimeout (d : Die) (n : Pair) (s : State) : Host.Outcome State Fault Refusal := s.run (Chip.eisWaitTimeout d n.val)

/-- EIS_CORRELATE (R130). -/
def execEisCorrelate (d : Die) (finished : Bool) (s : State) : Host.Outcome State Fault Refusal := s.run (Chip.eisCorrelate d finished)

/-- EIS_CMD_GO (R123). -/
def execEisCmdGo (d : Die) (sw plan cell passes : Nat) (s : State) : Host.Outcome State Fault Refusal :=
  s.run fun c => if c.on d 1 then c.sweepGo d (sw % 4) (plan % 4) (cell % 16) (passes % 256) else c

/-- EIS_CMD_STOP (R142). -/
def execEisCmdStop (d : Die) (sw : Nat) (s : State) : Host.Outcome State Fault Refusal :=
  s.run fun c => if c.on d 1 then c.sweepStop d (sw % 4) else c

end Sys2Proof.Machine
end

