-- ==== Sys2Proof/Machine/Thermal.lean ====
section
/-! DEFINITION. Junction temperature: the sensors and their checks, the junction level, the throttle, the orderly stop, THERMAL HOLD and
the cut (chapter Thermal Sensing and Reaction). -/
namespace Sys2Proof.Machine

/-- The junction sensors. -/
def sensors : List Nat := [0, 1, 2, 3, 4]

/-- +255.99 °C, LSB 1/128 °C (R322). -/
def hottest : Int := 32767

/-- The largest of a list of temperatures. -/
def maxTemp (l : List Int) : Int := l.foldl max (l.headD 0)

/-- The values in use of R322 from readings, states and the values H_i. -/
def valuesInUse (readings held : List Int) (states : List Nat) (margin : Int) : List Int :=
  let own := fun i => if states.getD i 0 = 1 then max (readings.getD i 0) (held.getD i 0) else readings.getD i 0
  sensors.map fun i =>
    if states.getD i 0 ≠ 2 then own i else
      let others := sensors.filter fun k => k != i && states.getD k 0 != 2
      if others = [] then hottest else min hottest (maxTemp (others.map own) + margin)

/-- What the level evaluation remembers (R324): level, direction (0 none, 1 up, 2 down), run and the level confirmed. -/
structure LevelEval where
  cur : Nat
  dir : Nat
  run : Nat
  ext : Nat
  deriving DecidableEq, Repr

/-- The entry threshold of a level, LSB 1/128 °C (Table 12.3). -/
def levelEntry (l : Nat) : Int := [0, 14080, 15360, 17280].getD l 0

/-- The level that a governing temperature asks for (R324): the highest entered, else the level kept by the hysteresis of 5 °C. -/
def wantedLevel (cur : Nat) (tg : Int) : Nat :=
  let up := ([1, 2, 3].filter fun l => decide (cur < l) && decide (levelEntry l ≤ tg)).foldl max cur
  if up ≠ cur then up
  else if decide (tg < levelEntry cur - 640) && cur != 0 then
    ([2, 1].find? fun l => decide (l < cur) && decide (levelEntry l - 640 ≤ tg)).getD 0
  else cur

/-- One evaluation of the level (R324). -/
def LevelEval.step (e : LevelEval) (tg : Int) : LevelEval :=
  let want := wantedLevel e.cur tg
  let n : LevelEval :=
    if e.cur < want ∧ e.dir = 1 then { e with run := e.run + 1, ext := min e.ext want }
    else if want < e.cur ∧ e.dir = 2 then { e with run := e.run + 1, ext := max e.ext want }
    else if want ≠ e.cur then { e with dir := if e.cur < want then 1 else 2, run := 1, ext := want }
    else { e with dir := 0, run := 0 }
  if n.run = 8 then ⟨n.ext, 0, 0, n.ext⟩ else n

/-- The performance-level cap and the pause of a throttle depth (Table 12.4). -/
def depthCap (depth : Nat) : Nat := if depth ≤ 6 then 3 else if depth = 7 then 2 else if depth = 8 then 1 else 0
def depthPause (depth : Nat) : Nat := if depth = 10 then 1 else 0

namespace Chip

/-! ### The throttle (R326 to R328) -/

/-- DEPTH, cap and pause in force: by depth, or the host's. -/
def showThrottle (s : Chip) (d : Die) (depth : Nat) : Chip :=
  let host := s.mode d FOL_MODENOW.THROT
  let dep := if host then 0 else depth
  let cap := if host then s.get d THM_HOSTLIM THM_HOSTLIM.PLCAP else depthCap dep
  let pause := if host then s.get d THM_HOSTLIM THM_HOSTLIM.SWPAUSE else depthPause dep
  ((s.put d THM_STAT THM_STAT.DEPTH dep).put d THM_STAT THM_STAT.PLCAP cap).put d THM_STAT THM_STAT.SWPAUSE pause

/-- THROTTLE_DEPTH_STEP (R326) at a page boundary. -/
def depthStep (s : Chip) (d : Die) : Chip :=
  let depth := s.get d THM_STAT THM_STAT.DEPTH
  let hot := decide (15360 ≤ s.getI d THM_STAT THM_STAT.TG)
  let level := s.get d THM_STAT THM_STAT.LEVEL
  let dst := if 2 ≤ level then (if hot then min 10 (depth + 1) else depth) else depth - 1
  let pages := min 15 ((s.die d).thm.sinceDepth + 1)
  let move := dst != depth && decide (max 1 (s.get d THM_CFG THM_CFG.STEP) ≤ pages) && !(s.mode d FOL_MODENOW.THROT)
  if move then (s.updThm d fun x => { x with sinceDepth := 0 }).showThrottle d dst
  else (s.updThm d fun x => { x with sinceDepth := pages }).showThrottle d depth

/-- The hand-over of the throttle into host-assisted mode (R328): the limit, cap and pause in force become the host's. -/
def throttleToHost (s : Chip) (d : Die) (limit : Nat) : Chip :=
  ((s.put d THM_HOSTLIM THM_HOSTLIM.ILIM limit).put d THM_HOSTLIM THM_HOSTLIM.PLCAP (s.get d THM_STAT THM_STAT.PLCAP)).put d
    THM_HOSTLIM THM_HOSTLIM.SWPAUSE (s.get d THM_STAT THM_STAT.SWPAUSE)

/-- The depth at the switch back to automatic (R328): the smallest whose three effects restrict at least as much; the last where
none does. -/
def depthAtLeast (s : Chip) (d : Die) : Nat :=
  let lim := s.get d THM_HOSTLIM THM_HOSTLIM.ILIM
  let cap := s.get d THM_HOSTLIM THM_HOSTLIM.PLCAP
  let pause := s.get d THM_HOSTLIM THM_HOSTLIM.SWPAUSE
  ((List.range 11).find? fun k =>
    decide (s.depthLimit d k ≤ lim) && decide (depthCap k ≤ cap) && decide (pause ≤ depthPause k)).getD 10

/-! ### Stops (R329 to R331) -/

/-- The hottest of some sensors by value in use, the lowest of equals. -/
def hottestOf (s : Chip) (d : Die) (among : List Nat) : Nat :=
  let vs := among.map fun i => s.getI d (THM_SENS i) THM_SENS.INUSE
  (among.find? fun i => s.getI d (THM_SENS i) THM_SENS.INUSE == maxTemp vs).getD 0

/-- The sensor that a stop names: the hottest of the five; at a cut, the hottest of those whose unmasked comparator is tripped
(DEDUCED: the values in use are older than the trip). -/
def hottestSensor (s : Chip) (d : Die) (cut : Bool) : Nat :=
  s.hottestOf d (if cut then sensors.filter fun i => (s.die d).thm.cuts.contains i &&
    !((s.get d THM_CFG THM_CFG.CUTMASK).testBit i) else sensors)

/-- The record of a stop or a cut (Table 12.12). -/
def stopRecord (s : Chip) (d : Die) (sensor : Nat) (cut sense : Bool) : Chip :=
  let w := BitVec.ofNat 32 (sensor + 8 * cut.toNat + 16 * sense.toNat + 65536 * s.get d THM_STAT THM_STAT.TG)
  (s.setReg d THM_STOPREC w).put d THM_STOPAT THM_STOPAT.AT (s.stroke d)

/-- An orderly stop begins (R329): its actions take effect at the next stroke edge; in a hold, a stop or a cut only the record is
rewritten. -/
def orderlyStop (s : Chip) (d : Die) (sense : Bool) : Chip :=
  let inHold := s.bit d THM_STAT THM_STAT.HOLD || s.bit d CXS_STATUS CXS_STATUS.CUT
  let t := s.stopRecord d (s.hottestSensor d false) (inHold && s.bit d THM_STOPREC THM_STOPREC.CUT) sense
  if inHold || s.bit d CXS_STATUS CXS_STATUS.THOLD then t else t.updThm d fun x => { x with stopDue := true }

/-- The orderly stop at the stroke edge (Table 12.5). -/
def orderlyStopEdge (d : Die) (s : Chip) : Chip :=
  if !((s.die d).thm.stopDue) then s else
  let t := (s.updThm d fun x => { x with stopDue := false }).put d CXS_STATUS CXS_STATUS.THOLD 1
  (t.stopRamps d (some 2)).stopActive d 7

/-- The comparators that are tripped and not masked. -/
def cutNow (s : Chip) (d : Die) : Bool :=
  (s.die d).thm.cuts.any fun i => !((s.get d THM_CFG THM_CFG.CUTMASK).testBit i)

/-- CUT follows the comparators and the mask; where it rises, the cut acts at once (R331). -/
def refreshCut (s : Chip) (d : Die) : Chip :=
  let now := s.cutNow d
  let was := s.bit d THM_STAT THM_STAT.CUT
  let t := s.putB d THM_STAT THM_STAT.CUT now
  if now && !was then
    let u := (t.put d THM_STAT THM_STAT.CUTSEEN 1).stopRecord d (t.hottestSensor d true) true false
    ((u.stageCut d).stopActive d 7).upd d fun x =>
      { x with cxs := { x.cxs with holdDue := true, holdClr := false }, thm := { x.thm with stopDue := false } }
  else t

/-- The first condition of R330 that is not met: 1 level, 2 cut, 3 sensing. -/
def holdBlocker (s : Chip) (d : Die) : Option Nat :=
  if 2 < s.get d THM_STAT THM_STAT.LEVEL then some 1
  else if s.bit d THM_STAT THM_STAT.CUT then some 2
  else if 2 < s.excludedSensors d then some 3
  else none

/-- A write of HOLDCLR (R330): accepted, it acts at the next line boundary. -/
def clearHold (s : Chip) (d : Die) : Chip :=
  if (s.holdBlocker d).isSome || !(s.bit d THM_STAT THM_STAT.HOLD) then s
  else s.updCxs d fun x => { x with holdClr := true }

/-- A write of THM_CFG that masks the comparator of a sensor that is not EXCLUDED (R325). -/
def cutmaskRefused (s : Chip) (d : Die) (w : Word) : Bool :=
  sensors.any fun i => (THM_CFG.CUTMASK.read w).testBit i && s.get d (THM_SEST i) THM_SEST.STATE != 2

/-- A write of THM_CFG (R325): refused as a whole, or taken with its mask. -/
def writeThmCfg (s : Chip) (d : Die) (w : Word) : Chip :=
  if s.cutmaskRefused d w then s else (s.setReg d THM_CFG (w &&& 0x001F0FFF)).refreshCut d

/-- A write of 1 to THM_SESTi.EXCL (R321). -/
def clearExcl (s : Chip) (d : Die) (i : Nat) : Chip :=
  if s.get d (THM_SEST i) THM_SEST.STATE ≠ 2 then s
  else s.updThm d fun x => { x with exclClr := i :: x.exclClr.filter (· != i) }

/-! ### The sensors (R320 to R322) -/

/-- The state of a sensor, with EXCL. -/
def setSensor (s : Chip) (d : Die) (i st : Nat) : Chip :=
  (s.put d (THM_SEST i) THM_SEST.STATE st).putB d (THM_SEST i) THM_SEST.EXCL (st == 2)

/-- The states of the sensors. -/
def sensorStates (s : Chip) (d : Die) : List Nat := sensors.map fun i => s.get d (THM_SEST i) THM_SEST.STATE

/-- The values in use of the readings as they stand. -/
def inUseNow (s : Chip) (d : Die) : List Int :=
  valuesInUse (sensors.map fun i => s.getI d (THM_SENS i) THM_SENS.READING) (s.die d).thm.lastGood (s.sensorStates d)
    (s.get d THM_XCHK THM_XCHK.MARGIN * 32)

/-- The values in use shown. -/
def showInUse (s : Chip) (d : Die) : Chip :=
  let vs := s.inUseNow d
  s.each sensors fun i s => s.putI d (THM_SENS i) THM_SENS.INUSE (vs.getD i 0)

/-- The numerator of est_i over n × 10^9, LSB 1/128 °C, and n (R320). -/
def estimate (s : Chip) (d : Die) (i : Nat) (use : List Int) (states : List Nat) (coreMW : Nat) : Int × Int :=
  let others := sensors.filter fun k => k != i && states.getD k 0 != 2
  let n : Int := others.length
  let loss := fun (l : List Int) => ((sumInt l).natAbs : Int)
  let r0 := s.getI d (THM_NBR i) THM_NBR.R_CX0
  let r1 := s.getI d (THM_NBR i) THM_NBR.R_CX1
  let r2 := s.getI d (THM_NBR i) THM_NBR.R_CORE
  (sumInt (others.map fun k => use.getD k 0) * 10 ^ 9 + n * (r0 * loss (s.die d).thm.loss0 + r1 * loss (s.die d).thm.loss1)
    + n * r2 * coreMW * 32000000, n)

/-- A sensor becomes EXCLUDED (R321, R323, Table 12.7). -/
def excludeSensor (s : Chip) (d : Die) (i : Nat) : Chip :=
  (s.setSensor d i 2).event d 0x0161 (leBytes 1 i ++ leBytes 1 2 ++ leBytes 2 (s.get d (THM_SENS i) THM_SENS.READING)
    ++ leBytes 2 (s.get d (THM_SEST i) THM_SEST.EST))

/-- One sensor of an evaluation (R320, R321): its estimate where two others are not EXCLUDED, its deviation, and its state, which stays
where `stay` says that sensors lack an estimate. -/
def checkSensor (d : Die) (use : List Int) (states : List Nat) (stay : Bool) (coreMW i : Nat) (s : Chip) : Chip :=
  let e := s.estimate d i use states coreMW
  let den := e.2 * 10 ^ 9
  let r := s.getI d (THM_SENS i) THM_SENS.READING
  let dev := (r * den - e.1).natAbs
  let lim := s.get d THM_XCHK THM_XCHK.LIM * 32
  let wide := decide (lim * den.toNat < dev)
  let outside := decide (r < -7040) || decide (25600 < r)
  let runs := if outside then (s.die d).thm.outRun.getD i 0 + 1 else 0
  let st := s.get d (THM_SEST i) THM_SEST.STATE
  let t := s.cond (decide (2 ≤ e.2)) fun s => s.putI d (THM_SEST i) THM_SEST.EST (roundDiv e.1 den)
  let t := t.updThm d fun x => { x with
    devSum := if stay then x.devSum else x.devSum.set i (x.devSum.getD i 0 + dev * (12 / e.2.toNat))
    outRun := x.outRun.set i (min 8 runs)
    calm := x.calm.set i (x.calm.getD i false && !stay && !wide && !outside) }
  if stay ∨ st = 2 then t
  else if 8 ≤ runs then t.excludeSensor d i
  else if st = 0 && (wide || outside) then t.setSensor d i 1
  else t

/-- H_i of a sensor that is VALID after the evaluation (R322). -/
def keepGood (d : Die) (i : Nat) (s : Chip) : Chip :=
  if s.get d (THM_SEST i) THM_SEST.STATE ≠ 0 then s
  else s.updThm d fun x => { x with lastGood := x.lastGood.set i (s.getI d (THM_SENS i) THM_SENS.READING) }

/-- A third sensor has been excluded since `before` was counted (R323). -/
def senseLost (s : Chip) (d : Die) (before : Nat) : Bool := decide (before < 3) && decide (3 ≤ s.excludedSensors d)

/-- T_g of the values in use (R322). -/
def hottest (s : Chip) (d : Die) : Int := maxTemp (sensors.map fun i => s.getI d (THM_SENS i) THM_SENS.INUSE)

/-- The level after an evaluation, and the orderly stop where it becomes 3 or sensing was lost in the evaluation (R323, R324, R329, R337):
the stop record holds the values in use with the exclusion. -/
def evaluateLevel (d : Die) (sense : Bool) (s : Chip) : Chip :=
  let tg := s.hottest d
  let x := (s.die d).thm
  let old := s.get d THM_STAT THM_STAT.LEVEL
  let e := LevelEval.step ⟨old, x.dir, x.run, x.ext⟩ tg
  let t := (s.putI d THM_STAT THM_STAT.TG tg).updThm d fun x => { x with dir := e.dir, run := e.run, ext := e.ext }
  if e.cur = old then t.cond sense fun s => s.orderlyStop d true else
  let t := (t.put d THM_STAT THM_STAT.LEVEL e.cur).inc d THM_TRANS (if old < e.cur then THM_TRANS.UP else THM_TRANS.DOWN)
  let t := t.cond (sense || e.cur == 3) fun s => s.orderlyStop d sense
  t.event d 0x0160 (leBytes 1 e.cur ++ leBytes 1 old ++ leBytes 2 (t.get d THM_STAT THM_STAT.TG) ++ leBytes 1 (t.hottestSensor d false)
    ++ leBytes 1 (t.get d THM_STAT THM_STAT.HOLD + 2 * t.get d THM_STAT THM_STAT.CUT + 4 * t.get d THM_STAT THM_STAT.DEPTH))

/-- The values in use and the sensor states that an evaluation works on (R320): those at the end of the previous one; at the first
evaluation those of its own readings and the states held. -/
def evaluationBase (s : Chip) (d : Die) : List Int × List Nat :=
  let x := (s.die d).thm
  if x.started then (x.prevUse, x.prevStates) else (s.inUseNow d, s.sensorStates d)

/-- THM_EVALUATION (R318 to R324). -/
def thmEvaluation (d : Die) (readings : List Int) (coreMW : Nat) (s : Chip) : Chip :=
  if !(s.runs d && s.lineStroke d == 3) then s else
  let s := s.each sensors fun i s => s.putI d (THM_SENS i) THM_SENS.READING (readings.getD i 0)
  let base := s.evaluationBase d
  let none_ := decide ((base.2.filter (· != 2)).length < 3)
  let t := s.putB d THM_STAT THM_STAT.NOCHECK none_
  let t := (t.each sensors fun i s => checkSensor d base.1 base.2 none_ coreMW i s).updThm d fun x =>
    { x with devCount := if none_ then x.devCount else x.devCount + 1 }
  let t := (t.each sensors fun i s => keepGood d i s).showInUse d
  let v3 := t.getI d (THM_SENS 3) THM_SENS.INUSE
  let use := sensors.map fun i => t.getI d (THM_SENS i) THM_SENS.INUSE
  let states := t.sensorStates d
  let t := t.updThm d fun x => { x with
    started := true, dieSum := x.dieSum + v3, dieCount := x.dieCount + 1, prevUse := use, prevStates := states }
  t.evaluateLevel d (t.senseLost d (s.excludedSensors d))

/-! ### The line and the page -/

/-- A sensor returns to VALID (R321, R325). -/
def admitSensor (d : Die) (i : Nat) (s : Chip) : Chip :=
  let m := s.get d THM_CFG THM_CFG.CUTMASK
  let t := (s.setSensor d i 0).put d (THM_SEST i) THM_SEST.DEVPAGES 0
  let t := t.put d THM_CFG THM_CFG.CUTMASK (m &&& (31 - 2 ^ i))
  t.updThm d fun x => { x with outRun := x.outRun.set i 0, calm := x.calm.set i false }

/-- The line-scheduled part: sensors readmitted, HOLD after a cut (R331), and an accepted HOLDCLR (R330). -/
def thmLine (d : Die) (s : Chip) : Chip :=
  let t := if (s.die d).thm.exclClr = [] then s
    else ((s.each (s.die d).thm.exclClr fun i s => admitSensor d i s).updThm d fun x => { x with exclClr := [] }).refreshCut d
  let x := (s.die d).cxs
  if x.holdDue then
    ((t.put d THM_STAT THM_STAT.HOLD 1).put d CXS_STATUS CXS_STATUS.THOLD 1).updCxs d fun x => { x with holdDue := false }
  else if x.holdClr && (t.holdBlocker d).isNone then
    (((t.put d THM_STAT THM_STAT.HOLD 0).put d CXS_STATUS CXS_STATUS.THOLD 0).put d CXS_STATUS CXS_STATUS.CUT 0).updCxs d fun x =>
      { x with holdClr := false }
  else t.updCxs d fun x => { x with holdClr := false }

/-- The page's verdict on a sensor (R321): its deviating pages, SUSPECT to VALID, and exclusion; where sensors lack an estimate, no sensor
changes state (R320). -/
def sensorPage (d : Die) (stay : Bool) (i : Nat) (s : Chip) : Chip :=
  let x := (s.die d).thm
  let st := s.get d (THM_SEST i) THM_SEST.STATE
  if st = 2 ∨ x.devCount = 0 then s else
  let dev := decide (s.get d THM_XCHK THM_XCHK.LIM * 32 * 12000000000 * x.devCount < x.devSum.getD i 0)
  let pages := if dev then min 255 (s.get d (THM_SEST i) THM_SEST.DEVPAGES + 1) else 0
  let t := s.put d (THM_SEST i) THM_SEST.DEVPAGES pages
  if stay then t
  else if dev && decide (max 1 (s.get d THM_XCHK THM_XCHK.PAGES) ≤ pages) then t.excludeSensor d i
  else if st = 1 && x.calm.getD i false then t.setSensor d i 0
  else t

/-- The page-scheduled part (R319, R321, R326). -/
def thmPage (d : Die) (s : Chip) : Chip :=
  let x := (s.die d).thm
  let t := s.cond (x.dieCount != 0) fun s => s.putI d THM_TDIE THM_TDIE.TDIE (roundDiv x.dieSum x.dieCount)
  let stay := s.bit d THM_STAT THM_STAT.NOCHECK || decide (2 < s.excludedSensors d)
  let t := (t.each sensors fun i s => sensorPage d stay i s).depthStep d
  let t := t.putB d THM_TDIE THM_TDIE.SUBST (t.get d (THM_SEST 3) THM_SEST.STATE == 2)
  let t := (t.updThm d fun x => { x with
    dieSum := 0, dieCount := 0, devSum := List.replicate 5 0, devCount := 0, calm := List.replicate 5 true }).cond x.started
    fun s => s.showInUse d
  t.cond (t.senseLost d (s.excludedSensors d)) fun s => (s.putI d THM_STAT THM_STAT.TG (s.hottest d)).orderlyStop d true

/-- THERMAL_HOLD_SET (R329): at the first line boundary with both channels free the bleeds go off and HOLD is set. -/
def thermalHoldSet (d : Die) (s : Chip) : Chip :=
  if s.runs d && s.lineStroke d == 0 && s.bit d CXS_STATUS CXS_STATUS.THOLD && !(s.bit d THM_STAT THM_STAT.HOLD) && s.stageFree d then
    (s.put d THM_STAT THM_STAT.HOLD 1).bleedsStop d 0
  else s

end Chip

/-- THM_EVALUATION (R318): the five readings, and the core power in mW. -/
def execThmEvaluation (d : Die) (readings : List Int) (coreMW : Nat) (s : State) : Host.Outcome State Fault Refusal :=
  s.run (Chip.thmEvaluation d readings coreMW)

/-- THERMAL_HOLD_SET (R329). -/
def execThermalHoldSet (d : Die) (s : State) : Host.Outcome State Fault Refusal := s.run (Chip.thermalHoldSet d)

/-- CUT_TRIP (R325, R331): the comparators act in every power state. -/
def execCutTrip (d : Die) (sensor : Fin 5) (s : State) : Host.Outcome State Fault Refusal :=
  s.run fun c => if c.fitted d && c.on d 0 && !((c.die d).thm.cuts.contains sensor.val) then
      (c.updThm d fun x => { x with cuts := sensor.val :: x.cuts }).refreshCut d
    else c

/-- CUT_RELEASE (R325). -/
def execCutRelease (d : Die) (sensor : Fin 5) (s : State) : Host.Outcome State Fault Refusal :=
  s.run fun c => if c.fitted d && c.on d 0 then
      (c.updThm d fun x => { x with cuts := x.cuts.filter (· != sensor.val) }).refreshCut d
    else c

/-- HOLDCLR (R330). -/
def execHoldclr (d : Die) (s : State) : Host.Outcome State Fault Refusal :=
  s.run fun c => if c.on d 0 then c.clearHold d else c

/-- SENSOR_EXCL_CLEAR (R321). -/
def execSensorExclClear (d : Die) (i : Fin 5) (s : State) : Host.Outcome State Fault Refusal :=
  s.run fun c => if c.on d 0 then c.clearExcl d i.val else c

/-- CUTMASK_WRITE (R325): a write of THM_CFG. -/
def execCutmaskWrite (d : Die) (w : Word) (s : State) : Host.Outcome State Fault Refusal :=
  s.run fun c => if c.on d 0 then c.writeThmCfg d w else c

end Sys2Proof.Machine
end

