-- ==== Sys2Proof/Machine/Cal.lean ====
section
/-! DEFINITION. Calibration: the factory sets, passes and their items, the reference monitor and the triggers (chapter Calibration; the
trims of R336). -/
namespace Sys2Proof.Machine

/-- The temperatures of the factory sets, LSB 1/128 °C (R340). -/
def setTemps : List Int := [-5120, -2560, 0, 3200, 6400, 9600, 12800, 16000]

/-- A factory value at a temperature (R340). -/
def interpolate (v : Nat → Int) (t : Int) : Int :=
  if t < -5120 then v 0
  else if 16000 ≤ t then v 7
  else
    let s := (setTemps.filter fun x => decide (x ≤ t)).length - 1
    let lo := setTemps.getD s 0
    let w := setTemps.getD (s + 1) 0 - lo
    roundDiv (v s * w + (v (s + 1) - v s) * (t - lo)) w

/-- A trim moved toward a value by at most a step (R336). -/
def towards (step now_ want : Int) : Int := max (now_ - step) (min want (now_ + step))

/-- The masks of 4 unit elements of 8 (R349). -/
def elementMasks : List Nat := (List.range 256).filter fun m => bitCount 8 m == 4

/-- W of `CAL_CFG.WIN`, in lines (Table 13.6). -/
def windowLines (win : Nat) : Nat := 8 * 2 ^ win

/-- V_CAL as a channel sees it, in 1/8 µV (R342). -/
def calVolts (c : Nat) : Int := if c = 17 then 1600000 else 32000000

namespace Chip

/-- The calibration structure of a die changed. -/
def updCal (s : Chip) (d : Die) (f : CalX → CalX) : Chip := s.upd d fun x => { x with cal := f x.cal }

/-- A pass changed, where one runs. -/
def updPass (s : Chip) (d : Die) (f : CalPass → CalPass) : Chip := s.updCal d fun x => { x with pass := x.pass.map f }

/-- The line number of a die. -/
def line (s : Chip) (d : Die) : Nat := s.stroke d / 4

/-! ### Factory values (R336, R340) -/

/-- The factory offset and gain of entry e at T_die: channels 0 to 17, AUX, the four senses. -/
def factoryValue (s : Chip) (d : Die) (t : Int) (e : Nat) : Int × Int :=
  let two := fun (a : Nat → Nat) (o g : Fld) => (interpolate (fun k => s.getI d (a k) o) t, interpolate (fun k => s.getI d (a k) g) t)
  if e < 18 then two (fun k => CAL_FAC k e) CAL_FAC.OFFSET CAL_FAC.GAIN
  else if e = 18 then two CAL_FAC_AUX CAL_FAC_AUX.AOFF CAL_FAC_AUX.AGAIN
  else two (fun k => CAL_FAC_IS k (e - 19)) CAL_FAC_IS.IOFF CAL_FAC_IS.IGAIN

/-- The factory values of every entry. -/
def factoryAt (s : Chip) (d : Die) (t : Int) : List (Int × Int) := (List.range 23).map (s.factoryValue d t)

/-- The factory corrections at the die temperature last measured. -/
def factoryValues (s : Chip) (d : Die) : List (Int × Int) := s.factoryAt d (s.getI d THM_TDIE THM_TDIE.TDIE)

/-- The trims of Table 12.6 moved by one page (R336): MCLK and LF oscillator at once, bandgap, Zener and shadow reference at the next line
boundary, and the current leveller's sense, for which Table 13.10 has no set: a free value. A moved MCLK trim leaves the PLL a remainder,
which FREQ_OFF shows. -/
def trimPage (s : Chip) (d : Die) : Chip :=
  let at_ := fun i => s.getI d (THM_SENS i) THM_SENS.INUSE
  let want := [interpolate (fun k => s.getI d (CAL_FAC_OSC k) CAL_FAC_OSC.MCLKTRIM) (at_ 2),
    interpolate (fun k => s.getI d (CAL_FAC_OSC k) CAL_FAC_OSC.LFTRIM) (at_ 4),
    interpolate (fun k => s.getI d (CAL_FAC_REF k) CAL_FAC_REF.BGTRIM) (at_ 4),
    interpolate (fun k => s.getI d (CAL_FAC_REF k) CAL_FAC_REF.ZTRIM) (at_ 4),
    interpolate (fun k => s.getI d (CAL_FAC_SH k) CAL_FAC_SH.SHTRIM) (at_ 4)]
  let steps : List Int := [10, 20, 2, 2, 2]
  let old := (s.die d).thm.trims
  let new := fun i => towards (steps.getD i 0) (old.getD i 0) (want.getD i 0)
  let t := (s.updThm d fun x => { x with
    trims := [new 0, new 1, old.getD 2 0, old.getD 3 0, old.getD 4 0, (Config.freeNat s.free : Int)]
    trimsDue := some [new 2, new 3, new 4] }).draw
  t.cond (new 0 != old.getD 0 0) fun s => s.freqOff d

/-- The reference trims of the last page come into force at a line boundary (Table 12.6). -/
def trimLine (s : Chip) (d : Die) : Chip :=
  match (s.die d).thm.trimsDue with
  | some l => s.updThm d fun x => { x with trims := x.trims.take 2 ++ l ++ x.trims.drop 5, trimsDue := none }
  | none => s

/-! ### Requests, the end of an item, the end of a pass -/

/-- The STATE of CAL_STAT. -/
def calState (s : Chip) (d : Die) : Nat := s.get d CAL_STAT CAL_STAT.STATE
def setCalState (s : Chip) (d : Die) (v : Nat) : Chip := s.put d CAL_STAT CAL_STAT.STATE v

/-- A background pass becomes pending with a cause. -/
def calPending (s : Chip) (d : Die) (cause : Nat) : Chip :=
  (s.put d CAL_STAT CAL_STAT.PENDING 1).updCal d fun x => { x with pendCause := cause }

/-- A background pass becomes pending for a reason that Table 13.4 gives no cause for: its cause is free among those of a background pass, 1
to 3. -/
def calPendingOther (s : Chip) (d : Die) : Chip := (s.calPending d (1 + Config.freeNat s.free % 3)).draw

/-- A host request (R352, R353): merged where a pass is pending. -/
def calRequest (s : Chip) (d : Die) : Chip :=
  if s.bit d CAL_STAT CAL_STAT.PENDING then s.inc d CAL_STAT CAL_STAT.MERGED else s.calPending d 3

/-- Whether a channel is left out of a pass (R347, R429). -/
def calSkips (s : Chip) (d : Die) (c : Nat) : Bool :=
  (s.get d BIST_CHFAIL BIST_CHFAIL.FAILED).testBit c || (s.die d).cfe.shadowOnly.contains c

/-- The CAL_PASS event (Table 13.4). -/
def calEvent (s : Chip) (d : Die) (cause outcome : Nat) (accepted failed : List Nat) (tref : Nat) : Chip :=
  let mask := fun (l : List Nat) => l.foldl (fun m c => m ||| 2 ^ c) 0
  s.event d 0x0170 (leBytes 1 cause ++ leBytes 1 outcome ++ leBytes 3 (mask accepted) ++ leBytes 3 (mask failed) ++ leBytes 2 tref)

/-- Every channel leaves INVALID, as at the end of a full calibration (R67, R356). -/
def settleEvery (s : Chip) (d : Die) : Chip := s.each (List.range 18) fun c s => s.settleChannel d c

/-- A pass is abandoned (R353): nothing is applied, its items report ABANDONED, and the spare is given up; so is a start-up pass that has
not begun. -/
def abandonPass (s : Chip) (d : Die) (pending : Bool) : Chip :=
  match (s.die d).cal.pass with
  | none => s.cond (s.calState d == 4) fun s => (s.setCalState d 0).cond pending fun s => s.calPendingOther d
  | some p =>
    let t := s.each (p.all.filter (· < 18)) fun c s => s.put d (CAL_CHST c) CAL_CHST.STATUS 4
    let t := (t.spareGiveUp d 2).updCal d fun x => { x with pass := none, sense := none }
    let t := t.cond (s.calState d == 3) fun s => s.settleEvery d
    let t := (t.setCalState d 0).put d CAL_STAT CAL_STAT.ITEM 0x1F
    let t := (t.put d CAL_LASTT CAL_LASTT.CAUSE p.cause).put d CAL_LASTT CAL_LASTT.ABANDONED 1
    (t.calEvent d p.cause 1 [] [] (s.get d CAL_LASTT CAL_LASTT.TREF)).cond pending fun s => s.calPendingOther d

/-- A voltage item ends with a status; the spare leaves. -/
def endItem (s : Chip) (d : Die) (code status : Nat) : Chip :=
  let bad := status = 2 ∨ status = 3
  let t := (s.put d (CAL_CHST code) CAL_CHST.STATUS status).updPass d fun p => { p with
    running := p.running.filter (·.code != code), failed := if bad then code :: p.failed else p.failed, endAt := s.line d }
  let t := (t.cond (t.calState d != 3) fun s => s.spareRelease d 2).put d CAL_STAT CAL_STAT.ITEM 0x1F
  if status = 3 then
    let n := min 7 (t.get d (BIST_ELEM code) BIST_ELEM.RANGES + 1)
    (((t.put d (BIST_ELEM code) BIST_ELEM.RANGES n).put d (BIST_ELEM code) BIST_ELEM.REPEATS 0).report d 159).cond (decide (2 ≤ n))
      fun s => s.failChannel d code
  else if status = 2 then
    let n := min 7 (t.get d (BIST_ELEM code) BIST_ELEM.REPEATS + 1)
    (((t.put d (BIST_ELEM code) BIST_ELEM.REPEATS n).put d (BIST_ELEM code) BIST_ELEM.RANGES 0).report d 160).cond (decide (4 ≤ n))
      fun s => s.failChannel d code
  else if status = 4 then t
  else (t.put d (BIST_ELEM code) BIST_ELEM.RANGES 0).put d (BIST_ELEM code) BIST_ELEM.REPEATS 0

/-! ### The start of a pass (R347, R353, R354, R356) -/

/-- A converter channel is free for a current-sense item (R346, R153). -/
def senseFree (s : Chip) (d : Die) (n : Nat) : Bool := (s.selected d n).isNone && s.chanFree d n

/-- A pass begins at a line boundary with its cause, its CAL_STAT state and W. -/
def beginPass (s : Chip) (d : Die) (cause st w : Nat) : Chip :=
  let volts := (16 :: List.range (min 16 (s.cells d)) ++ [17]).filter fun c => !(s.calSkips d c)
  let senses := if s.bit d CAL_REF CAL_REF.DEGRADED then [] else
    [0, 1, 2, 3].filter fun n => st != 4 || s.senseFree d (n / 2)
  let due := s.line d + 3 + 2 * w
  let running := if st = 3 then volts.map fun c => ⟨c, due, none, s.get d (CAL_CHST c) CAL_CHST.ELEM, [], false, s.line d + 2, false⟩ else []
  let p : CalPass := ⟨cause, volts ++ [18] ++ senses.map (· + 19), if st = 3 then [] else volts, running, senses, [], [],
    s.get d THM_TDIE THM_TDIE.TDIE, w, 0, s.line d + 8, s.line d⟩
  ((s.updCal d fun x => { x with pass := some p, cfgNow := s.reg d CAL_CFG, sense := none, senseWait := [0, 0, 0, 0] }).setCalState d st).put d CAL_STAT CAL_STAT.ITEM 0x1F

/-- CAL_PASS_START (R353, R354, R356): a full calibration ordered, the start-up pass, or the pending pass. -/
def calPassStart (d : Die) (s : Chip) : Chip :=
  if !(s.runsOn d 8 && s.lineStroke d == 0) || s.entering d then s
  else if (s.die d).cal.service then
    ((s.abandonPass d false).updCal d fun x => { x with service := false }).beginPass d 4 3 128
  else if (s.die d).cal.pass.isSome then s
  else if s.calState d = 4 then s.beginPass d 0 4 3
  else if s.bit d CAL_STAT CAL_STAT.PENDING && !(s.isolated d 160) then
    (s.put d CAL_STAT CAL_STAT.PENDING 0).beginPass d (s.die d).cal.pendCause 1 (windowLines (s.get d CAL_CFG CAL_CFG.WIN))
  else s

/-! ### Voltage items (R348 to R350) -/

/-- An open-wire test goes before calibration and self-test (R45): one that waits to start, or one that was granted at this line
boundary and drives the pins. -/
def owdWaits (s : Chip) (d : Die) : Bool :=
  match (s.die d).owd.test with
  | some t => !t.judged && t.line == s.line d
  | none => (s.die d).owd.step.isNone && (s.nextTest d).isSome

/-- CAL_ITEM_GRANT (R45, R347, R348, R355): the next voltage item of the pass takes the spare; with the spare committed it runs
without substitution. -/
def calItemGrant (d : Die) (s : Chip) : Chip :=
  match (s.die d).cal.pass with
  | none => s
  | some p =>
    match p.items with
    | [] => s
    | code :: rest =>
      let st := s.spareState d
      let ok := s.runsOn d 8 && s.lineStroke d == 0 && p.running.isEmpty && decide (p.calmAt ≤ s.line d + 7)
        && (st == 0 || st == 4) && (s.die d).cfe.repair.isNone && !(s.owdWaits d)
      if !ok then s else
      let due := s.line d + (if code = 16 then 2 else 3) + 2 * p.window
      let item : CalItem := ⟨code, due, none, s.get d (CAL_CHST code) CAL_CHST.ELEM, [], false, due - 1 - 2 * p.window, false⟩
      let t := (s.updPass d fun p => { p with items := rest, running := [item] }).cond (st == 0) fun s => s.spareEnter d 2 code
      (t.cond (t.calState d != 4) fun s => s.setCalState d 1).put d CAL_STAT CAL_STAT.ITEM code

/-- The offset and gain residuals of a channel in force. -/
def residual (s : Chip) (d : Die) (c : Nat) : Int × Int := (s.getI d (CAL_CH c) CAL_CH.OFFSET, s.getI d (CAL_CH c) CAL_CH.GAIN)

/-- The candidate of R349 from Z1 and V1 in 1/8 µV: whether it is in range, and its residuals. While the anchor is DEGRADED only the
offset is measured (R345). -/
def candidate (s : Chip) (d : Die) (c : Nat) (z v : Int) : Bool × Int × Int :=
  let r := s.residual d c
  let f := (s.die d).cal.fac.getD c (0, 0)
  let o := f.1 + r.1 + z
  let g := f.2 + r.2
  let dv := v - z
  let num := (8000000 + g) * calVolts c
  let offOk := decide (o.natAbs ≤ 16000)
  if s.bit d CAL_REF CAL_REF.DEGRADED then (offOk, o - f.1, r.2)
  else if dv ≤ 0 then (false, 0, 0)
  else (offOk && decide ((num - 8000000 * dv).natAbs ≤ 8000 * dv.natAbs), o - f.1, roundDiv (num - (8000000 + f.2) * dv) dv)

/-- The item of the pass whose windows end now: the first that waits for a candidate, or for a verdict. -/
def itemDue (s : Chip) (d : Die) (verdict : Bool) : Option (CalPass × CalItem) :=
  (s.die d).cal.pass.bind fun p => (p.running.find? fun i =>
    (i.cand.isSome == verdict) && decide (i.due ≤ s.line d)).map fun i => (p, i)

/-- A running item changed. -/
def updItem (s : Chip) (d : Die) (code : Nat) (f : CalItem → CalItem) : Chip :=
  s.updPass d fun p => { p with running := p.running.map fun i => if i.code = code then f i else i }

/-- A combination that may be tried next (R349, R426): no marked unit, not tried yet; which of them is free. -/
def nextElement (s : Chip) (d : Die) (i : CalItem) : Option Nat :=
  let marked := s.get d (BIST_ELEM i.code) BIST_ELEM.MARKED
  let l := elementMasks.filter fun m => m &&& marked == 0 && !((i.elem :: i.tried).contains m)
  l[(Config.freeNat s.free) % (max 1 l.length)]?

/-- A window of an item fell in a degraded line (Table 13.3): taken again once, else the item is ABANDONED. -/
def windowSpoilt (s : Chip) (d : Die) (p : CalPass) (i : CalItem) : Chip :=
  if i.redo then s.endItem d i.code 4
  else s.updItem d i.code fun i => { i with redo := true, begun := i.due, due := i.due + p.window, spoilt := false }

/-- The line in progress is degraded (R407): a window that takes it is spoilt. Between the window at 0 V and the one at V_CAL an item takes a
line for none (R348). -/
def calSpoil (s : Chip) (d : Die) : Chip :=
  s.updPass d fun p => { p with running := p.running.map fun i =>
    let hit := decide (i.begun ≤ s.line d) && decide (s.line d < i.due) && s.line d + 1 + p.window != i.due
    { i with spoilt := i.spoilt || hit } }

/-- CAL_CANDIDATE (R349, R354, R426). -/
def calCandidate (d : Die) (w : CalWin) (s : Chip) : Chip :=
  if !(s.runsOn d 8 && s.lineStroke d == 0) then s else
  match s.itemDue d false with
  | none => s
  | some (p, i) =>
    if i.spoilt then s.windowSpoilt d p i else
    let c := s.candidate d i.code w.zero w.vcal
    let start := s.calState d == 4
    let forced := i.tried.isEmpty && (i.elem &&& s.get d (BIST_ELEM i.code) BIST_ELEM.MARKED != 0)
    if c.1 && !(forced && !start) then
      s.updItem d i.code fun i => { i with cand := some (c.2.1, c.2.2, i.elem), begun := i.due + 1, due := i.due + 2 + 2 * p.window }
    else
      match (if start || decide (2 ≤ i.tried.length) then none else s.nextElement d i) with
      | some m => (s.updItem d i.code fun i => { i with elem := m, tried := i.elem :: i.tried, begun := i.due + 1, due := i.due + 1 + p.window }).draw
      | none => s.endItem d i.code 3

/-- CAL_ITEM_VERDICT (R350): the repeat with the trial correction. -/
def calItemVerdict (d : Die) (w : CalWin) (s : Chip) : Chip :=
  if !(s.runsOn d 8 && s.lineStroke d == 0) then s else
  match s.itemDue d true with
  | none => s
  | some (p, i) =>
    if i.spoilt then s.windowSpoilt d p i else
    match i.cand with
    | none => s
    | some c =>
      let v := calVolts i.code
      let skip := s.bit d CAL_REF CAL_REF.DEGRADED
      let ok := decide (w.zero.natAbs ≤ 160) && (skip || decide ((w.vcal - w.zero - v).natAbs * 1000000 ≤ 30 * v.natAbs))
      if ok then (s.updPass d fun p => { p with accepted := (i.code, c.1, c.2.1, c.2.2) :: p.accepted }).endItem d i.code
        (if skip then 5 else 1)
      else s.endItem d i.code 2

/-! ### Current senses (R346, R350, R355) -/

/-- A current-sense item ends, accepted with its residuals or failed. -/
def endSense (s : Chip) (d : Die) (n : Nat) (good : Option (Int × Int)) : Chip :=
  s.updPass d fun p => { p with
    senses := p.senses.filter (· != n)
    accepted := match good with | some g => (19 + n, g.1, g.2, 0) :: p.accepted | none => p.accepted
    failed := if good.isSome then p.failed else (19 + n) :: p.failed
    endAt := s.line d + 10 }

/-- CURRENT_SENSE_ITEM (R346, R350): I_T, the gain and the offset of one sense, and the repeat. -/
def currentSenseItem (d : Die) (n : Nat) (r : RcalIn) (s : Chip) : Chip :=
  let has := (s.die d).cal.pass.any fun p => p.senses.contains n
  let busy := (s.die d).cal.sense.any fun i => decide (s.line d < i.2)
  if !(s.runsOn d 8 && s.lineStroke d == 0 && has && !busy && s.senseFree d (n / 2)) then s else
  let t := (s.updCal d fun x => { x with sense := some (n, s.line d + 10) }).put d CAL_RCAL CAL_RCAL.IT
    (max 0 (min 65535 (roundDiv r.rcalUV 5))).toNat
  if r.rcalUV < 112500 ∨ 137500 < r.rcalUV then
    ((t.put d CAL_REF CAL_REF.RCALBAD 1).report d 158).endSense d n none
  else
    let f := (s.die d).cal.fac.getD (19 + n) (0, 0)
    let o := f.1 + s.getI d (CAL_IS n) CAL_IS.OFFSET + r.offRead
    let g := f.2 + s.getI d (CAL_IS n) CAL_IS.GAIN
    let it := 2 * r.rcalUV
    let dv := 10 * (r.onRead - r.offRead)
    let rep := 10 * (r.onRep - r.offRep)
    let ok := decide (0 < dv) && decide (r.offRep.natAbs ≤ 50) && decide ((rep - it).natAbs * 1000000 ≤ 500 * it.natAbs)
    if ok then t.endSense d n (some (o - f.1, roundDiv ((1000000 + g) * it - (1000000 + f.2) * dv) dv))
    else (t.endSense d n none).report d 160

/-! ### The end of a pass (R351, R354, R356) -/

/-- An accepted item comes into force. -/
def applyItem (d : Die) (a : Nat × Int × Int × Nat) (s : Chip) : Chip :=
  if a.1 < 18 then
    let t := ((s.putI d (CAL_CH a.1) CAL_CH.OFFSET a.2.1).putI d (CAL_CH a.1) CAL_CH.GAIN a.2.2.1).put d (CAL_CHST a.1) CAL_CHST.ELEM
      a.2.2.2
    t.put d (CAL_CHST a.1) CAL_CHST.AGE 0
  else (s.putI d (CAL_IS (a.1 - 19)) CAL_IS.OFFSET a.2.1).putI d (CAL_IS (a.1 - 19)) CAL_IS.GAIN a.2.2.1

/-- CAL_PASS_END (R351): the AUX item's residuals are free; while DEGRADED its gain keeps its value (R345). -/
def calPassEnd (d : Die) (s : Chip) : Chip :=
  match (s.die d).cal.pass with
  | none => s
  | some p =>
    let past := p.items.isEmpty && p.running.isEmpty && p.senses.isEmpty && decide (p.calmAt < s.line d) && decide (p.endAt < s.line d)
    if !(s.runsOn d 8 && s.lineStroke d == 0 && past) then s else
    let t := s.each p.accepted fun a s => applyItem d a s
    let t := t.put d CAL_AUX CAL_AUX.OFFSET (Config.freeNat s.free)
    let t := (t.cond (!(s.bit d CAL_REF CAL_REF.DEGRADED)) fun t => t.put d CAL_AUX CAL_AUX.GAIN (Config.freeNat s.free / 65536)).draw
    let volt := p.accepted.any fun a => a.1 < 18
    let t := (t.cond volt fun s => s.put d BOOT_STAT BOOT_STAT.CALDONE 1).cond (s.calState d == 4 && !volt) fun s =>
      s.put d BOOT_STAT BOOT_STAT.CALFAIL 1
    let t := (t.put d CAL_LAST CAL_LAST.AT (s.stroke d)).setReg d CAL_LASTT (BitVec.ofNat 32 (p.tref + 65536 * p.cause))
    let t := ((t.inc d CAL_STAT CAL_STAT.PASSES).setCalState d 0).put d CAL_STAT CAL_STAT.ITEM 0x1F
    let t := t.updCal d fun x => { x with pass := none, sense := none, since := p.age }
    (t.calEvent d p.cause 0 (18 :: p.accepted.map (·.1)) p.failed p.tref).cond (s.calState d == 3) fun s => s.settleEvery d

/-- A boundary at which its channel is free ends the wait of a current-sense item (Table 13.3). -/
def senseLine (s : Chip) (d : Die) : Chip :=
  let l := (s.die d).cal.senseWait
  let new := (List.range 4).map fun n => if s.senseFree d (n / 2) then 0 else l.getD n 0
  s.updCal d fun x => { x with senseWait := new }

/-- The current-sense items of a pass that satisfy a test end SKIPPED. -/
def skipSenses (s : Chip) (d : Die) (skip : Nat → Bool) : Chip :=
  s.updPass d fun p => { p with
    senses := p.senses.filter fun n => !(skip n), endAt := if p.senses.any skip then s.line d else p.endAt }

/-- In a start-up pass a current-sense item whose turn has come runs only if its channel is free at once (R354). -/
def senseAtOnce (s : Chip) (d : Die) : Chip :=
  s.cond (s.calState d == 4 && !((s.die d).cal.sense.any fun i => decide (s.line d < i.2))) fun s =>
    s.skipSenses d fun n => !(s.senseFree d (n / 2))

/-- The pages that the current-sense items of a pass have waited (Table 13.3): after 64 pages without a free boundary an item is
SKIPPED. -/
def sensePage (s : Chip) (d : Die) : Chip :=
  let l := (s.die d).cal.senseWait.map (· + 1)
  (s.updCal d fun x => { x with senseWait := l }).skipSenses d fun n => decide (64 < l.getD n 0)

/-- The line-scheduled part: interpolated values come into force, and a pass shows that it waits for the spare. -/
def calLine (d : Die) (s : Chip) : Chip :=
  let t := ((((s.trimLine d).senseLine d).senseAtOnce d).updCal d fun x => { x with fac := x.facNext }).updPass d fun p =>
    { p with items := p.items.filter fun c => !(s.calSkips d c) }
  match (t.die d).cal.pass with
  | some p =>
    let waits := p.running.isEmpty && !(p.items.isEmpty) && decide (p.calmAt ≤ t.line d + 7)
    if t.calState d = 1 ∨ t.calState d = 2 then t.setCalState d (if waits then 2 else 1) else t
  | none => t

/-! ### The page (R340, R343 to R345, R352, R355) -/

/-- The REFERENCE event (Table 13.4). -/
def refEvent (s : Chip) (d : Die) : Chip :=
  let f := fun x => s.get d CAL_REF x
  s.event d 0x0171 (leBytes 1 (f CAL_REF.FALLBACK + 2 * f CAL_REF.DEGRADED + 4 * f CAL_REF.REFXBAD + 8 * f CAL_REF.SUSPECT)
    ++ leBytes 2 (f CAL_REF.DIS))

/-- REFX_EN in force (R355). -/
def refxOn (s : Chip) (d : Die) : Bool := CAL_CFG.REFX_EN.read (s.die d).cal.cfgNow == 1

/-- What two pages of disagreement do (R343 to R345). -/
def refDisagree (s : Chip) (d : Die) (m : PageMeas) : Chip :=
  let usable := s.refxOn d && m.refxOk
  let ran := (s.die d).cal.pass.isSome
  let t := if usable then
      (s.put d CAL_REF CAL_REF.FALLBACK 1).put d CAL_REF CAL_REF.SUSPECT
        ((decide (150 < m.bgRefx.natAbs)).toNat + 2 * (decide (150 < m.zRefx.natAbs)).toNat)
    else s.put d CAL_REF CAL_REF.DEGRADED 1
  let t := ((t.raise d 157).refEvent d).abandonPass d true
  t.cond (usable && !ran) fun s => s.calPendingOther d

/-- REFERENCE_MONITOR (R343 to R345). -/
def refMonitor (s : Chip) (d : Die) (m : PageMeas) : Chip :=
  let big := decide (300 < m.dis.natAbs)
  let x := (s.die d).cal
  let bad := if big then min 3 (x.disRun + 1) else 0
  let good := if m.dis.natAbs < 300 then min 16 (x.okRun + 1) else 0
  let t := (s.putI d CAL_REF CAL_REF.DIS m.dis).putB d CAL_REF CAL_REF.REFXBAD (s.refxOn d && !m.refxOk)
  let t := t.updCal d fun x => { x with disRun := bad, okRun := good }
  let t := t.cond (good == 16) fun s => s.put d CAL_REF CAL_REF.DEGRADED 0
  let t := t.cond (!big) fun s => s.cause d 157 false
  t.cond (bad == 2) fun s => s.refDisagree d m

/-- The triggers of hardware mode (R352), by the CAL_CFG in force (R355). -/
def calTriggers (s : Chip) (d : Die) : Chip :=
  if s.mode d FOL_MODENOW.CALTRG || s.bit d CAL_STAT CAL_STAT.PENDING then s else
  let cfg := (s.die d).cal.cfgNow
  let dt := min 32 (max 1 (CAL_CFG.DTCAL.read cfg))
  let moved := (s.getI d THM_TDIE THM_TDIE.TDIE - s.getI d CAL_LASTT CAL_LASTT.TREF).natAbs
  let maxi := CAL_CFG.MAXINT.read cfg
  if dt * 128 < moved then s.calPending d 1
  else if maxi ≠ 0 ∧ maxi ≤ (s.die d).cal.since then s.calPending d 2
  else s

/-- The page-scheduled part of calibration. -/
def calPage (d : Die) (m : PageMeas) (s : Chip) : Chip :=
  let t := (s.updCal d fun x => { x with since := min 65535 (x.since + 1) }).updPass d fun p => { p with age := p.age + 1 }
  let t := t.each (List.range 18) fun c s => s.inc d (CAL_CHST c) CAL_CHST.AGE
  let t := t.updCal d fun x => { x with facNext := t.factoryValues d }
  let t := (t.trimPage d).putB d CAL_STAT CAL_STAT.TSUBST (t.bit d THM_TDIE THM_TDIE.SUBST)
  let t := t.cond (t.on d 8) fun s => s.refMonitor d m
  let t := t.cond (t.on d 8 || t.get d PWR_STATE PWR_STATE.STATE == 1) fun s => s.calTriggers d
  t.sensePage d

/-- A write of CAL_CMD (Table 13.6): ABORT takes precedence over GO; FBCLR (R344). -/
def writeCalCmd (s : Chip) (d : Die) (w : Word) : Chip :=
  let dis := (s.getI d CAL_REF CAL_REF.DIS).natAbs
  let clear := CAL_CMD.FBCLR.read w == 1 && s.bit d CAL_REF CAL_REF.FALLBACK && decide (dis ≤ 300)
  let t := s.cond clear fun s => (s.put d CAL_REF CAL_REF.FALLBACK 0).calPendingOther d
  if CAL_CMD.ABORT.read w = 1 then (t.abandonPass d false).put d CAL_STAT CAL_STAT.PENDING 0
  else if CAL_CMD.GO.read w = 1 then t.calRequest d
  else t

/-- A write of FBCLR is refused (R344). -/
def fbclrRefused (s : Chip) (d : Die) (w : Word) : Bool :=
  CAL_CMD.FBCLR.read w == 1 && decide (300 < (s.getI d CAL_REF CAL_REF.DIS).natAbs)

end Chip

/-- CAL_PASS_START (R353). -/
def execCalPassStart (d : Die) (s : State) : Host.Outcome State Fault Refusal := s.run (Chip.calPassStart d)

/-- CAL_ITEM_GRANT (R348). -/
def execCalItemGrant (d : Die) (s : State) : Host.Outcome State Fault Refusal := s.run (Chip.calItemGrant d)

/-- CAL_CANDIDATE (R349): windows Z1 and V1. -/
def execCalCandidate (d : Die) (w : CalWin) (s : State) : Host.Outcome State Fault Refusal := s.run (Chip.calCandidate d w)

/-- CAL_ITEM_VERDICT (R350): windows Z2 and V2. -/
def execCalItemVerdict (d : Die) (w : CalWin) (s : State) : Host.Outcome State Fault Refusal := s.run (Chip.calItemVerdict d w)

/-- CURRENT_SENSE_ITEM (R346). -/
def execCurrentSenseItem (d : Die) (item : Fin 4) (r : RcalIn) (s : State) : Host.Outcome State Fault Refusal :=
  s.run (Chip.currentSenseItem d item.val r)

/-- CAL_PASS_END (R351). -/
def execCalPassEnd (d : Die) (s : State) : Host.Outcome State Fault Refusal := s.run (Chip.calPassEnd d)

/-- CAL_GO (R352). -/
def execCalGo (d : Die) (s : State) : Host.Outcome State Fault Refusal :=
  s.run fun c => if c.on d 8 then c.writeCalCmd d (CAL_CMD.GO.write 0 1) else c

/-- CAL_ABORT (Table 13.3). -/
def execCalAbort (d : Die) (s : State) : Host.Outcome State Fault Refusal :=
  s.run fun c => if c.on d 8 then c.writeCalCmd d (CAL_CMD.ABORT.write 0 1) else c

/-- FBCLR (R344). -/
def execFbclr (d : Die) (s : State) : Host.Outcome State Fault Refusal :=
  s.run fun c => if c.on d 8 then c.writeCalCmd d (CAL_CMD.FBCLR.write 0 1) else c

end Sys2Proof.Machine
end

