-- ==== Sys2Proof/Machine/Bist.lean ====
section
/-! DEFINITION. Self-test and repair: logic slices, memory rows, unit elements, failed channels and repair fuses (chapter Self-Test,
Repair and Lifecycle, R412 to R431). -/
namespace Sys2Proof.Machine

/-- What a failing row takes (R422): the spare column, a spare row, or nothing. -/
inductive Spare where
  | column | row | none
  deriving DecidableEq, Repr

/-- The spare that a failing row takes (R422); `bit` is the one failing bit position, where the failure is confined to one. -/
def spareFor (rows cols : List (Nat × Nat)) (seen : List (Nat × Nat × Nat)) (m r : Nat) (bit : Option Nat) : Spare :=
  let rowFree := decide ((rows.filter (·.1 == m)).length < 2)
  let colFree := !(cols.any (·.1 == m))
  let elsewhere := bit.any fun b => seen.any fun x => x.1 == m && x.2.1 != r && x.2.2 == b
  if colFree && elsewhere then .column
  else if rowFree then .row
  else if colFree && bit.isSome then .column
  else .none

namespace Chip

/-- The self-test structure of a die changed. -/
def updBist (s : Chip) (d : Die) (f : BistX → BistX) : Chip := s.upd d fun x => { x with bist := f x.bist }

/-! ### Memory rows (R421, R422, R424) -/

/-- A failing row that no spare covers (R424, R430). A roster row counts as a loss when it is retired, not when it fails again. -/
def rowLost (s : Chip) (d : Die) (m r : Nat) : Chip :=
  let t := s.put d (BIST_MAC m) BIST_MAC.UNREP 1
  if m < 15 then (t.report d 112).countLoss d
  else
    let es := (List.range 16).map fun i => 1024 * (m - 15) + 16 * r + i
    let u := t.each (allDies.filter fun k => s.on k 0) fun k s => s.each es fun e s =>
      if ownerOf e = k.val then s.setEntryState k e 5 else s.put k (MOD_NIB_ENTRY e) MOD_NIB_ENTRY.STATE 5
    (u.report d 137).cond (es.any fun e => s.eState d e != 5) fun s => s.countLoss d

/-- ROW_REPAIR (R422): a failing row of a macro. -/
def repairRow (s : Chip) (d : Die) (m r : Nat) (bit : Option Nat) : Chip :=
  let x := (s.die d).bist
  let t := (s.inc d (BIST_MAC m) BIST_MAC.FAILS).put d (BIST_MAC m) BIST_MAC.ROW r
  let t := match bit with
    | some b => t.updBist d fun x => { x with seen := if x.seen.contains (m, r, b) then x.seen else (m, r, b) :: x.seen }
    | none => t
  match spareFor x.rows x.cols x.seen m r bit with
  | .column => ((t.updBist d fun x => { x with cols := (m, bit.getD 0) :: x.cols }).put d (BIST_MAC m) BIST_MAC.SPCOL 1).report d 162
  | .row => ((t.updBist d fun x => { x with rows := (m, r) :: x.rows }).put d (BIST_MAC m) BIST_MAC.SPROWS
      (min 2 ((x.rows.filter (·.1 == m)).length + 1))).report d 162
  | .none => t.rowLost d m r

/-- The failing rows of a window of the 192-window cycle (R421): row floor(j / 3) of macros 6·(j mod 3) to 6·(j mod 3) + 5. -/
def windowRows (j : Nat) (fails : List (Nat × Nat × Option Nat)) : List (Nat × Nat × Option Nat) :=
  fails.filter fun f => f.2.1 == j / 3 && f.1 / 6 == j % 3

/-- MEMORY_ROW_TEST (R421) in window j. -/
def testRows (s : Chip) (d : Die) (j : Nat) (fails : List (Nat × Nat × Option Nat)) : Chip :=
  s.each (windowRows j fails) fun f s => s.repairRow d f.1 f.2.1 f.2.2

/-! ### Logic slices (R413 to R416, R418, R419) -/

/-- The pointer's partition restarts at slice 0 (R414): after DOZE, sleep and a programmed run. -/
def bistRestart (s : Chip) (d : Die) : Chip := s.put d BIST_STAT BIST_STAT.SLICE 0

/-- A slice of partition p was cut short (R415). -/
def sliceIncomplete (s : Chip) (d : Die) (p : Nat) : Chip :=
  (((s.put d (BIST_PART p) BIST_PART.RESULT 3).inc d (BIST_PART p) BIST_PART.INCOMPLETES).inc d BIST_STAT BIST_STAT.INCCNT).report d 161

/-- A slice of partition p that has run to its end (R413): slice 0 starts the LFSR from a seed and the MISR anew, and each later one continues
both; `response` is what the scan chains return. -/
def sliceRun (s : Chip) (d : Die) (p k seed : Nat) (response : Word) : Chip :=
  s.updBist d fun x =>
    let l := if k = 0 then seed else x.lfsr
    { x with lfsr := Config.lfsrNext l, misr := some (Config.misrNext p l (if k = 0 then none else x.misr) response) }

/-- The MISR of a completed test equals a signature (R415). -/
def misrIs (s : Chip) (d : Die) (sig : Word) : Bool := (s.die d).bist.misr == some sig

/-- The outcome of a complete test of partition p (R416). -/
def sliceOutcome (s : Chip) (d : Die) (p : Nat) (ok : Bool) : Chip :=
  ((s.put d (BIST_PART p) BIST_PART.RESULT (if ok then 1 else 2)).put d (BIST_PART p) BIST_PART.AGE 0).cond (!ok) fun s =>
    s.report d (84 + p)

/-- BIST_SLICE of the periodic pointer (R414 to R416). -/
def periodicSlice (s : Chip) (d : Die) (finished : Bool) (response : Word) : Chip :=
  let p := s.get d BIST_STAT BIST_STAT.PART
  let k := s.get d BIST_STAT BIST_STAT.SLICE
  if !finished then (s.sliceIncomplete d p).bistRestart d
  else
    let t := s.sliceRun d p k (Config.vendorSeed p) response
    if k < 7 then t.put d BIST_STAT BIST_STAT.SLICE (k + 1)
    else ((t.sliceOutcome d p (t.misrIs d (Config.vendorSig p))).bistRestart d).put d BIST_STAT BIST_STAT.PART ((p + 1) % 24)

/-- The row tests of a BIST window in RUN (R421), with the window that comes next. -/
def periodicRows (s : Chip) (d : Die) (fails : List (Nat × Nat × Option Nat)) : Chip :=
  let j := (s.die d).bist.window
  ((s.testRows d j fails).updBist d fun x => { x with window := (j + 1) % 192 }).cond (j == 191) fun s => s.inc d BIST_STAT BIST_STAT.CYCLES

/-- A programmed run ends (R418, R419). -/
def endRun (s : Chip) (d : Die) (st : Nat) : Chip :=
  (((s.put d BIST_RUN BIST_RUN.STATE st).put d BIST_STAT BIST_STAT.RUNNING 0).updBist d fun x =>
    { x with run := none, held := [] }).bistRestart d

/-- The run goes on, or ends where nothing is left to test. -/
def stepRun (s : Chip) (d : Die) (r : BistRun) : Chip :=
  if r.parts.isEmpty && r.rows == 0 then s.endRun d (if r.failed then 3 else 2)
  else s.updBist d fun x => { x with run := some r }

/-- The slices of a test: 8, or the host's (R418). -/
def runSlices (s : Chip) (d : Die) (r : BistRun) : Nat :=
  let n := s.get d BIST_PROG BIST_PROG.SLICES
  if r.custom && n != 0 then n else 8

/-- The seed and the signature of a test of partition p in a run: the vendor's, or the host's of BIST_PROG and BIST_EXPSIG (R418). -/
def runSeed (s : Chip) (d : Die) (r : BistRun) (p : Nat) : Nat := if r.custom then s.get d BIST_PROG BIST_PROG.SEED else Config.vendorSeed p
def runSig (s : Chip) (d : Die) (r : BistRun) (p : Nat) : Word := if r.custom then s.reg d BIST_EXPSIG else Config.vendorSig p

/-- One window of a programmed run (R418, R419). The partition's blocks are held from its first slice to its last, also where one is cut short
between; the rows of the window are tested beside the slice (R421). -/
def runWindow (s : Chip) (d : Die) (r : BistRun) (finished : Bool) (response : Word) (fails : List (Nat × Nat × Option Nat)) : Chip :=
  match r.parts with
  | p :: rest =>
    let s := (s.cond (s.bit d BIST_CFG BIST_CFG.PERIODIC) fun s => s.periodicRows d fails).updBist d fun x => { x with held := partBlocks p }
    if !finished then (s.sliceIncomplete d p).stepRun d { r with slice := 0 }
    else
      let t := s.sliceRun d p r.slice (s.runSeed d r p) response
      if r.slice + 1 < s.runSlices d r then t.stepRun d { r with slice := r.slice + 1 }
      else
        let ok := t.misrIs d (s.runSig d r p)
        let t := (t.cond (!r.custom) fun s => s.sliceOutcome d p ok).cond (!ok && !r.failed) fun s => s.put d BIST_RUN BIST_RUN.PART p
        (t.updBist d fun x => { x with held := [] }).stepRun d { r with parts := rest, slice := 0, failed := r.failed || !ok }
  | [] =>
    let j := 192 - r.rows
    let bad := windowRows j fails
    let mask := bad.foldl (fun m f => m ||| 2 ^ f.1) (s.get d BIST_RUN BIST_RUN.MACROS)
    ((s.put d BIST_RUN BIST_RUN.MACROS mask).testRows d j fails).stepRun d { r with rows := r.rows - 1, failed := r.failed || bad != [] }

/-- A die reset falls within a slice (R415): it is cut short. -/
def cutSlice (s : Chip) (d : Die) : Chip :=
  match s.slicing d with
  | some p => (s.sliceIncomplete d p).bistRestart d
  | none => s

/-- BIST_SLICE (R413 to R424): the BIST window of every eighth line. `finished` is whether the slice ended within its window, `response`
what the scan chains returned, `fails` the failing rows of the window. -/
def bistSlice (d : Die) (finished : Bool) (response : Word) (fails : List (Nat × Nat × Option Nat)) (s : Chip) : Chip :=
  if !(s.runsOn d 8 && s.stroke d % 32 == 2 && s.get d PWR_STATE PWR_STATE.STATE == 0) then s else
  let done := finished && !(s.degraded d)
  match (s.die d).bist.run with
  | some r => s.runWindow d r done response fails
  | none => if s.bit d BIST_CFG BIST_CFG.PERIODIC then (s.periodicSlice d done response).periodicRows d fails else s

/-- SELFTEST_RUN (R418): a programmed run starts; one that runs goes on. -/
def startRun (s : Chip) (d : Die) (kind part : Nat) : Chip :=
  if (s.die d).bist.run.isSome then s else
  let parts := if kind = 1 then [] else if part = 0xFF then List.range 24 else [part]
  let r : BistRun := ⟨kind, s.bit d BIST_PROG BIST_PROG.CUSTOM, parts, 0, if kind = 0 then 0 else 192, false⟩
  (((s.setReg d BIST_RUN 1).put d BIST_STAT BIST_STAT.RUNNING 1).updBist d fun x => { x with run := some r, held := [] })

/-- BIST_ABORT (R419). -/
def bistAbort (s : Chip) (d : Die) : Chip := if (s.die d).bist.run.isSome then s.endRun d 4 else s

/-! ### Unit elements (R425 to R427) -/

/-- The next channel of the rotation that is tested: connected, and not failed. -/
def nextElemChannel (s : Chip) (d : Die) : Option Nat :=
  let from_ := (s.die d).bist.elemNext
  ((List.range 18).map fun i => (from_ + i) % 18).find? fun c =>
    !((s.get d BIST_CHFAIL BIST_CHFAIL.FAILED).testBit c) && (decide (16 ≤ c) || decide (c < s.cells d))

/-- A CAL substitution is pending or runs. -/
def calWaits (s : Chip) (d : Die) : Bool :=
  s.calState d == 4 || (s.die d).cal.pass.any fun p => !(p.items.isEmpty) || !(p.running.isEmpty)

/-- ELEMENT_TEST_START (R425). -/
def elementTestStart (d : Die) (s : Chip) : Chip :=
  let pl := s.line d % 256
  let st := s.spareState d
  let ok := s.runsOn d 8 && s.lineStroke d == 0 && !(s.entering d) && s.bit d BIST_CFG BIST_CFG.ELEM_EN && decide (32 ≤ pl) && decide (pl < 200)
    && !((s.die d).bist.pageDone) && (s.die d).bist.elem.isNone && (st == 0 || st == 4) && (s.die d).cfe.repair.isNone
    && !(s.owdWaits d) && !(s.calWaits d)
  match s.nextElemChannel d with
  | some c =>
    if !ok then s else
    (s.updBist d fun x => { x with elem := some (c, s.line d), elemNext := (c + 1) % 18, pageDone := true }).cond (st == 0) fun s =>
      s.spareEnter d 3 c
  | none => s

/-- The units whose reading differs from the median of the 8 by more than 1% (R425). -/
def badUnits (readings : List Int) : Nat :=
  let l := (List.range 8).map fun u => readings.getD u 0
  let two := 2 * median l
  (List.range 8).foldl (fun m u => if two.natAbs < (100 * (2 * l.getD u 0 - two)).natAbs then m + 2 ^ u else m) 0

/-- ELEMENT_TEST_VERDICT (R425 to R427) at L + 9. A COMMITTED spare tested in place leaves INVALID with it (R67, R458). -/
def elementTestVerdict (d : Die) (readings : List Int) (s : Chip) : Chip :=
  match (s.die d).bist.elem with
  | none => s
  | some (c, l) =>
    if !(s.runsOn d 8 && s.lineStroke d == 0 && decide (l + 9 ≤ s.line d)) then s else
    let marked := s.get d (BIST_ELEM c) BIST_ELEM.MARKED ||| badUnits readings
    let t := ((s.put d (BIST_ELEM c) BIST_ELEM.MARKED marked).put d (BIST_ELEM c) BIST_ELEM.AGE 0).updBist d fun x => { x with elem := none }
    let t := (t.spareRelease d 3).cond (c == 16 && t.spareState d == 4) fun s => s.settleChannel d 16
    let t := t.cond (decide (4 < bitCount 8 marked)) fun s => s.failChannel d c
    t.cond (marked &&& t.get d (CAL_CHST c) CAL_CHST.ELEM != 0) fun s => s.calPendingOther d

/-- CHANNEL_REPAIR (R45, R428): at the line boundary REPAIR takes the spare from any other owner. -/
def channelRepair (d : Die) (c : Nat) (s : Chip) : Chip :=
  if !(s.runsOn d 1 && s.lineStroke d == 0 && (s.die d).cfe.repair == some c) then s else
  let owner := s.spareOwner d
  let t := if owner = 1 then s.abandonTest d
    else if owner = 2 then (match (s.die d).cal.pass with
      | some p => s.each (p.running.map (·.code)) fun k s => s.endItem d k 4
      | none => s)
    else if owner = 3 then s.updBist d fun x => { x with elem := none }
    else s
  (t.updCfe d fun x => { x with repair := none }).spareEnter d 4 c

/-- What self-test marks, remaps and repairs as the repair fuses record it (R431). -/
def repairRecord (s : Chip) (d : Die) : FuseX :=
  let x := (s.die d).bist
  { factory := (s.die d).lcy.fuses.factory, rows := x.rows, cols := x.cols
    marked := (List.range 18).filterMap fun c =>
      let m := s.get d (BIST_ELEM c) BIST_ELEM.MARKED
      if m = 0 then none else some (c, m)
    target := if s.spareState d = 4 ∧ s.spareTarget d ≠ 0x1F then some (s.spareTarget d) else none
    spareFail := s.bit d BIST_REPAIR BIST_REPAIR.SPAREFAIL
    shadow := (s.die d).cfe.shadowOnly }

/-- A write of BIST_FUSE.GO is refused (R431): outside SERVICE, or while the pump is busy with a lifecycle operation. -/
def fuseRefusal (s : Chip) (d : Die) : Option (Nat × Nat) :=
  if s.lifecycle d ≠ 3 then some (0x14, s.lifecycle d)
  else if s.bit d LCY_STATE LCY_STATE.PUMP && !((s.die d).bist.pump) then some (0x12, 0)
  else none

/-- BIST_FUSE_GO (R431). -/
def bistFuseGo (s : Chip) (d : Die) : Chip :=
  if (s.fuseRefusal d).isSome then s
  else ((s.put d BIST_FUSE BIST_FUSE.BUSY 1).put d LCY_STATE LCY_STATE.PUMP 1).updBist d fun x => { x with pump := true }

/-- FUSE_PROGRAMMING_DONE (R431): a mismatch at read-back sets ERR; whether the fuses hold the record is then free. -/
def fuseProgrammingDone (d : Die) (ok : Bool) (s : Chip) : Chip :=
  if !(s.runs d && (s.die d).bist.pump) then s else
  let r := s.repairRecord d
  let taken := ok || Config.freeNat s.free % 2 == 1
  let t := ((s.put d BIST_FUSE BIST_FUSE.BUSY 0).put d BIST_FUSE BIST_FUSE.DONE 1).cond (!ok) fun s => s.put d BIST_FUSE BIST_FUSE.ERR 1
  let t := (t.put d LCY_STATE LCY_STATE.PUMP 0).updBist d fun x => { x with pump := false }
  let t := t.cond taken fun s =>
    ((s.upd d fun x => { x with lcy := { x.lcy with fuses := r } }).putB d BIST_REPAIR BIST_REPAIR.FUSED r.target.isSome).each
      (List.range 18) fun m s => s.putB d (BIST_MAC m) BIST_MAC.FUSED ((r.rows ++ r.cols).any (·.1 == m))
  t.draw

/-- The line- and page-scheduled ages of self-test. -/
def bistLine (d : Die) (s : Chip) : Chip :=
  if s.line d % 8 ≠ 0 then s else s.each (List.range 24) fun p s => s.inc d (BIST_PART p) BIST_PART.AGE
def bistPage (d : Die) (s : Chip) : Chip :=
  (s.each (List.range 18) fun c s => s.inc d (BIST_ELEM c) BIST_ELEM.AGE).updBist d fun x => { x with pageDone := false }

/-- SELFTEST_RUN as a command forms it (Table 10.4). -/
def formSelftest (s : Chip) (d : Die) (q : List Byte) : Formed :=
  let lcy := s.lifecycle d
  if lcy = 2 ∨ lcy = 4 then .refuse 0x14 lcy
  else if 2 < p8 q 0 then .refuse 0x10 8
  else if 23 < p8 q 1 ∧ p8 q 1 ≠ 0xFF then .refuse 0x10 9
  else .ok [] [.act 0xA0 q]

end Chip

/-- BIST_SLICE (R413). -/
def execBistSlice (d : Die) (finished : Bool) (response : Word) (rowFails : List (Nat × Nat × Option Nat)) (s : State) :
    Host.Outcome State Fault Refusal :=
  s.run (Chip.bistSlice d finished response rowFails)

/-- ELEMENT_TEST_START (R425). -/
def execElementTestStart (d : Die) (s : State) : Host.Outcome State Fault Refusal := s.run (Chip.elementTestStart d)

/-- ELEMENT_TEST_VERDICT (R425): the readings of units 0 to 7. -/
def execElementTestVerdict (d : Die) (readings : List Int) (s : State) : Host.Outcome State Fault Refusal :=
  s.run (Chip.elementTestVerdict d readings)

/-- CHANNEL_REPAIR (R428). -/
def execChannelRepair (d : Die) (c : Nat) (s : State) : Host.Outcome State Fault Refusal := s.run (Chip.channelRepair d c)

/-- BIST_FUSE_GO (R431). -/
def execBistFuseGo (d : Die) (s : State) : Host.Outcome State Fault Refusal :=
  s.run fun c => if c.fitted d && c.on d 0 then c.bistFuseGo d else c

/-- FUSE_PROGRAMMING_DONE (R431). -/
def execFuseProgrammingDone (d : Die) (readbackOk : Bool) (s : State) : Host.Outcome State Fault Refusal :=
  s.run (Chip.fuseProgrammingDone d readbackOk)

/-- BIST_ABORT (R419). -/
def execBistAbort (d : Die) (s : State) : Host.Outcome State Fault Refusal :=
  s.run fun c => if c.fitted d && c.on d 0 && c.lifecycle d != 4 then c.bistAbort d else c

end Sys2Proof.Machine
end

