-- ==== Sys2Proof/Machine/Lcy.lean ====
section
/-! DEFINITION. The lifecycle of a die: its states and transitions, authority by challenge and response, and the key fuses
(chapter Self-Test and Repair, R432 to R437). -/
namespace Sys2Proof.Machine

namespace Chip

/-- The lifecycle structure of a die changed. -/
def updLcy (s : Chip) (d : Die) (f : LcyX → LcyX) : Chip := s.upd d fun x => { x with lcy := f x.lcy }

/-- Slots programmed and not revoked. -/
def usableSlots (s : Chip) (d : Die) : List Nat :=
  [0, 1, 2, 3].filter fun i => (s.get d LCY_KEYS LCY_KEYS.PROG).testBit i && !((s.get d LCY_KEYS LCY_KEYS.REVOKED).testBit i)

/-- The transitions of Table 16.4. -/
def transitionListed (a b : Nat) : Bool :=
  [(0, 1), (1, 2), (1, 4), (2, 3), (3, 2), (2, 4), (3, 4)].contains (a, b)

/-- The first condition of a listed transition that is not met (R434). -/
def transitionBlocker (s : Chip) (d : Die) (a b : Nat) : Option Nat :=
  if a = 1 ∧ b = 2 ∧ s.usableSlots d = [] then some 1
  else if a = 1 ∧ b = 2 ∧ !(s.bit d LCY_KEYS LCY_KEYS.SKEY) then some 2
  else if 2 ≤ a ∧ !(s.bit d LCY_STATE LCY_STATE.AUTH) then some 3
  else if s.bit d LCY_STATE LCY_STATE.PUMP then some 4
  else none

/-- LCY_ADVANCE as a command forms it (R434): the transition, the confirmation bytes, the conditions. The effect carries
the target, and the die and SEQ that the answer belongs to. -/
def formAdvance (s : Chip) (d : Die) (seq : Nat) (q : List Byte) : Formed :=
  let a := s.lifecycle d
  let b := p8 q 0
  if !(transitionListed a b) then .refuse 0x14 a
  else if p8 q 1 ≠ 0x5A ∨ p8 q 2 ≠ 0xA5 ∨ p8 q 3 ≠ 0x3C then .refuse 0x10 9
  else match s.transitionBlocker d a b with
    | some n => .refuse 0x12 n
    | none => .relay 0 0 0 0 [.act 0xE3 (leBytes 1 b ++ leBytes 1 d.val ++ leBytes 2 seq)]

/-- The core stops for good in RETIRED: stopped, with no event of source 155 (Table 16.3). -/
def retireCore (s : Chip) (d : Die) : Chip :=
  ((s.put d CMD_STAT CMD_STAT.FWSTATE 4).put d CMD_STAT CMD_STAT.LOOP 0).settleExecuting d

/-- A lifecycle state comes into force (R432, R433): authority is used up, the pump is free; SERVICE is held in D0 over fused
FIELD; FIELD and RETIRED fix the self-test enables; RETIRED stops the core and the stage. -/
def enterLifecycle (s : Chip) (d : Die) (st : Nat) : Chip :=
  let t := ((s.put d LCY_STATE LCY_STATE.STATE st).put d LCY_STATE LCY_STATE.AUTH 0).updLcy d fun x =>
    { x with state := if st = 3 then 2 else st, target := none }
  let t := t.cond (st == 2 || st == 4) fun s => (s.put d BIST_CFG BIST_CFG.PERIODIC 1).put d BIST_CFG BIST_CFG.ELEM_EN 1
  t.cond (st == 4) fun s => (s.stageRetire d).retireCore d

/-- The outcome of a transition in force, toward the die that answers for it (R283, R434): another die's outcome waits for its
relay; the destination's own joins its entry, which is answered once every live die's has come. -/
def reportTransition (s : Chip) (d dst : Die) (seq : Nat) : Chip :=
  if dst ≠ d then s.updJnl d fun j => { j with outcomes := j.outcomes ++ [(dst, seq, 0, 0)] } else
  match s.entry? d seq with
  | none => s
  | some e =>
    let e' := { e with doneMask := e.doneMask ||| 2 ^ d.val }
    let t := s.updEntry d seq fun _ => e'
    if s.liveDies.all fun k => e'.seenMask.testBit k.val then t.answerRelay d e' else t

/-- The effect of LCY_ADVANCE at a die (R433, R434): a transition to or from SERVICE is in force at once; one held in fuses
starts the pump. -/
def applyAdvance (d : Die) (q : List Byte) (s : Chip) : Chip :=
  let st := p8 q 0
  let dst : Die := Fin.ofNat 8 (p8 q 1)
  if st = 3 ∨ (st = 2 ∧ s.lifecycle d = 3) then (s.enterLifecycle d st).reportTransition d dst (p16 q 2)
  else ((s.put d LCY_STATE LCY_STATE.PUMP 1).put d LCY_STATE LCY_STATE.AUTH 0).updLcy d fun x =>
    { x with target := some (st, p8 q 1, p16 q 2) }

/-- LIFECYCLE_TRANSITION_DONE (R434): the fuses are programmed, and the new state is in force. -/
def lifecycleTransitionDone (d : Die) (s : Chip) : Chip :=
  match (s.die d).lcy.target with
  | some (st, dst, seq) =>
    if s.runs d then ((s.put d LCY_STATE LCY_STATE.PUMP 0).enterLifecycle d st).reportTransition d (Fin.ofNat 8 dst) seq else s
  | none => s

/-! ### Challenge and response (R435) -/

/-- A new nonce of 32 bytes. -/
def newNonce (s : Chip) : List Byte := (List.range 32).map fun i => Config.nonceByte s.free i

/-- LCY_CHALLENGE as a command forms it. -/
def formChallenge (s : Chip) (d : Die) : Formed :=
  if 8 ≤ s.get d LCY_STATE LCY_STATE.AUTHFAIL ∨ !(s.bit d LCY_KEYS LCY_KEYS.SKEY) then .refuse 0x16 0
  else .ok s.newNonce [.act 0xE1 s.newNonce]

/-- The nonce of a challenge is in force, and voids any earlier one. -/
def applyChallenge (d : Die) (q : List Byte) (s : Chip) : Chip := s.updLcy d fun x => { x with nonce := some q, age := 0 }

/-- The signature of LCY_RESPONSE verifies. -/
def responseOk (s : Chip) (d : Die) (sig : List Byte) : Bool :=
  match (s.die d).lcy.nonce with
  | none => false
  | some n => ecdsaVerify (s.die d).lcy.serviceKey
      (sha256 (n ++ leBytes 4 (s.reg d LCY_UID_LO).toNat ++ leBytes 4 (s.reg d LCY_UID_HI).toNat)) sig

/-- LCY_RESPONSE as a command forms it. -/
def formResponse (s : Chip) (d : Die) (q : List Byte) : Formed :=
  if s.responseOk d q then .ok [] [.act 0xE2 [1]] else .failed 0x16 0 [.act 0xE2 [0]]

/-- The effect of LCY_RESPONSE: the nonce serves once; authority is granted, or the failure is counted and reported. -/
def applyResponse (d : Die) (q : List Byte) (s : Chip) : Chip :=
  let t := s.updLcy d fun x => { x with nonce := none }
  if p8 q 0 = 1 then (t.updLcy d fun x => { x with authAge := x.age }).put d LCY_STATE LCY_STATE.AUTH 1 else (t.inc d LCY_STATE LCY_STATE.AUTHFAIL).report d 165

/-- The page-scheduled age of a challenge: nonce and authority end after 1,875 pages. -/
def lcyPage (d : Die) (s : Chip) : Chip :=
  let age := (s.die d).lcy.age + 1
  let auth := (s.die d).lcy.authAge + 1
  let t := s.updLcy d fun x => { x with age := min age 1876, authAge := min auth 1876 }
  let t := t.cond (decide (1875 < age)) fun s => s.updLcy d fun x => { x with nonce := none }
  t.cond (decide (1875 < auth)) fun s => s.put d LCY_STATE LCY_STATE.AUTH 0

/-! ### Key fuses (R436) -/

/-- Why a write of LCY_FUSECMD with GO is refused: status and DETAIL. -/
def keyOpRefusal (s : Chip) (d : Die) (op slot : Nat) : Option (Nat × Nat) :=
  let st := s.lifecycle d
  let prog := s.get d LCY_KEYS LCY_KEYS.PROG
  if (op = 2 ∧ st ≠ 1 ∧ st ≠ 3) ∨ (op ≠ 2 ∧ 1 < st) then some (0x14, st)
  else if s.bit d LCY_STATE LCY_STATE.PUMP then some (0x12, 0)
  else if (op = 1 ∧ prog.testBit slot) ∨ (op = 3 ∧ s.bit d LCY_KEYS LCY_KEYS.SKEY)
    ∨ (op = 2 ∧ st = 3 ∧ (s.usableSlots d).all (· == slot)) then some (0x10, 0)
  else none

/-- A key fuse operation starts: the bytes to program are taken from the fuse data words. -/
def keyOp (s : Chip) (d : Die) (op slot : Nat) : Chip :=
  if op = 0 ∨ (s.keyOpRefusal d op slot).isSome then s else
  let bytes := ((List.range 16).map fun n => leBytes 4 (s.reg d (LCY_FUSEDATA n)).toNat).flatten
  ((s.put d LCY_FUSECMD LCY_FUSECMD.BUSY 1).put d LCY_STATE LCY_STATE.PUMP 1).updLcy d fun x =>
    { x with keyOp := some (op, slot, bytes) }

/-- A write of LCY_FUSECMD: ERR is sticky and clears where 1 is written; GO starts the operation. -/
def writeFuseCmd (s : Chip) (d : Die) (w : Word) : Chip :=
  (s.cond (LCY_FUSECMD.ERR.read w == 1) fun s => s.put d LCY_FUSECMD LCY_FUSECMD.ERR 0).cond (LCY_FUSECMD.GO.read w == 1) fun s =>
    s.keyOp d (LCY_FUSECMD.OP.read w) (LCY_FUSECMD.SLOT.read w)

/-- What the key fuses hold after an operation. -/
def setKeys (s : Chip) (d : Die) (op slot : Nat) (bytes : List Byte) : Chip :=
  let t := s.updLcy d fun x =>
    if op = 1 then { x with keyHash := x.keyHash.set slot (beValue (bytes.take 32)), prog := x.prog ||| 2 ^ slot }
    else if op = 2 then { x with revoked := x.revoked ||| 2 ^ slot }
    else { x with serviceKey := bytes, skey := 1 }
  let x := (t.die d).lcy
  ((t.put d LCY_KEYS LCY_KEYS.PROG x.prog).put d LCY_KEYS LCY_KEYS.REVOKED x.revoked).put d LCY_KEYS LCY_KEYS.SKEY x.skey

/-- KEY_FUSE_PROGRAMMING_DONE (R436): a mismatch at read-back sets ERR; whether the operation's mark is fused, and the bytes that
are, are then free. -/
def keyFuseProgrammingDone (d : Die) (ok : Bool) (s : Chip) : Chip :=
  match (s.die d).lcy.keyOp with
  | none => s
  | some (op, slot, bytes) =>
    if !(s.runs d) then s else
    let t := ((s.put d LCY_FUSECMD LCY_FUSECMD.BUSY 0).put d LCY_STATE LCY_STATE.PUMP 0).updLcy d fun x => { x with keyOp := none }
    if ok then t.setKeys d op slot bytes else
    let u := (t.put d LCY_FUSECMD LCY_FUSECMD.ERR 1).draw
    u.cond (Config.freeNat s.free % 2 == 1) fun s => s.setKeys d op slot ((List.range 64).map fun i => Config.ramByte i s.free)

end Chip

/-- LCY_STATUS (R437): the state byte, three zeros, and LCY_KEYS. -/
def execLcyStatus (d : Die) (seq : Nat) (s : State) : Host.Outcome State Fault Refusal :=
  s.run fun c => c.executeEntry d seq 0xE0 0x2A fun t _ =>
    .ok (leBytes 1 (t.reg d LCY_STATE).toNat ++ [0, 0, 0] ++ leBytes 4 (t.reg d LCY_KEYS).toNat) []

/-- LCY_CHALLENGE (R435). -/
def execLcyChallenge (d : Die) (seq : Nat) (s : State) : Host.Outcome State Fault Refusal :=
  s.run fun c => (c.executeEntry d seq 0xE1 0x2A fun t _ => t.formChallenge d).draw

/-- LCY_RESPONSE (R435). -/
def execLcyResponse (d : Die) (seq : Nat) (s : State) : Host.Outcome State Fault Refusal :=
  s.run fun c => c.executeEntry d seq 0xE2 0x2A fun t q => t.formResponse d q

/-- LCY_ADVANCE (R434). -/
def execLcyAdvance (d : Die) (seq : Nat) (s : State) : Host.Outcome State Fault Refusal :=
  s.run fun c => c.executeEntry d seq 0xE3 0x2A fun t q => t.formAdvance d seq q

/-- LIFECYCLE_TRANSITION_DONE (R434). -/
def execLifecycleTransitionDone (d : Die) (s : State) : Host.Outcome State Fault Refusal :=
  s.run (Chip.lifecycleTransitionDone d)

/-- PROGRAM_SLOT (R436). -/
def execProgramSlot (d : Die) (slot : Fin 4) (s : State) : Host.Outcome State Fault Refusal :=
  s.run fun c => if c.fitted d && c.on d 0 then c.keyOp d 1 slot.val else c

/-- REVOKE_SLOT (R436). -/
def execRevokeSlot (d : Die) (slot : Fin 4) (s : State) : Host.Outcome State Fault Refusal :=
  s.run fun c => if c.fitted d && c.on d 0 then c.keyOp d 2 slot.val else c

/-- PROGRAM_SERVICE_KEY (R436). -/
def execProgramServiceKey (d : Die) (s : State) : Host.Outcome State Fault Refusal :=
  s.run fun c => if c.fitted d && c.on d 0 then c.keyOp d 3 0 else c

/-- KEY_FUSE_PROGRAMMING_DONE (R436). -/
def execKeyFuseProgrammingDone (d : Die) (readbackOk : Bool) (s : State) : Host.Outcome State Fault Refusal :=
  s.run (Chip.keyFuseProgrammingDone d readbackOk)

end Sys2Proof.Machine
end

