-- ==== Sys2Proof/Machine/Power.lean ====
section
/-! DEFINITION. Power: domains, performance levels, the entry into a power state, its commit and its abandonment, the wake
events, the nightcap check and the supply (chapter Power Domains, Performance Levels and Sleep). -/
namespace Sys2Proof.Machine

/-- The entry steps that a power state asks (R393). -/
def entrySteps (target : Nat) : List Nat := if target = 1 then [1, 3, 4, 6] else [1, 2, 3, 4, 5, 6, 7]

/-- The step after one. -/
def nextStep (target n : Nat) : Option Nat := (entrySteps target).find? fun k => decide (n < k)

/-- The block being asked in a step: the first that Table 15.4 names. -/
def stepBlock (n : Nat) : Nat := [0, 0x29, 0x05, 0x11, 0x10, 0x01, 0x20, 0x07].getD n 0

/-- The domain of a step (Table 15.4). -/
def stepDomain (n : Nat) : Nat := [0, 8, 7, 4, 3, 1, 5, 6].getD n 0

/-- The domains that restart after an abort point, in order (Table 15.6). -/
def restartOrder (target ap : Nat) : List Nat :=
  ((entrySteps target).filter fun n => decide (n ≤ min 6 ap)).reverse.map stepDomain

/-- The switched domain that holds a block's registers (R386, Table 10.10); 0 for D0 and for no block. -/
def domainOf (plane block : Nat) : Nat :=
  if plane = 1 then
    if block = 1 ∨ block = 3 ∨ block = 4 then 1 else if block = 2 then 2 else if block = 5 ∨ block = 6 then 7
    else if block = 7 then 6 else 0
  else if plane = 0 then (if block = 0x10 then 3 else if block = 0x11 ∨ block = 0x12 ∨ block = 0x13 then 4 else 0)
  else if plane = 2 then (if block = 0x22 then 5 else if block = 0x25 ∨ block = 0x29 then 8 else 0)
  else 0

/-- The registers of the current leveller, which is in D0 while the rest of block CXS is in D3 (Table 15.1, R169). -/
def levellerReg (a : Nat) : Bool := a == CXS_LEVEL || a == CXS_LEVSTAT

/-- The domain of the register at an address, and of a snapshot word the domain of its block (R384). -/
def addrDomain (a : Nat) : Nat :=
  let plane := a / 0x8000000 % 4
  let block := a / 0x100000 % 128
  let chan := a / 0x1000 % 256
  if levellerReg (a % 0x20000000) then 0
  else if plane = 2 ∧ block = 0x27 then max (domainOf 0 chan) (max (domainOf 1 chan) (domainOf 2 chan)) else domainOf plane block

/-- The die of a full address (R19). -/
def addrDie (a : Nat) : Nat := a / 0x20000000

/-- What a register reads after its domain lost its values: the fields held in D0 keep theirs, and over a power-down (`snap`) a field
that only a die reset unlocks (R7, R9). A snapshot word of a powered-down block reads 0 (R384). -/
def keptWord (a : Nat) (w : Word) (snap : Bool) : Word :=
  match regDesc a with
  | some r => if snap && a / 0x8000000 % 4 == 2 && a / 0x100000 % 128 == 0x27 then 0
    else r.fields.foldl (fun v f => if f.keep || (snap && f.ty == .lck) then f.fld.write v (f.fld.read w) else v) (resetOf r.fields)
  | none => 0

/-- What the hidden state of a die keeps when domain k loses its values. -/
def DieX.lose (x : DieX) (k : Nat) : DieX :=
  match k with
  | 1 => { x with
      cfe := { CfeX.reset with invalid := x.cfe.invalid, shadowOnly := x.cfe.shadowOnly, repair := x.cfe.repair }
      owd := { OwdX.reset with marked := x.owd.marked }, eis := EisX.reset }
  | 2 => { x with shd := ShdX.reset, pwr := { x.pwr with shdWarm := 0 } }
  | 3 => { x with cxs := { CxsX.reset with
      dummy := x.cxs.dummy, holdDue := x.cxs.holdDue, holdClr := x.cxs.holdClr, pgen := x.cxs.pgen } }
  | 4 => { x with eng := EngX.reset, cxs := { x.cxs with pgen := CxsX.reset.pgen } }
  | 5 => { x with chk := ChkX.reset }
  | 6 => { x with ring := { RingX.reset with
      seqNext := x.ring.seqNext, taken := x.ring.taken, queue := x.ring.queue, orderSent := x.ring.orderSent } }
  | 7 => { x with nib := { x.nib with lanes := NibX.reset.lanes, count := [] } }
  | 8 => { x with
      cal := { x.cal with
        pass := none, service := false, sense := none, senseWait := [0, 0, 0, 0], disRun := 0, okRun := 0, cfgNow := CalX.reset.cfgNow }
      bist := { x.bist with run := none, elem := none, held := [] } }
  | _ => x

namespace Chip

/-- The power controller of a die. -/
def pwr (s : Chip) (d : Die) : PwrX := (s.die d).pwr

/-- The power controller of a die changed. -/
def updPwr (s : Chip) (d : Die) (f : PwrX → PwrX) : Chip := s.upd d fun x => { x with pwr := f x.pwr }

/-- STATE, TARGET and STEP of PWR_STATE. -/
def pwrState (s : Chip) (d : Die) : Nat := s.get d PWR_STATE PWR_STATE.STATE
def pwrTarget (s : Chip) (d : Die) : Nat := s.get d PWR_STATE PWR_STATE.TARGET
def pwrStep (s : Chip) (d : Die) : Nat := s.get d PWR_STATE PWR_STATE.STEP
def setPwr (s : Chip) (d : Die) (st target step : Nat) : Chip :=
  ((s.put d PWR_STATE PWR_STATE.STATE st).put d PWR_STATE PWR_STATE.TARGET target).put d PWR_STATE PWR_STATE.STEP step

/-- The die sleeps: in NIGHTCAP or DEEP its MCLK stands still while D0 is powered. -/
def asleep (s : Chip) (d : Die) : Bool := s.fitted d && s.on d 0 && !((s.pwr d).mclk) && (s.die d).boot.done

/-! ### Domains -/

/-- The registers of die `d` whose address satisfies a test lose what is not held in D0. -/
def loseRegs (s : Chip) (d : Die) (p : Nat → Bool) (snap : Bool) : Chip :=
  let hit := s.regs.filter fun e => addrDie e.1 == d.val && p e.1
  { s with regs := hit.foldl (fun st e => storeSet st e.1 (keptWord e.1 e.2 snap)) s.regs }

/-- Domain k loses what is not held in D0. Kept: the connected cells, a committed spare, the events in force on the stage, and
PENDING of a pass (R391). -/
def loseDomain (s : Chip) (d : Die) (k : Nat) (snap : Bool) : Chip :=
  let spare := s.reg d CFE_SPARE
  let cfg := s.reg d CFE_CONFIG
  let st := s.reg d CXS_STATUS
  let pend := s.get d CAL_STAT CAL_STAT.PENDING
  let t := (s.loseRegs d (fun a => addrDomain a == k) snap).upd d fun x => x.lose k
  if k = 1 then (t.setReg d CFE_CONFIG cfg).cond (CFE_SPARE.STATE.read spare == 4) fun s => s.setReg d CFE_SPARE spare
  else if k = 3 then t.setReg d CXS_STATUS (st &&& 0x33)
  else if k = 7 then t.showNibCount d
  else if k = 8 then t.put d CAL_STAT CAL_STAT.PENDING pend
  else t

/-- Domain k powers down. -/
def powerDown (s : Chip) (d : Die) (k : Fin 9) : Chip :=
  if s.on d k then (s.loseDomain d k.val true).updPwr d fun x => { x with on := x.on.set k false } else s

/-- Several domains power down, in order. -/
def powersDown (s : Chip) (d : Die) (l : List (Fin 9)) : Chip := s.each l fun k s => s.powerDown d k

/-! ### Performance levels (R388, R389) -/

/-- The level that R388 asks for. -/
def wantedLevel (s : Chip) (d : Die) : Nat :=
  let fw := s.get d CMD_STAT CMD_STAT.FWSTATE
  let req := if fw = 3 ∨ fw = 4 then s.get d PWR_CFG PWR_CFG.PLREQ else 1
  if s.degraded d then 0 else min req (s.get d PWR_STATE PWR_STATE.PLCAP)

/-- A forced PL0, by a cap of 0, a dip or the last gasp: the clock switches at once, and a transition ends there (R388, R389, R407). -/
def forceLevel0 (s : Chip) (d : Die) : Chip :=
  ((s.put d PWR_STATE PWR_STATE.PLAPP 0).put d PWR_STATE PWR_STATE.PLBUSY 0).updPwr d fun x => { x with plNext := none }

/-- A transition begins where the wanted level differs; the core runs at the lower of the two frequencies. -/
def startLevel (s : Chip) (d : Die) : Chip :=
  let w := s.wantedLevel d
  let cur := s.get d PWR_STATE PWR_STATE.PLAPP
  if w = cur then s
  else ((s.put d PWR_STATE PWR_STATE.PLAPP (min cur w)).put d PWR_STATE PWR_STATE.PLBUSY 1).updPwr d fun x => { x with plNext := some w }

/-- The sequencer at a stroke edge. -/
def levelEdge (d : Die) (s : Chip) : Chip :=
  let s := s.put d PWR_STATE PWR_STATE.PLCAP (s.get d THM_STAT THM_STAT.PLCAP)
  if (s.pwr d).gasp.isSome || s.degraded d || s.get d PWR_STATE PWR_STATE.PLCAP == 0 then s.forceLevel0 d
  else if s.bit d PWR_STATE PWR_STATE.PLBUSY then s else s.startLevel d

/-- PERF_LEVEL_TRANSITION_END (R389): the level of the transition is applied, and a level requested meanwhile takes effect. -/
def perfLevelTransitionEnd (d : Die) (s : Chip) : Chip :=
  match (s.pwr d).plNext with
  | none => s
  | some w =>
    if s.runs d then (((s.put d PWR_STATE PWR_STATE.PLAPP w).put d PWR_STATE PWR_STATE.PLBUSY 0).updPwr d fun x =>
      { x with plNext := none }).startLevel d
    else s

/-! ### Abandonment and wake events (R397, R398) -/

/-- An entry is marked for abandonment in every live die: outcome, block, reason, die. The first mark stands. -/
def markAbandon (s : Chip) (v : Nat × Nat × Nat × Nat) : Chip :=
  s.each (s.liveDies.filter fun k => s.entering k && (s.pwr k).mclk && (s.pwr k).abandon.isNone) fun k s =>
    s.updPwr k fun x => { x with abandon := some v }

/-- A source of the present wake (Table 15.16). -/
def wakeBit (s : Chip) (d : Die) (b : Nat) : Chip := s.put d PWR_WAKESRC ⟨b, 1⟩ 1

/-- A wake event qualified at die `d`: source bit b of PWR_WAKESRC. It abandons an entry, and wakes a module from DOZE, from
sleep or from OFF; the wake line carries it to the other dies (R30, R390), for a wake burst also where the die is awake (R266). -/
def wakeEvent (s : Chip) (d : Die) (b : Nat) : Chip :=
  let others := allDies.filter fun k => k != d && s.fitted k
  let line := fun (t : Chip) => t.each others fun k s => s.updPwr k fun x => { x with lineDue := true }
  if (s.pwr d).off then (line s).updPwr d fun x => { x with wakeDue := true }
  else if s.asleep d || (s.runs d && s.pwrState d == 1) then
    ((line (s.wakeBit d b)).setPwr d 4 0 0).updPwr d fun x => { x with wakeDue := true }
  else if s.runs d && s.entering d then
    (line (s.wakeBit d b)).markAbandon (3, stepBlock (s.pwrStep d), 0x0E, d.val)
  else s.cond (b == 2 || b == 3) line

/-- The module sends wake bursts (R266): on NA of the top die, on SB of SD0. -/
def sendBursts (s : Chip) (na sb : Bool) : Chip :=
  s.each (allDies.filter s.fitted) fun k s => s.updPwr k fun x => { x with
    burstNA := x.burstNA || (na && s.isTop k), burstSB := x.burstSB || (sb && k == 0) }

/-- WAKE_LINE_ASSERTED (R30, R390, R398). -/
def wakeLineAsserted (d : Die) (s : Chip) : Chip :=
  if !((s.pwr d).lineDue) then s else
  let s := s.updPwr d fun x => { x with lineDue := false }
  if (s.pwr d).off then s.updPwr d fun x => { x with wakeDue := true }
  else if s.asleep d || (s.runs d && s.pwrState d == 1) then
    ((s.wakeBit d 4).setPwr d 4 0 0).updPwr d fun x => { x with wakeDue := true }
  else if s.runs d then
    (s.wakeBit d 4).cond (s.entering d) fun s => s.markAbandon (3, stepBlock (s.pwrStep d), 0x0E, d.val)
  else s

/-- WAKE_PIN (R400): the pins are on J0, at SD0; `ticks` are the sleep ticks for which the pin has held the level. -/
def wakePin (d : Die) (pin : Nat) (level : Bool) (ticks : Nat) (s : Chip) : Chip :=
  if d.val ≠ 0 then s else
  let s : Chip := { s with mod := if pin = 0 then { s.mod with wake0 := level } else { s.mod with wake1 := level } }
  let f := fun (a b : Fld) => if pin = 0 then s.get d PWR_WAKECFG a else s.get d PWR_WAKECFG b
  let en := f PWR_WAKECFG.W0EN PWR_WAKECFG.W1EN == 1 && !(pin == 1 && s.bit d PWR_WAKECFG PWR_WAKECFG.W1OUT)
  let active := level == (f PWR_WAKECFG.W0POL PWR_WAKECFG.W1POL == 0)
  if en && active && decide (f PWR_WAKECFG.W0FILT PWR_WAKECFG.W1FILT + 1 ≤ ticks) then
    (s.cond (s.asleep d || (s.pwr d).off) fun s => s.sendBursts true true).wakeEvent d pin
  else s

/-- WAKE_BURST_DETECTED (R266): at SA of SD0, or at NB of the top die; ignored while the port is UP. -/
def wakeBurstDetected (d : Die) (p : Port) (s : Chip) : Chip :=
  let here := match p with | .a => d == 0 | .b => s.isTop d
  let up := s.on d 6 && s.get d (ULK_PORT (portNo p)) ULK_PORT.STATE == 3
  if !(s.fitted d && here) || up || !(s.on d 0 || (s.pwr d).off) then s else
  let t := (s.put d ULK_RING ULK_RING.WAKE_SEEN 1).put d ULK_RING ULK_RING.WAKE_PORT (portNo p)
  let t := if (s.pwr d).off then s else t
  (t.sendBursts (p == .a) (p == .b)).wakeEvent d (2 + portNo p)

/-- DOZE_COMMAND_WAKE (R391, R398): a command of kind F reaches its turn in DOZE, or after step 6 of an entry. -/
def dozeCommandWake (d : Die) (s : Chip) : Chip :=
  let suspended := s.pwrState d == 1 || (s.entering d && decide (6 ≤ (s.pwr d).passed))
  let waits := (s.die d).jnl.entries.any fun e =>
    s.isTurn d e && !(kindH (pktOpcode e.packet)) && s.frontCheck d e == (none, false)
  if s.runs d && suspended && waits then s.wakeEvent d 6 else s

/-- PWR_WAKE (R398): leaves DOZE or abandons an entry. -/
def pwrWake (d : Die) (s : Chip) : Chip := if s.runs d && (s.pwrState d == 1 || s.entering d) then s.wakeEvent d 7 else s

/-- Pad groups of a mask released whose domains are powered (R399, Table 15.7). -/
def padrel (d : Die) (mask : Nat) (s : Chip) : Chip :=
  let doms : List (Fin 9) := [3, 3, 7, 7, 1, 6]
  let held := s.get d PWR_PAD PWR_PAD.HELD
  let stay := (List.range 6).filter fun g => held.testBit g && !(mask.testBit g && s.on d (doms.getD g 0))
  (s.put d PWR_PAD PWR_PAD.HELD (stay.foldl (fun m g => m + 2 ^ g) 0)).cond (held.testBit 1 && !(stay.contains 1)) fun s => s.padsShow d

/-- The boot ROM's release of groups 2 to 5, at a line boundary. -/
def padLine (d : Die) (s : Chip) : Chip := s.padrel d 0x3C

/-- A write of PWR_CMD (Table 15.13). -/
def writePwrCmd (s : Chip) (d : Die) (w : Word) : Chip :=
  let t := (s.padrel d (PWR_CMD.PADREL.read w)).cond (PWR_CMD.WOCLR.read w == 1) fun s => s.put d PWR_STATE PWR_STATE.WOUT 0
  t.cond (PWR_CMD.WAKE.read w == 1) fun s => s.pwrWake d

/-! ### The entry handshake (R393 to R395) -/

end Chip

/-- What the blocks of a step answer (R393); each of several may need more strokes. -/
inductive Answer where
  | ack
  | delay (blocks : List Nat)
  | refuse (block reason : Nat)
  deriving DecidableEq, Repr

namespace Chip

/-- A lane start or a census still to run at a lane, or a stream cycle (Table 15.4, step 2). -/
def laneBusy (s : Chip) (d : Die) (q : Nat) : Bool :=
  let l := s.lane d q
  let free := s.bit d (QLN_CFG q) QLN_CFG.EN && !(s.bit d (QLN_STAT q) QLN_STAT.SHORT) && !l.stopped
  (s.laneMode d q == 3 && !l.edge) || free && (l.start || (l.census && !(s.mode d FOL_MODENOW.NSRCH) && (s.laneMode d q == 1 || s.laneMode d q == 3)))

/-- No beacon has been usable at either port for 8 strokes (R395). -/
def quietRing (s : Chip) (d : Die) : Bool := decide (8 ≤ (s.die d).ring.missRunA) && decide (8 ≤ (s.die d).ring.missRunB)

/-- Whether RSP or EVENT frames wait in the die's queue. -/
def framesWait (s : Chip) (d : Die) : Bool := (s.die d).ring.queue.any fun f => f.ftype == 3 || f.ftype == 5

/-- The answer of the blocks of a step (Table 15.4). -/
def stepAnswer (s : Chip) (d : Die) (n : Nat) : Answer :=
  match n with
  | 1 =>
    if (s.die d).bist.run.isSome then .refuse 0x29 0x02
    else if s.calState d == 3 || (s.die d).cal.service then .refuse 0x25 0x01
    else if s.spareOwner d == 2 && s.spareState d != 0 then .delay [0x25] else .ack
  | 2 => if s.laneBusy d 0 || s.laneBusy d 1 then .delay [0x05] else .ack
  | 3 => if s.get d INJ_CAPSTAT INJ_CAPSTAT.STATE == 2 then .refuse 0x11 0x03 else .ack
  | 4 => if s.stageFree d then .ack else .delay [0x10]
  | 5 =>
    let out := s.spareState d != 0 && s.spareState d != 4
    let owd := (s.die d).owd.test.isSome || (s.die d).owd.step.isSome || (out && s.spareOwner d == 1)
    if owd || out then .delay ((if owd then [0x03] else []) ++ if out then [0x01] else []) else .ack
  | 6 =>
    let ld := s.get d BOOT_LOAD BOOT_LOAD.STATE
    if ld == 1 || ld == 2 then .refuse 0x20 0x04
    else if s.bit d LCY_STATE LCY_STATE.PUMP then .refuse 0x20 0x05
    else if (s.die d).jnl.entries.any (fun e => e.st == .executing || e.st == .committed) || s.bit d FOL_STAT FOL_STAT.PENDING then
      .delay [0x20]
    else .ack
  | 7 => if s.quietRing d && s.streamLevel d == 0 && !(s.framesWait d) then .ack else .delay [0x07]
  | _ => .ack

/-- What the blocks of a step do when it is first asked: a background pass and an element test end; the stage begins its stop
ramps (Table 06.3) and the active sweepers end (Table 05.5); at step 7 the module is SETTLED (R395). -/
def stepBegin (s : Chip) (d : Die) (n : Nat) : Chip :=
  match n with
  | 1 => match s.stepAnswer d 1 with
    | .refuse _ _ => s
    | _ => ((s.abandonPass d true).updBist d fun x => { x with elem := none }).spareGiveUp d 3
  | 4 => (s.stopActive d 0x09).stageSleep d
  | 7 => (s.put d PWR_STATE PWR_STATE.STATE 3).updPwr d fun x => { x with relStrokes := 0 }
  | _ => s

/-- What an ACK of a step stops: the host's injection generators, and a capture about to start (step 3). -/
def stepStop (s : Chip) (d : Die) (n : Nat) : Chip :=
  if n ≠ 3 then s else
  (s.updEng d fun e => { e with cap := { e.cap with start := false } }).each ([0, 1, 2, 3].filter fun k => !(s.bit d (INJ_STAT k) INJ_STAT.OWNER)) fun k s =>
    ((s.put d (INJ_STAT k) INJ_STAT.RUNNING 0).put d (INJ_STAT k) INJ_STAT.OUT 0).updEng d fun e =>
      { e with gens := e.gens.set k GenX.reset }

/-- The front-ends stop together as step 5 ends; open frames end there, and passive sweeps at the gap (R394, R85). -/
def frontsStop (s : Chip) (d : Die) : Chip :=
  let t := ((s.stopSweep d 2 4 0x09).closeFrame d 1).closeFrame d 2
  (t.updCfe d fun x => { x with stopped := true }).updPwr d fun x => { x with stopStroke := some (s.stroke d + 1) }

/-- A step is asked: its first time. -/
def askStep (s : Chip) (d : Die) (n : Nat) : Chip :=
  (((s.put d PWR_STATE PWR_STATE.STEP n).updPwr d fun x => { x with acked := false }).stepBegin d n)

/-- The step ends at this die: 2 strokes after the last live die answered, step 5 at a line boundary (R393, R394). -/
def stepEnds (s : Chip) (d : Die) : Bool :=
  let n := s.pwrStep d
  let mates := s.liveDies.filter fun k => s.entering k
  (mates.all fun k => (s.pwr k).acked && s.pwrStep k == n || decide (n ≤ (s.pwr k).passed))
    && (mates.all fun k => s.pwrStep k != n || decide ((s.pwr k).ackAt + 2 ≤ s.stroke d))
    && (n != 5 || s.lineStroke d == 0)

/-- The step passed; the next is asked, or the commit is due. -/
def passStep (s : Chip) (d : Die) : Chip :=
  let n := s.pwrStep d
  let t := (s.cond (n == 5) fun s => s.frontsStop d).updPwr d fun x => { x with passed := n }
  match nextStep (s.pwrTarget d) n with
  | some m => t.askStep d m
  | none => t.updPwr d fun x => { x with commitDue := true, ackAt := s.stroke d }

/-- One question in the PWR window, and its answer. -/
def question (s : Chip) (d : Die) : Chip :=
  let n := s.pwrStep d
  if (s.pwr d).acked || (s.pwr d).commitDue then s else
  match s.stepAnswer d n with
  | .ack => (s.stepStop d n).updPwr d fun x => { x with acked := true, ackAt := s.stroke d }
  | .delay l => s.updPwr d fun x => { x with delays := l.foldl (fun m b => setRun m b (runOf m b + 1)) x.delays }
  | .refuse b r => s.markAbandon (2, b, r, d.val)

/-- PWR_HANDSHAKE_STEP (R393 to R395). -/
def pwrHandshakeStep (d : Die) (s : Chip) : Chip :=
  if !(s.runs d && s.entering d) || (s.pwr d).abandon.isSome || (s.pwr d).commitDue || s.pwrStep d == 0 then s
  else (s.cond ((s.pwr d).acked && s.stepEnds d) fun s => s.passStep d).question d

/-- The die begins an entry (R390, R393). -/
def beginEntry (s : Chip) (d : Die) (target : Nat) : Chip :=
  ((s.setPwr d 2 target 0).updPwr d fun x => { x with
    delays := [], passed := 0, relStrokes := 0, commitDue := false, abandon := none, stopStroke := none }).askStep d 1

/-- ENTRY_DELAY_LIMIT (R393): a block whose DELAYs add up to more than DLYMAX is taken to have refused. -/
def entryDelayLimit (d : Die) (s : Chip) : Chip :=
  let most := max 1 (s.get d PWR_CFG PWR_CFG.DLYMAX)
  match (s.pwr d).delays.find? fun e => e.1 != 0x07 && decide (most < e.2) with
  | some e => s.cond (s.runs d && s.entering d && !((s.pwr d).acked)) fun s => s.markAbandon (2, e.1, 0x0F, d.val)
  | none => s

/-- RING_RELEASE_TIMEOUT (R395). -/
def ringReleaseTimeout (d : Die) (s : Chip) : Chip :=
  if s.runs d && s.settled d && !((s.pwr d).acked) && !(s.quietRing d)
      && decide (s.get d PWR_CFG PWR_CFG.RELTO * 1024 ≤ (s.pwr d).relStrokes) then
    s.markAbandon (2, 0x07, 0x10, d.val)
  else s

/-- The strokes since the module SETTLED, for the limit of R395. -/
def settledEdge (d : Die) (s : Chip) : Chip := if s.settled d then s.updPwr d fun x => { x with relStrokes := x.relStrokes + 1 } else s

/-- ENTRY_ABANDON (R397). -/
def entryAbandon (d : Die) (s : Chip) : Chip :=
  match (s.pwr d).abandon with
  | none => s
  | some (out, block, reason, die) =>
    if !(s.runs d && s.entering d) then s else
    let ap := min 6 (s.pwr d).passed
    let tg := s.pwrTarget d
    let w := PWR_ENTRY.DIE.write (PWR_ENTRY.REASON.write (PWR_ENTRY.BLOCK.write (PWR_ENTRY.AP.write (PWR_ENTRY.TARGET.write
      (PWR_ENTRY.OUTCOME.write 0 out) tg) ap) block) reason) die
    let t := ((s.setReg d PWR_ENTRY w).put d PWR_ABORTAT PWR_ABORTAT.AT (s.stroke d)).setPwr d 0 0 0
    let t := t.updPwr d fun x => { x with
      abandon := none, commitDue := false, acked := false, passed := 0, restart := restartOrder tg ap, ackAt := s.stroke d
      abortAt := (s.die d).time.stroke }
    t.cond (decide (ap < 4)) fun s => s.updCxs d fun x => { x with asleep := false }

/-- A stopped domain restarts (R397); a lane that the host had streaming streams on (R233). The front-ends sample again from the edge after their line boundary (Example 15.1). -/
def restartDomain (s : Chip) (d : Die) (k : Nat) : Chip :=
  match k with
  | 1 =>
    let from_ := (s.pwr d).stopStroke.getD (s.stroke d + 1)
    let t := s.gap d from_ (s.stroke d + 1 - from_) 2
    (t.each (List.range 18) fun c s => s.settleChannel d c).updPwr d fun x => { x with stopStroke := none }
  | 3 => s.updCxs d fun x => { x with asleep := false }
  | 4 => s.each [2, 3] fun n s => s.updSlot d n fun _ => SlotX.reset
  | 7 => s.each [0, 1] fun q s =>
    s.cond (s.laneMode d q == 5 && (s.lane d q).rawWin.isSome && !(s.bit d (QLN_STAT q) QLN_STAT.NOPRES)) fun s => s.setLaneMode d q 3
  | 8 => s.bistRestart d
  | _ => s

/-- DOMAIN_RESTART (R397): one domain a stroke edge, from the edge after the abandonment; D1 at a line boundary. -/
def domainRestart (d : Die) (s : Chip) : Chip :=
  match (s.pwr d).restart with
  | [] => s
  | k :: rest =>
    if !(s.runs d) || decide (s.stroke d ≤ (s.pwr d).ackAt) || (k == 1 && s.lineStroke d != 0) then s
    else (s.restartDomain d k).updPwr d fun x => { x with restart := rest, ackAt := s.stroke d }

/-! ### Commit (R396) and sleep -/

/-- The power of D0 is lost: the die is as before its start, its fuses as they are. Where fuses were being programmed, what they
hold is free. -/
def powerLoss (s : Chip) (d : Die) : Chip :=
  let l := (s.die d).lcy
  let half := Config.freeNat s.free % 2 == 1
  let state := match l.target with | some (st, _, _) => if half && st != 3 then st else l.state | none => l.state
  let fuses := if (s.die d).bist.pump && half then s.repairRecord d else l.fuses
  let kept : LcyX := { LcyX.reset with
    keyHash := l.keyHash, serviceKey := l.serviceKey, state := state, prog := l.prog, revoked := l.revoked, skey := l.skey, fuses := fuses }
  let t : Chip := { s with regs := s.regs.filter fun e => addrDie e.1 != d.val }
  (t.upd d fun _ => { DieX.reset with lcy := kept }).draw

/-- The count and the sleep ticks at the stop edge (R56), the copies for the nightcap checks (Table 15.5), and the tone path. -/
def fallAsleep (s : Chip) (d : Die) (ratio phase target draw : Nat) : Chip :=
  let check := target = 2 ∧ !(s.mode d FOL_MODENOW.SLCHK)
  let t := (s.put d PWR_SLEEP_RATIO PWR_SLEEP_RATIO.RATIO ratio).setReg d PWR_SLEEP_TICKS_LO 0
  let t := ((t.put d PWR_SLEEP_TICKS_HI PWR_SLEEP_TICKS_HI.TICKS_HI 0).put d PWR_SLEEP_TICKS_HI PWR_SLEEP_TICKS_HI.COMP 0).put d
    PWR_SLEEP_TICKS_HI PWR_SLEEP_TICKS_HI.ENTRY_PHASE phase
  let t := (t.put d PWR_NSTAT PWR_NSTAT.CHECKS 0).updTime d fun x => { x with
    strokeAtE := x.stroke, gapFrom := BitVec.ofNat 48 ((s.pwr d).stopStroke.getD (s.stroke d))
    gapMask := (s.die d).cfe.streamNow.toNat % 8 }
  let t := t.updPwr d fun x => { x with
    ncOv := s.get d SHD_OV SHD_OV.CODE, ncUv := s.get d SHD_UV SHD_UV.CODE, ncCfg := s.reg d PWR_NCFG, ncAgain := false
    ncSources := [], ncComp := check && decide (s.get d PWR_NCFG PWR_NCFG.INTERVAL ≤ 60) }
  let t := (t.powersDown d [8, 7, 4, 3, 1, 5, 6, 2]).updPwr d fun x => { x with mclk := false }
  (t.putB d ULK_RING ULK_RING.TONE_PASS (t.bit d ULK_RING ULK_RING.TONE_IN && t.passesTone d)).levellerSleep d draw

/-- SLEEP_COMMIT (R396, R399): at the first stroke edge after the last step, outside a dip. `ratio` and `phase` are what the die
measured (R56), `draw` its own draw asleep without dummy load (R169). A DOZE entry writes no PWR_ENTRY: only the rows for the pads, the
domains and the leveller apply to it. -/
def sleepCommit (d : Die) (ratio phase draw : Nat) (s : Chip) : Chip :=
  let x := s.pwr d
  let tg := s.pwrTarget d
  let ok := s.runs d && s.entering d && x.commitDue && x.abandon.isNone && decide (x.ackAt < s.stroke d)
    && !(s.liveDies.any s.degraded)
  if !ok then s else
  let t := (s.cond (tg != 1) fun s => s.setReg d PWR_ENTRY (PWR_ENTRY.TARGET.write (PWR_ENTRY.OUTCOME.write 0 1) tg)).updPwr d fun x =>
    { x with commitDue := false, acked := false, passed := 0, restart := [] }
  let t := (t.put d PWR_PAD PWR_PAD.HELD (t.get d PWR_PAD PWR_PAD.HELD ||| (if tg = 1 then 3 else 63))).upd d fun x =>
    { x with boot := { x.boot with ranBefore := s.get d CMD_STAT CMD_STAT.FWSTATE == 3 } }
  if tg = 1 then (t.powersDown d [8, 4, 3, 5]).setPwr d 1 0 0
  else if tg = 4 then (t.powerLoss d).driveFaultN.updPwr d fun x => { x with off := true }
  else (t.setPwr d 3 0 0).fallAsleep d ratio phase tg draw

/-- SLEEP_TICK_SATURATE (R60). -/
def sleepTickSaturate (d : Die) (s : Chip) : Chip :=
  if !(s.asleep d) then s else
  ((s.put d PWR_SLEEP_TICKS_LO PWR_SLEEP_TICKS_LO.TICKS 0xFFFFFFFF).put d PWR_SLEEP_TICKS_HI PWR_SLEEP_TICKS_HI.TICKS_HI 0xFF).put d
    PWR_SLEEP_TICKS_HI PWR_SLEEP_TICKS_HI.OVF 1

/-! ### The nightcap check (R403, R404) -/

/-- The sources that a check finds failing (R403, R404), cells first. -/
def nightcapSources (s : Chip) (d : Die) (c1 c2 : List Nat) (span1 span2 test1 test2 : Nat) : List Nat :=
  let x := s.pwr d
  let ks := List.range (min 16 (s.cells d))
  let both := fun (p : Nat → Bool) k => p (c1.getD k 0) && p (c2.getD k 0)
  let ov := ks.filter (both fun c => decide (x.ncOv < c))
  let uv := (ks.filter (both fun c => decide (c < x.ncUv))).map (· + 16)
  let sum := sumInt (ks.map fun k => ((c1.getD k 0 : Nat) : Int) - 4096) * 100
  let tol := (PWR_NCFG.SPANTOL.read x.ncCfg : Nat) * 10000
  let off := fun (sp : Nat) => decide (tol < ((sp : Int) * 2000 - sum).natAbs)
  let bad := fun (t : Nat) => decide (t < 29084) || decide (29108 < t)
  ov ++ uv ++ (if off span1 && off span2 then [108] else []) ++ (if bad test1 || bad test2 then [110] else [])

/-- The cause and the first failing cell of a failed check (Table 15.15). -/
def nightcapCause (srcs : List Nat) : Nat × Nat :=
  match (List.range 16).find? fun k => srcs.contains k || srcs.contains (k + 16) with
  | some k => (if srcs.contains k then 1 else 2, k)
  | none => (if srcs.contains 108 then 3 else if srcs.contains 110 then 4 else 5, 0x1F)

/-- A failed check (R402, R404). -/
def nightcapFail (s : Chip) (d : Die) (srcs : List Nat) : Chip :=
  let c := nightcapCause srcs
  let t := ((s.put d PWR_NSTAT PWR_NSTAT.FAIL 1).put d PWR_NSTAT PWR_NSTAT.CAUSE c.1).put d PWR_NSTAT PWR_NSTAT.CELL c.2
  let t := (t.updPwr d fun x => { x with ncSources := srcs, ncAgain := false }).put d ULK_RING ULK_RING.TONE_PASS 0
  let outs := (if d = 0 then [0] else [0, d]).filter fun k => t.bit k PWR_WAKECFG PWR_WAKECFG.W1OUT
  let t := t.each outs fun k s => s.put k PWR_STATE PWR_STATE.WOUT 1
  (t.sendBursts true true).wakeEvent d 5

/-- The junction sensors read, and the LF trim moved (R58, R318, R336). -/
def nightcapTrim (s : Chip) (d : Die) (readings : List Int) : Chip :=
  let t := (s.each sensors fun i s => s.putI d (THM_SENS i) THM_SENS.READING (readings.getD i 0)).showInUse d
  let want := interpolate (fun k => t.getI d (CAL_FAC_OSC k) CAL_FAC_OSC.LFTRIM) (t.getI d (THM_SENS 4) THM_SENS.INUSE)
  t.updThm d fun x => { x with trims := x.trims.set 1 (towards 20 (x.trims.getD 1 0) want) }

/-- A nightcap check, or the check that is run again after a first one with VREG5 below warning. `draw` is the mean own draw since the last
check without dummy load (Table 06.8). -/
def nightcapRun (d : Die) (again : Bool) (c1 c2 : List Nat) (span1 span2 test1 test2 : Nat) (readings : List Int) (low : Bool)
    (draw : Nat) (s : Chip) : Chip :=
  let due := s.asleep d && s.get d PWR_ENTRY PWR_ENTRY.TARGET == 2 && !(s.mode d FOL_MODENOW.SLCHK) && !((s.pwr d).wakeDue)
    && (s.pwr d).ncAgain == again
  if !due then s else
  let t := ((s.inc d PWR_NSTAT PWR_NSTAT.CHECKS).nightcapTrim d readings).levellerSleep d draw
  if low then (if again then t.nightcapFail d [118] else t.updPwr d fun x => { x with ncAgain := true })
  else
    let t := t.updPwr d fun x => { x with ncAgain := false }
    let srcs := t.nightcapSources d c1 c2 span1 span2 test1 test2
    if srcs = [] then t else t.nightcapFail d srcs

/-! ### Supply (R406 to R408) -/

/-- SUPPLY_DIP (R407): VREG5 falls below 4.55 V and not to 4.20 V. -/
def supplyDip (d : Die) (vreg5 : Nat) (s : Chip) : Chip :=
  if !(s.runs d) || s.bit d PWR_DIP PWR_DIP.LIVE || decide (2275 ≤ vreg5) || decide (vreg5 < 2100) then s else
  let t := ((s.putSat d PWR_SUPPLY PWR_SUPPLY.VREG5 vreg5).put d PWR_DIP PWR_DIP.LIVE 1).updPwr d fun x => { x with dipGood := 0 }
  if s.degraded d || (s.pwr d).dipDue then t
  else ((t.inc d PWR_DIP PWR_DIP.DIPS).report d 118).updPwr d fun x => { x with dipDue := true, dipLen := 0 }

/-- The dip at a stroke edge: it takes effect, and its length and the strokes above 4.60 V are counted; `vreg5` is the lowest VREG5 of the
stroke that ended, LSB 2 mV. -/
def dipEdge (d : Die) (vreg5 : Nat) (s : Chip) : Chip :=
  let high := decide (2300 < vreg5)
  let t := s.cond (s.pwr d).dipDue fun s =>
    let t := ((s.put d PWR_STATE PWR_STATE.DIP 1).put d CXS_STATUS CXS_STATUS.DIP 1).updPwr d fun x => { x with dipDue := false }
    t.each [0, 1] fun n s => s.cond (s.selected d n).isSome fun s => (s.put d (CXS_STATE n) CXS_STATE.DUTY 0).setCause d n 5
  t.cond (t.degraded d) fun s => s.updPwr d fun x => { x with dipLen := x.dipLen + 1, dipGood := if high then x.dipGood + 1 else 0 }

/-- SUPPLY_DIP_END (R407): after 16 strokes in a row above 4.60 V normal work resumes. -/
def supplyDipEnd (d : Die) (vreg5 : Nat) (s : Chip) : Chip :=
  if !(s.runs d && s.degraded d) || decide ((s.pwr d).dipGood < 16) || decide (vreg5 ≤ 2300) then s else
  let t := (s.putSat d PWR_SUPPLY PWR_SUPPLY.VREG5 vreg5).put d PWR_DIP PWR_DIP.LIVE 0
  (((t.put d PWR_STATE PWR_STATE.DIP 0).put d CXS_STATUS CXS_STATUS.DIP 0).putSat d PWR_DIP PWR_DIP.LAST (s.pwr d).dipLen).updPwr d
    fun x => { x with dipGood := 0, dipLen := 0 }

/-- The supply values of a line (R406). -/
def supplyLine (d : Die) (m : LineMeas) (s : Chip) : Chip :=
  let t := (s.putSat d PWR_SUPPLY PWR_SUPPLY.VSTK m.vstk).putSat d PWR_SUPPLY PWR_SUPPLY.VREG5 m.vreg5
  t.cond (decide (2300 < m.vreg5)) fun s => s.put d PWR_DIP PWR_DIP.LIVE 0

/-- SUPPLY_LOSS (R408): the last-gasp sequence begins. -/
def supplyLoss (d : Die) (vstkLow vreg5Low : Bool) (s : Chip) : Chip :=
  if !(s.fitted d && s.on d 0) || (s.pwr d).gasp.isSome || !(vstkLow || vreg5Low) then s else
  let cause := vstkLow.toNat + 2 * vreg5Low.toNat
  let t := s.updPwr d fun x => { x with gasp := some (cause, s.stroke d), gaspSent := false }
  (((t.powersDown d [3, 1, 4, 7, 8]).updCxs d fun x => { x with dummy := 0 }).forceLevel0 d)

/-- LASTGASP_SEND (R251, R408, Table 09.9). -/
def lastgaspSend (d : Die) (s : Chip) : Chip :=
  match (s.pwr d).gasp with
  | none => s
  | some (cause, at_) =>
    if (s.pwr d).gaspSent || !(s.on d 6) then s else
    let waiting := ((s.die d).jnl.entries.filter fun e => (e.st == .accepted && e.mirrored) || e.st == .executing).length
    (s.originate d 6 (leBytes 6 at_ ++ leBytes 1 cause ++ leBytes 1 (min 64 waiting)
      ++ leBytes 2 (s.get d MOD_SESSION MOD_SESSION.SESSION) ++ leBytes 2 (s.die d).jnl.lastSeq ++ leBytes 4 0) true true).updPwr d
      fun x => { x with gaspSent := true }

/-- POWER_ON_RESET (R408, R297): D0 enters power-on reset, and the next start is cold. FAULT_N is low from here until every fitted die
has completed boot step 2 (R370), and without power at SD0 it reads low (R446). -/
def powerOnReset (d : Die) (s : Chip) : Chip :=
  if s.fitted d && (s.pwr d).gasp.isSome then (s.powerLoss d).driveFaultN else s

/-- VSTK_OVERVOLTAGE (R406): above 94.0 V. -/
def vstkOvervoltage (d : Die) (vstk : Nat) (s : Chip) : Chip :=
  if !(s.fitted d && s.on d 0) || decide (vstk ≤ 47000) || s.bit d PWR_SUPPLY PWR_SUPPLY.OVLIVE then s
  else ((s.putSat d PWR_SUPPLY PWR_SUPPLY.VSTK vstk).put d PWR_SUPPLY PWR_SUPPLY.OVLIVE 1).report d 119

/-- VSTK_OVERVOLTAGE_CLEAR (R406): below 92.0 V. -/
def vstkOvervoltageClear (d : Die) (vstk : Nat) (s : Chip) : Chip :=
  if !(s.fitted d && s.on d 0) || decide (46000 ≤ vstk) || !(s.bit d PWR_SUPPLY PWR_SUPPLY.OVLIVE) then s
  else (s.putSat d PWR_SUPPLY PWR_SUPPLY.VSTK vstk).put d PWR_SUPPLY PWR_SUPPLY.OVLIVE 0

/-! ### The opcodes (Table 10.4) -/

/-- POWER_STATE as a command forms it (R390). -/
def formPowerState (s : Chip) (d : Die) (q : List Byte) : Formed :=
  let st := p8 q 0
  let sec := p16 q 2
  if 4 < st then .refuse 0x10 8
  else if st = 2 ∧ (sec = 0 ∨ 3600 < sec) then .refuse 0x10 10
  else if st ≠ 0 ∧ s.entering d then .refuse 0x12 0
  else .ok [] [.act 0x90 q]

/-- The effect of POWER_STATE (R390, R398): state 0 is a wake event; any other begins the entry in every live die. -/
def applyPowerState (d : Die) (q : List Byte) (s : Chip) : Chip :=
  let st := p8 q 0
  if st = 0 then (if s.runs d && (s.pwrState d == 1 || s.entering d) then s.wakeEvent d 6 else s)
  else if s.liveDies.any s.entering then s
  else s.each s.liveDies fun k s =>
    (s.cond (st == 2) fun s => s.put k PWR_NCFG PWR_NCFG.INTERVAL (p16 q 2)).beginEntry k st

/-- SLEEP_ABORT_STATUS (R397). -/
def formAbortStatus (s : Chip) (d : Die) : Formed :=
  let f := fun x => leBytes 1 (s.get d PWR_ENTRY x)
  .ok (f PWR_ENTRY.OUTCOME ++ f PWR_ENTRY.BLOCK ++ f PWR_ENTRY.REASON ++ f PWR_ENTRY.AP ++ leBytes 6 (s.pwr d).abortAt.toNat) []

end Chip

/-- PWR_HANDSHAKE_STEP (R393). -/
def execPwrHandshakeStep (d : Die) (s : State) : Host.Outcome State Fault Refusal := s.run (Chip.pwrHandshakeStep d)
/-- DOZE_COMMAND_WAKE (R391). -/
def execDozeCommandWake (d : Die) (s : State) : Host.Outcome State Fault Refusal := s.run (Chip.dozeCommandWake d)
/-- WAKE_BURST_DETECTED (R266). -/
def execWakeBurstDetected (d : Die) (p : Port) (s : State) : Host.Outcome State Fault Refusal := s.run (Chip.wakeBurstDetected d p)
/-- WAKE_PIN (R400). -/
def execWakePin (d : Die) (pin : Pair) (level : Bool) (ticks : Nat) (s : State) : Host.Outcome State Fault Refusal :=
  s.run (Chip.wakePin d pin.val level ticks)
/-- WAKE_LINE_ASSERTED (R30). -/
def execWakeLineAsserted (d : Die) (s : State) : Host.Outcome State Fault Refusal := s.run (Chip.wakeLineAsserted d)
/-- ENTRY_DELAY_LIMIT (R393). -/
def execEntryDelayLimit (d : Die) (s : State) : Host.Outcome State Fault Refusal := s.run (Chip.entryDelayLimit d)
/-- RING_RELEASE_TIMEOUT (R395). -/
def execRingReleaseTimeout (d : Die) (s : State) : Host.Outcome State Fault Refusal := s.run (Chip.ringReleaseTimeout d)
/-- SLEEP_COMMIT (R396). -/
def execSleepCommit (d : Die) (ratio : Nat) (entry : EntryIn) (s : State) : Host.Outcome State Fault Refusal :=
  s.run (Chip.sleepCommit d ratio entry.phase entry.draw)
/-- ENTRY_ABANDON (R397). -/
def execEntryAbandon (d : Die) (s : State) : Host.Outcome State Fault Refusal := s.run (Chip.entryAbandon d)
/-- DOMAIN_RESTART (R397). -/
def execDomainRestart (d : Die) (s : State) : Host.Outcome State Fault Refusal := s.run (Chip.domainRestart d)
/-- SLEEP_TICK_SATURATE (R60). -/
def execSleepTickSaturate (d : Die) (s : State) : Host.Outcome State Fault Refusal := s.run (Chip.sleepTickSaturate d)
/-- NIGHTCAP_CHECK (R403). -/
def execNightcapCheck (d : Die) (codes1 codes2 : List Nat) (span1 span2 test1 test2 : Nat) (readings : List Int) (supply : SupplyIn)
    (s : State) : Host.Outcome State Fault Refusal :=
  s.run (Chip.nightcapRun d false codes1 codes2 span1 span2 test1 test2 readings supply.vreg5Low supply.draw)
/-- NIGHTCAP_RECHECK (R403): 32 sleep ticks after a check with VREG5 below warning. -/
def execNightcapRecheck (d : Die) (codes1 codes2 : List Nat) (span1 span2 test1 test2 : Nat) (readings : List Int) (supply : SupplyIn)
    (s : State) : Host.Outcome State Fault Refusal :=
  s.run (Chip.nightcapRun d true codes1 codes2 span1 span2 test1 test2 readings supply.vreg5Low supply.draw)
/-- SUPPLY_DIP (R407). -/
def execSupplyDip (d : Die) (vreg5 : Nat) (s : State) : Host.Outcome State Fault Refusal := s.run (Chip.supplyDip d vreg5)
/-- SUPPLY_DIP_END (R407). -/
def execSupplyDipEnd (d : Die) (vreg5 : Nat) (s : State) : Host.Outcome State Fault Refusal := s.run (Chip.supplyDipEnd d vreg5)
/-- SUPPLY_LOSS (R408). -/
def execSupplyLoss (d : Die) (vstkLow vreg5Low : Bool) (s : State) : Host.Outcome State Fault Refusal :=
  s.run (Chip.supplyLoss d vstkLow vreg5Low)
/-- LASTGASP_SEND (R408). -/
def execLastgaspSend (d : Die) (s : State) : Host.Outcome State Fault Refusal := s.run (Chip.lastgaspSend d)
/-- POWER_ON_RESET (R408). -/
def execPowerOnReset (d : Die) (s : State) : Host.Outcome State Fault Refusal := s.run (Chip.powerOnReset d)
/-- VSTK_OVERVOLTAGE (R406): a voltage beyond 100 V lies outside the absolute maximum ratings (Table 17.1), where R438 specifies no
behaviour. `vstk` has an LSB of 2 mV. -/
def execVstkOvervoltage (d : Die) (vstk : Nat) (s : State) : Host.Outcome State Fault Refusal :=
  if 50000 < vstk then .fault .outsideAbsoluteMaximum else s.run (Chip.vstkOvervoltage d vstk)
/-- VSTK_OVERVOLTAGE_CLEAR (R406). -/
def execVstkOvervoltageClear (d : Die) (vstk : Nat) (s : State) : Host.Outcome State Fault Refusal :=
  s.run (Chip.vstkOvervoltageClear d vstk)
/-- PERF_LEVEL_TRANSITION_END (R389). -/
def execPerfLevelTransitionEnd (d : Die) (s : State) : Host.Outcome State Fault Refusal := s.run (Chip.perfLevelTransitionEnd d)
/-- PERF_LEVEL (R388): the effect writes PLREQ. -/
def execPerfLevel (d : Die) (seq : Nat) (s : State) : Host.Outcome State Fault Refusal :=
  s.run fun c => c.executeEntry d seq 0x91 0x28 fun _ q => if 3 < p8 q 0 then .refuse 0x10 8 else .ok [] [.act 0x91 q]
/-- SLEEP_ABORT_STATUS (R397). -/
def execSleepAbortStatus (d : Die) (seq : Nat) (s : State) : Host.Outcome State Fault Refusal :=
  s.run fun c => c.executeEntry d seq 0x92 0x28 fun c _ => c.formAbortStatus d
/-- PWR_WAKE (R398). -/
def execPwrWake (d : Die) (s : State) : Host.Outcome State Fault Refusal := s.run (Chip.pwrWake d)
/-- WOCLR (R402). -/
def execWoclr (d : Die) (s : State) : Host.Outcome State Fault Refusal :=
  s.run fun c => if c.runs d then c.put d PWR_STATE PWR_STATE.WOUT 0 else c
/-- PADREL (R399). -/
def execPadrel (d : Die) (mask : Nat) (s : State) : Host.Outcome State Fault Refusal :=
  s.run fun c => if c.runs d then c.padrel d mask else c

end Sys2Proof.Machine
end

