-- ==== Sys2Proof/Machine/Snap.lean ====
section
/-! DEFINITION. Blot snapshots: triggers, the blot line, the latch, re-arming and the reads that mark a snapshot read (R30, R382 to
R384). -/
namespace Sys2Proof.Machine

/-- The registers that a block's snapshot words copy, in the order of the words, with the first word of each run (Table 14.9,
R411, chapter Self-Test, Repair and Lifecycle). -/
def snapRuns (block : Nat) : List (Nat × List Nat) :=
  let r := List.range
  match block with
  | 0x01 => [(0, (r 18).map CFE_LINE), (0x20, (r 17).map CFE_FINE), (0x40, [CFE_PACKI, CFE_PACKI_AT, CFE_SPARE])]
  | 0x02 => [(0, (r 18).map SHD_SAMPLE), (0x12, [SHD_STATUS, SHD_DIFFMAX])]
  | 0x03 => [(0, [OWD_STATUS, OWD_SUMCHK])]
  | 0x04 => [(0, (r 3).map EIS_STATUS ++ [EIS_OVR])]
  | 0x05 => [(0, (r 2).map QLN_STAT ++ (r 2).map QLN_CYCLE)]
  | 0x06 => [(0, [NIB_COUNT])]
  | 0x07 => [(0, [ULK_STROKE_LO, ULK_STROKE_HI, ULK_PLLSTAT, ULK_PORT 0, ULK_PORT 1, ULK_MISS 0, ULK_MISS 1, ULK_TX])]
  | 0x10 => [(0, [CXS_SEL 0, CXS_I 0, CXS_STATE 0, CXS_SEL 1, CXS_I 1, CXS_STATE 1, CXS_STATUS, CXS_TGTUSE, CXS_LEVSTAT])]
  | 0x11 => [(0, (r 4).map BCE_U ++ (r 4).map BCE_E ++ [BCE_STATUS, BCE_CYCLES])]
  | 0x12 => [(0, [PGEN_STAT 0, PGEN_ACC 0, PGEN_STAT 1, PGEN_ACC 1])]
  | 0x13 => [(0, (r 4).map INJ_STAT ++ [INJ_CAPSTAT])]
  | 0x14 => [(0, THM_STAT :: (r 5).map THM_SENS)]
  | 0x20 => [(0, [CMD_STAT])]
  | 0x21 => [(0, [JNL_STAT])]
  | 0x24 => [(0, [FOL_STAT])]
  | 0x25 => [(0, [CAL_STAT, CAL_REF])]
  | 0x26 => [(0, (r 8).map FCOL_STK ++ (r 8).map FCOL_LIVE ++ [FCOL_STATE])]
  | 0x28 => [(0, [PWR_STATE, PWR_SUPPLY, PWR_DIP, PWR_ENTRY])]
  | 0x29 => [(0, [BIST_STAT, BIST_REPAIR, BIST_CHFAIL])]
  | 0x2A => [(0, [LCY_STATE])]
  | _ => []

/-- The blocks that have snapshot words, but for the header's. -/
def snapBlocks : List Nat :=
  [0x01, 0x02, 0x03, 0x04, 0x05, 0x06, 0x07, 0x10, 0x11, 0x12, 0x13, 0x14, 0x20, 0x21, 0x24, 0x25, 0x26, 0x28, 0x29, 0x2A]

namespace Chip

/-- The snapshot structure of a die changed. -/
def updSnap (s : Chip) (d : Die) (f : SnapX → SnapX) : Chip := s.upd d fun x => { x with snap := f x.snap }

/-- BLOT_IN_EDGE (R382): the pin holds its new level for 4 MCLK cycles at SD0; `cycle` is the MCLK cycle of the trigger. The input works in
every state but OFF (R445); without MCLK there is no cycle to latch at, and the level alone is taken (DEDUCED, assumption 152). -/
def blotInEdge (d : Die) (level : Bool) (cycle : Nat) (s : Chip) : Chip :=
  if d.val ≠ 0 ∨ !(s.fitted d && s.on d 0) then s else
  let edge := (s.die d).snap.pin != level && level == (s.get d MOD_SNAP_CFG MOD_SNAP_CFG.PIN_POL == 0)
  (s.updSnap d fun x => { x with pin := level }).cond (edge && s.runs d && s.bit d MOD_SNAP_CFG MOD_SNAP_CFG.PIN_EN) fun s =>
    s.trigger d 1 cycle

/-- BLOT_LINE_EDGE (R30): the edge that die `src` drives reaches die `d`, whose own MCLK cycle of the event is that of `at_`, in the stroke in
progress at the arrival or, where an edge has fallen between, in the one before. A ring BLOT (trigger bit 0) does not use the line. -/
def blotLineEdge (d src : Die) (at_ : EventAt) (s : Chip) : Chip :=
  let now := (s.stroke d + (if at_.last then 2 ^ 48 - 1 else 0)) % 2 ^ 48
  let o := (s.die src).snap
  if !(s.runs d) || d == src || !(s.fitted src) || o.trig / 2 == 0 then s
  else s.updSnap d fun x => { x with
    trig := x.trig ||| o.trig, id := if o.trig.testBit 0 then o.id else x.id, cycle := if x.trig = 0 then at_.cycle else x.cycle
    stroke := if x.trig = 0 then now else x.stroke }

/-- One word of a snapshot (R384): 0 where the block's domain is off; channel 16 of the shadow samples reads 0. -/
def snapCopy (s : Chip) (d : Die) (block n a : Nat) : Word :=
  let k := max (domainOf 0 block) (max (domainOf 1 block) (domainOf 2 block))
  let off := k != 0 && !(s.on d (Fin.ofNat 9 k))
  if off || (block == 2 && n == 16) then 0
  else if a = ULK_STROKE_LO then BitVec.ofNat 32 (s.stroke d)
  else s.reg d a

/-- The words of one block latched. -/
def latchBlock (d : Die) (block : Nat) (s : Chip) : Chip :=
  s.each (snapRuns block) fun r t => t.each ((List.range r.2.length).zip r.2) fun p t =>
    t.setReg d (SNAP_WORD block (r.1 + p.1)) (s.snapCopy d block (r.1 + p.1) p.2)

/-- The header of a latch, and its copies in channel 0x27 (R384). -/
def latchHeader (s : Chip) (d : Die) : Chip :=
  let x := (s.die d).snap
  let cyc := x.cycle + 16
  let at_ := (x.stroke + cyc / 1024) % 2 ^ 48
  let h0 := SNAP_HDR0.HELD.write (SNAP_HDR0.ID.write (SNAP_HDR0.TRIG.write 0 x.trig) (if x.trig.testBit 0 then x.id else 0)) 1
  let h2 := SNAP_HDR2.CYCLE.write (SNAP_HDR2.AT_HI.write 0 (at_ / 2 ^ 32)) (cyc % 1024)
  let t := ((s.setReg d SNAP_HDR0 h0).setReg d SNAP_HDR1 (BitVec.ofNat 32 at_)).setReg d SNAP_HDR2 h2
  ((t.setReg d (SNAP_WORD 0x27 0) h0).setReg d (SNAP_WORD 0x27 1) (BitVec.ofNat 32 at_)).setReg d (SNAP_WORD 0x27 2) h2

/-- The stroke of the latch that a die holds (SNAP_HDR1, SNAP_HDR2). -/
def heldAt (s : Chip) (d : Die) : Nat := (s.reg d SNAP_HDR1).toNat + 2 ^ 32 * s.get d SNAP_HDR2 SNAP_HDR2.AT_HI

/-- Die `k` latches the blot that die `d` latches (R378): it runs, and either its trigger waits and it holds no snapshot, or the snapshot it
holds was latched within a stroke of that of `d`. -/
def latchesWith (s : Chip) (d k : Die) : Bool :=
  s.runs k && (if s.bit k SNAP_HDR0 SNAP_HDR0.HELD then decide (((s.heldAt k : Int) - s.heldAt d).natAbs ≤ 1) else (s.die k).snap.trig != 0)

/-- The mask of the dies that latch a blot with die `d`. -/
def latchMask (s : Chip) (d : Die) : Nat := ((allDies.filter (s.latchesWith d)).map fun k => 2 ^ k.val).foldl (· + ·) 0

/-- SNAPSHOT_LATCH (R30, R382, R383): 16 MCLK cycles after the trigger. -/
def snapshotLatch (d : Die) (s : Chip) : Chip :=
  let x := (s.die d).snap
  if !(s.runs d) || x.trig == 0 then s else
  let held := s.bit d SNAP_HDR0 SNAP_HDR0.HELD
  let done := fun (t : Chip) => (t.updSnap d fun x => { x with trig := 0, cycle := 0 }).cond (t.get d INJ_CAPSTAT INJ_CAPSTAT.STATE == 1)
    fun t => t.updEng d fun e => { e with cap := { e.cap with trig := true } }
  if held then (done s).inc d MOD_SNAP_STAT MOD_SNAP_STAT.MISSED else
  let t := done ((s.latchHeader d).each snapBlocks (latchBlock d))
  let t := (t.put d MOD_SNAP_STAT MOD_SNAP_STAT.STATE 1).putAll MOD_SNAP_STAT ⟨MOD_SNAP_STAT.UNREAD.lo + d.val, 1⟩ 1
  t.cond (s.master d == d) fun t => t.event d 0x0101
    (leBytes 1 x.trig ++ leBytes 1 (t.get d SNAP_HDR0 SNAP_HDR0.ID) ++ leBytes 1 (t.latchMask d))

/-- The live dies whose snapshot is unread. -/
def unread (s : Chip) (d : Die) : Nat :=
  s.get d MOD_SNAP_STAT MOD_SNAP_STAT.UNREAD &&& s.get d MOD_TOPOLOGY MOD_TOPOLOGY.ALIVE

/-- Re-arming is refused while a live die's snapshot is unread, but with FORCE (R383): the mask. -/
def armRefused (s : Chip) (d : Die) (force : Bool) : Option Nat := if force || s.unread d == 0 then none else some (s.unread d)

/-- Re-arming accepted: it takes effect at the next stroke edge in every die. -/
def armSnapshot (s : Chip) : Chip := s.each (allDies.filter fun k => s.on k 0) fun k s => s.updSnap k fun x => { x with armDue := true }

/-- Re-arming at a stroke edge: the held snapshot is discarded. -/
def snapEdge (d : Die) (s : Chip) : Chip :=
  if !((s.die d).snap.armDue) then s else
  ((((s.updSnap d fun x => { x with armDue := false }).put d SNAP_HDR0 SNAP_HDR0.HELD 0).put d SNAP_HDR0 SNAP_HDR0.READ 0).put d
    MOD_SNAP_STAT MOD_SNAP_STAT.STATE 0).put d MOD_SNAP_STAT MOD_SNAP_STAT.UNREAD 0

/-- A write of MOD:SNAP_CTRL at a die (Table 14.14). -/
def writeSnapCtrl (s : Chip) (d : Die) (w : Word) : Chip :=
  let arm := MOD_SNAP_CTRL.ARM.read w == 1 && (s.armRefused d (MOD_SNAP_CTRL.FORCE.read w == 1)).isNone
  (s.cond arm fun s => s.armSnapshot).cond (MOD_SNAP_CTRL.FIRE.read w == 1) fun s => s.trigger d 4 0

/-- SNAP_HDR0_READ (R383): a read of the live header, or of its latched copy, marks the die's snapshot read. -/
def snapHdr0Read (d : Die) (s : Chip) : Chip :=
  if !(s.on d 0 && s.bit d SNAP_HDR0 SNAP_HDR0.HELD) then s
  else (s.put d SNAP_HDR0 SNAP_HDR0.READ 1).putAll MOD_SNAP_STAT ⟨MOD_SNAP_STAT.UNREAD.lo + d.val, 1⟩ 0

end Chip

/-- BLOT_IN_EDGE (R382). -/
def execBlotInEdge (d : Die) (level : Bool) (cycle : Nat) (s : State) : Host.Outcome State Fault Refusal :=
  s.run (Chip.blotInEdge d level cycle)
/-- BLOT_LINE_EDGE (R30). -/
def execBlotLineEdge (d src : Die) (at_ : EventAt) (s : State) : Host.Outcome State Fault Refusal := s.run (Chip.blotLineEdge d src at_)
/-- SNAPSHOT_LATCH (R383). -/
def execSnapshotLatch (d : Die) (s : State) : Host.Outcome State Fault Refusal := s.run (Chip.snapshotLatch d)
/-- SNAP_CTRL_ARM (R383): refused, and without effect, while a live die's snapshot is unread. -/
def execSnapCtrlArm (d : Die) (force : Bool) (s : State) : Host.Outcome State Fault Refusal :=
  s.run fun c => if c.runs d then c.writeSnapCtrl d (if force then 3 else 1) else c
/-- FIRE (R382). -/
def execFire (d : Die) (s : State) : Host.Outcome State Fault Refusal := s.run fun c => if c.runs d then c.writeSnapCtrl d 4 else c
/-- SNAP_HDR0_READ (R383): `latched` tells which of the two is read, the copy in channel 0x27 or the live register. -/
def execSnapHdr0Read (d : Die) (_latched : Bool) (s : State) : Host.Outcome State Fault Refusal := s.run (Chip.snapHdr0Read d)

end Sys2Proof.Machine
end

