-- ==== Sys2Proof/Machine/RegWrite.lean ====
section
/-! DEFINITION. A write and a read of any register (R7 to R10, R20 to R23, R25): why a write is refused, what a refused write still
records, what a write does, and what a read answers and does. -/
namespace Sys2Proof.Machine

/-- What a written word leaves in a register by the type codes of its fields (Table 00.3). A multi-bit W1C field clears where every
bit is written 1, the value that Table 04.15 names. -/
def newWord (fields : List FieldDesc) (old w : Word) (locked : Bool) : Word :=
  fields.foldl (fun acc f =>
    let v := f.fld.read w
    let o := f.fld.read old
    match f.ty with
    | .ro => acc
    | .wo => acc
    | .rw => f.fld.write acc v
    | .lck => if locked then acc else f.fld.write acc v
    | .w1c => if v = 2 ^ f.fld.w - 1 then f.fld.write acc 0 else acc
    | .stk => acc &&& ~~~ (BitVec.ofNat 32 ((o &&& v) * 2 ^ f.fld.lo))) old

/-- The domain index of an address. -/
def domIx (a : Nat) : Fin 9 := Fin.ofNat 9 (addrDomain a)

/-- The bits set across the four FINE selection registers (R87). -/
def bitsSet (l : List Word) : Nat := (l.map fun w => bitCount 32 w.toNat).foldl (· + ·) 0

namespace Chip

/-! ### Refusals -/

/-- Refusals of plane 0: a charge target of a cell that is not connected (R163), the locked stroke program (R177), a generator owned by a
sweeper (R199), the cut mask (R325) and HOLDCLR (R330). -/
def refusal0 (s : Chip) (d : Die) (p : Place) (w : Word) (off : Nat) : Option (Nat × Nat) :=
  match p.block with
  | 0x10 => if p.chan = 0xFF ∧ 0x30 ≤ p.word ∧ p.word < 0x40 ∧ s.cells d ≤ p.word - 0x30 then some (0x10, off) else none
  | 0x11 => if p.chan = 0x10 ∧ p.word < 512 ∧ s.progLocked d then some (0x12, 0) else none
  | 0x13 => if p.chan < 4 ∧ p.word < 5 ∧ s.bit d (INJ_STAT p.chan) INJ_STAT.OWNER then some (0x12, 0) else none
  | 0x14 =>
    if p.chan ≠ 0xFF then none
    else if p.word = 0 ∧ s.cutmaskRefused d w then some (0x12, 0)
    else if p.word = 2 ∧ THM_CMD.HOLDCLR.read w = 1 then (s.holdBlocker d).map fun n => (0x12, n)
    else none
  | _ => none

/-- Refusals of plane 1: a sweep (Table 05.1), a plan that runs (R124), a raw lane operation (R233). -/
def refusal1 (s : Chip) (d : Die) (p : Place) (w : Word) (off : Nat) : Option (Nat × Nat) :=
  match p.block with
  | 0x04 =>
    if p.chan = 0xFF ∧ p.word = 0 then
      if EIS_CMD.STOP.read w = 1 ∨ EIS_CMD.GO.read w = 0 then none else
        (s.sweepRefusal d (EIS_CMD.SWEEPER.read w) (EIS_CMD.PLAN.read w) (EIS_CMD.CELL.read w)).map fun e =>
          if e.1 = 0x10 then (0x10, off) else e
    else if 0x20 ≤ p.chan ∧ p.chan < 0x24 ∧ (p.word < 2 ∨ (0x10 ≤ p.word ∧ p.word < 0x50)) ∧ s.planBusy d (p.chan - 0x20) then
      some (0x12, 0)
    else none
  | 0x05 =>
    if p.chan < 2 ∧ p.word = 5 ∧ QLN_RAW.GO.read w = 1 ∧ s.rawRefused d p.chan (QLN_RAW.OP.read w) then some (0x12, 0) else none
  | _ => none

/-- Refusals of plane 2: the check-value unit while it runs (R291), the folio (R311, R312), FBCLR (R344), RESUME (R369) and the fuses
(R431, R436). -/
def refusal2 (s : Chip) (d : Die) (p : Place) (w : Word) (off : Nat) : Option (Nat × Nat) :=
  if p.block = 0x24 ∧ p.chan = 0 ∧ s.bit d FOL_STAT FOL_STAT.PENDING then some (0x12, 0)
  else if p.chan ≠ 0xFF then none else
  match p.block with
  | 0x22 => if p.word < 9 ∧ s.bit d CHK_STAT CHK_STAT.BUSY then some (0x12, 0) else none
  | 0x24 =>
    if p.word ≠ 4 then none else
      match (s.sealError d (s.reg d FOL_SEALSEQ).toNat w.toNat).1 with
      | 0 => none
      | e => some (sealStatus e 0xFFFF off)
  | 0x25 => if p.word = 1 ∧ s.fbclrRefused d w then some (0x12, 0) else none
  | 0x26 =>
    if p.word = 0x12 ∧ FCOL_CTRL.RESUME.read w = 1 then
      if s.get d FCOL_STATE FCOL_STATE.STATE = 3 then some (0x12, 0) else (s.resumeBlocker d).map fun n => (0x12, n)
    else if p.word = 0x13 ∧ s.lifecycle d = 4 then some (0x14, 4)
    else none
  | 0x29 => if p.word = 7 ∧ BIST_FUSE.GO.read w = 1 then s.fuseRefusal d else none
  | 0x2A =>
    if p.word = 4 ∧ LCY_FUSECMD.GO.read w = 1 ∧ LCY_FUSECMD.OP.read w ≠ 0 then
      (s.keyOpRefusal d (LCY_FUSECMD.OP.read w) (LCY_FUSECMD.SLOT.read w)).map fun e => if e.1 = 0x10 then (0x10, off) else e
    else none
  | _ => none

/-- Refusals of plane 3: the roster (Table 08.10), the FINE selection (R87) and re-arming (R383). -/
def refusal3 (s : Chip) (d : Die) (p : Place) (w : Word) (off : Nat) : Option (Nat × Nat) :=
  match p.block with
  | 0x06 =>
    if p.chan < 12 ∧ !(s.entryWriteOkAt d (p.chan * 256 + p.word / 4) (p.word % 4) w) then some (0x10, off) else none
  | 0x27 =>
    if p.chan = 0xFF ∧ p.word = 1 ∧ MOD_SNAP_CTRL.ARM.read w = 1 then
      (s.armRefused d (MOD_SNAP_CTRL.FORCE.read w == 1)).map fun m => (0x12, m)
    else none
  | 0x30 =>
    if p.chan = 0xFF ∧ 0x10 ≤ p.word ∧ p.word < 0x14 ∧
        32 < bitsSet ([0, 1, 2, 3].map fun i => if i = p.word - 0x10 then w else s.reg d (MOD_FINESEL i)) then some (0x12, 0)
    else none
  | _ => none

/-- Why a write of a word to local address `a` is refused: status and DETAIL. `off` is the packet offset of the word. A register of a
domain without power refuses nothing. -/
def regRefusal (s : Chip) (d : Die) (a : Nat) (w : Word) (off : Nat) : Option (Nat × Nat) :=
  let p := placeOf a
  if !(s.on d (domIx a)) then none else
  match p.plane with
  | 0 => s.refusal0 d p w off
  | 1 => s.refusal1 d p w off
  | 2 => s.refusal2 d p w off
  | _ => s.refusal3 d p w off

/-- What a refused write records: fields and their values (R123, R154, R233, R312). -/
def regNotes (s : Chip) (d : Die) (a : Nat) (w : Word) : List (Nat × Fld × Nat) :=
  if a = EIS_CMD then s.sweepNotes d (EIS_CMD.SWEEPER.read w) (EIS_CMD.PLAN.read w) (EIS_CMD.CELL.read w)
  else if a = QLN_RAW 0 then [(QLN_RAWRES 0, ⟨0, 32⟩, 4)]
  else if a = QLN_RAW 1 then [(QLN_RAWRES 1, ⟨0, 32⟩, 4)]
  else if a = FOL_SEALCRC then
    let e := s.sealError d (s.reg d FOL_SEALSEQ).toNat w.toNat
    (FOL_STAT, FOL_STAT.SEALERR, e.1) :: (if e.1 = 5 then [(FOL_ERR, FOL_ERR.RECORD, e.2)] else [])
  else []

/-! ### Writes -/

/-- A write by the type codes alone; the first write of a register with an LCK field locks it (R9). -/
def writeFields (s : Chip) (d : Die) (a : Nat) (r : RegDesc) (w : Word) : Chip :=
  let locked := (s.die d).boot.locked.contains a
  let t := s.setReg d a (newWord r.fields (s.reg d a) w locked)
  t.cond (!locked && r.fields.any fun f => f.ty == .lck) fun s => s.updBoot d fun x => { x with locked := a :: x.locked }

/-- A write that takes effect at the next stroke edge (R193). -/
def writeHeld (s : Chip) (d : Die) (a : Nat) (r : RegDesc) (w : Word) : Chip :=
  s.writePending d a (newWord r.fields (s.reg d a) w false)

/-- Writes of the balancing stage. -/
def writeCxs (s : Chip) (d : Die) (a : Nat) (r : RegDesc) (w : Word) : Chip :=
  let p := placeOf a
  if p.chan < 2 ∧ p.word = 0 then s.writeCxsCfg d p.chan w
  else if p.chan = 0xFF ∧ 0x30 ≤ p.word ∧ p.word < 0x40 then s.writeQtgt d (p.word - 0x30) w
  else if p.chan = 0xFF ∧ 0x20 ≤ p.word ∧ p.word < 0x30 ∧ !(s.mode d FOL_MODENOW.BAL) then
    s.writeFields d a r (CXS_BLEED.DUTY.write w (s.get d a CXS_BLEED.DUTY))
  else if p.chan = 0xFF ∧ 0x20 ≤ p.word ∧ p.word < 0x30 then showForced d (p.word - 0x20) (s.writeFields d a r w)
  else s.writeFields d a r w

/-- Writes of the injection generators and the capture buffer. -/
def writeInj (s : Chip) (d : Die) (a : Nat) (r : RegDesc) (w : Word) : Chip :=
  let p := placeOf a
  if p.chan = 0xFF ∧ p.word = 0 then s.writeCapture d w
  else if p.chan < 4 then
    match p.word with
    | 0 => s.writeInjCfg d p.chan w
    | 2 => s.writeInjFreq d p.chan a w
    | 3 => s.writeInjFreq d p.chan a w
    | 5 => s.writeFields d a r w
    | _ => if s.bit d (INJ_STAT p.chan) INJ_STAT.OWNER then s else s.writeHeld d a r w
  else s.writeFields d a r w

/-- Writes of thermal control. -/
def writeThm (s : Chip) (d : Die) (a : Nat) (r : RegDesc) (w : Word) : Chip :=
  let p := placeOf a
  if p.chan < 5 ∧ p.word = 1 then (if THM_SEST.EXCL.read w = 1 then s.clearExcl d p.chan else s)
  else if p.chan ≠ 0xFF then s.writeFields d a r w
  else match p.word with
    | 0 => s.writeThmCfg d w
    | 2 => if THM_CMD.HOLDCLR.read w = 1 then s.clearHold d else s
    | 5 => (s.writeFields d a r w).showThrottle d (s.get d THM_STAT THM_STAT.DEPTH)
    | _ => (s.writeFields d a r w).cond (decide (0x10 ≤ p.word)) fun s => s.auxOffs d

/-- Writes of plane 0. -/
def write0 (s : Chip) (d : Die) (a : Nat) (r : RegDesc) (w : Word) : Chip :=
  let p := placeOf a
  match p.block with
  | 0x10 => s.writeCxs d a r w
  | 0x11 =>
    if p.chan = 0x10 ∧ s.progLocked d then s
    else if p.chan = 0xFF ∧ p.word = 0 then s.writeFields d a r w else s.writeHeld d a r w
  | 0x12 => s.writeHeld d a r w
  | 0x13 => s.writeInj d a r w
  | 0x14 => s.writeThm d a r w
  | _ => s.writeFields d a r w

/-- Writes of the measurement front-end: CELLS takes 8 to 16, and a channel it newly connects leaves INVALID (R67, R71); PACKI
stands on SD0 alone (R81). -/
def writeCfe (s : Chip) (d : Die) (a : Nat) (r : RegDesc) (w : Word) : Chip :=
  if a = CFE_CONFIG then
    let n := CFE_CONFIG.CELLS.read w
    if 8 ≤ n ∧ n ≤ 16 then (s.writeFields d a r w).each ((List.range n).filter (s.cells d ≤ ·)) fun c s => s.settleChannel d c else s
  else if a = CFE_NOTCH then s.writeNotch d w
  else if a = CFE_AUXCFG then (s.writeFields d a r (if d = 0 then w else CFE_AUXCFG.PACKI.write w 0)).auxOffs d
  else s.writeFields d a r w

/-- Writes of the open-wire test: wiring (R117), a request (R104) and a wire resistance (R113). -/
def writeOwd (s : Chip) (d : Die) (a : Nat) (r : RegDesc) (w : Word) : Chip :=
  let p := placeOf a
  if a = OWD_CMD then s.writeOwdCmd d w
  else if a = OWD_CONFIG then
    let t := s.writeFields d a r w
    t.cond (t.bit d OWD_CONFIG OWD_CONFIG.WIRING) fun s => s.wiringInterlock d
  else if p.chan = 0xFF ∧ 0x30 ≤ p.word then s.writeRwire d (p.word - 0x30) w
  else if a = OWD_CLASS_LO ∨ a = OWD_CLASS_HI then (s.writeFields d a r w).dropCleared d
  else s.writeFields d a r w

/-- Writes of plane 1. -/
def write1 (s : Chip) (d : Die) (a : Nat) (r : RegDesc) (w : Word) : Chip :=
  let p := placeOf a
  match p.block with
  | 0x01 => s.writeCfe d a r w
  | 0x03 => s.writeOwd d a r w
  | 0x04 =>
    if a = EIS_CMD then s.writeEisCmd d w
    else if p.chan < 16 ∧ 0x200 ≤ p.word then s.writeZt d a w p.chan
    else s.writeFields d a r w
  | 0x05 =>
    if 2 ≤ p.chan then s.writeFields d a r w
    else match p.word with
      | 0 => s.writeQlnCfg d p.chan w
      | 1 => s.writeQlnCmd d p.chan w
      | 5 => s.writeRaw d p.chan w
      | _ => s.writeFields d a r w
  | _ => s.writeFields d a r w

/-- Writes of CHK_CTRL (Table 10.18): ABORT takes precedence. -/
def writeChkCtrl (s : Chip) (d : Die) (w : Word) : Chip :=
  if CHK_CTRL.ABORT.read w = 1 then s.chkAbort d else if CHK_CTRL.GO.read w = 1 then s.chkGo d false else s

/-- Writes of FCOL_CTRL (Table 14.12). -/
def writeFcolCtrl (s : Chip) (d : Die) (w : Word) : Chip :=
  let t := s.cond (FCOL_CTRL.RESUME.read w == 1) fun s => s.requestResume d
  let t := t.cond (FCOL_CTRL.EVCLR.read w == 1) fun s => s.clearEventCounters d
  t.cond (FCOL_CTRL.KICK.read w == 1) fun s => s.upd d fun x => { x with fcol := { x.fcol with kickPages := 0 } }

/-- Writes of the fault collector. -/
def writeFcol (s : Chip) (d : Die) (a : Nat) (r : RegDesc) (w : Word) : Chip :=
  let n := (placeOf a).word
  if n < 8 then s.clearSticky d n w
  else if n = 0x12 then s.writeFcolCtrl d w
  else if n = 0x13 then s.armInjection d (FCOL_INJ.CHECKER.read w) (FCOL_INJ.COUNT.read w)
  else if 0x20 ≤ n ∧ n < 0x2D then
    (s.writeFields d a r w).upd d fun x => { x with fcol := { x.fcol with cfgPend := (n - 0x20) :: x.fcol.cfgPend.filter (· != n - 0x20) } }
  else s.writeFields d a r w

/-- Writes of the folio block (R311, R312, R315). -/
def writeFolio (s : Chip) (d : Die) (a : Nat) (r : RegDesc) (w : Word) : Chip :=
  let p := placeOf a
  if p.chan = 0 then (if s.bit d FOL_STAT FOL_STAT.PENDING then s else s.folWrite d p.word w)
  else if a = FOL_SEALCRC then s.requestSeal d (s.reg d FOL_SEALSEQ).toNat w.toNat
  else if a = FOL_MODESEL then (s.writeFields d a r w).showModePend d
  else s.writeFields d a r w

/-- Writes of self-test: fixed settings in FIELD, and nothing in RETIRED (R414, Table 16.4). -/
def writeBist (s : Chip) (d : Die) (a : Nat) (r : RegDesc) (w : Word) : Chip :=
  if s.lifecycle d = 4 ∨ (a = BIST_CFG ∧ s.lifecycle d = 2) then s
  else if a = BIST_CTRL then (if BIST_CTRL.ABORT.read w = 1 then s.bistAbort d else s)
  else if a = BIST_FUSE then (s.writeFields d a r w).cond (BIST_FUSE.GO.read w == 1) fun s => s.bistFuseGo d
  else s.writeFields d a r w

/-- Writes of plane 2. -/
def write2 (s : Chip) (d : Die) (a : Nat) (r : RegDesc) (w : Word) : Chip :=
  match (placeOf a).block with
  | 0x22 => if a = CHK_CTRL then s.writeChkCtrl d w else s.writeFields d a r w
  | 0x24 => s.writeFolio d a r w
  | 0x25 => if a = CAL_CMD then s.writeCalCmd d w else s.writeFields d a r w
  | 0x26 => s.writeFcol d a r w
  | 0x28 => if a = PWR_CMD then s.writePwrCmd d w else s.writeFields d a r w
  | 0x29 => s.writeBist d a r w
  | 0x2A =>
    if s.lifecycle d = 4 then s
    else if a = LCY_FUSECMD then s.writeFuseCmd d w else s.writeFields d a r w
  | _ => s.writeFields d a r w

/-- Writes of plane 3 as die `d` applies them to its own copy; the owner of a roster entry acts on the write, and re-arming acts once, at
the master. -/
def write3 (s : Chip) (d : Die) (a : Nat) (r : RegDesc) (w : Word) : Chip :=
  let p := placeOf a
  if p.block = 0x06 then
    let e := p.chan * 256 + p.word / 4
    if p.word % 4 < 3 then s.applyEntryWrite d e (p.word % 4) w else s
  else if a = MOD_SNAP_CTRL then (if s.master d = d then s.writeSnapCtrl d w else s)
  else if a = MOD_RING_ROLE then
    let t := s.writeFields d a r w
    t.putB d MOD_RING_ROLE MOD_RING_ROLE.ARMED (t.bit d MOD_RING_ROLE MOD_RING_ROLE.HEAD != t.isHead d)
  else s.writeFields d a r w

/-- A word written to local address `a` of die `d`. It is discarded where no register lies (R23), or its domain has no power. -/
def regApply (s : Chip) (d : Die) (a : Nat) (w : Word) : Chip :=
  if !(s.on d (domIx a)) then s else
  match regDesc a with
  | none => s
  | some r =>
    match (placeOf a).plane with
    | 0 => s.write0 d a r w
    | 1 => s.write1 d a r w
    | 2 => s.write2 d a r w
    | _ => s.write3 d a r w

/-- A write that comes with its refusals: a refused one has no effect but what it records. -/
def regWrite (s : Chip) (d : Die) (a : Nat) (w : Word) : Chip :=
  match s.regRefusal d a w 0xFFFF with
  | some _ => s.takeNotes d (s.regNotes d a w)
  | none => s.regApply d a w

/-- A write of a module-common register reaches every live die, the master first (R21). -/
def regWriteAny (s : Chip) (d : Die) (a : Nat) (w : Word) : Chip :=
  let a := a % 0x20000000
  if addrBad a then s
  else if (placeOf a).plane ≠ 3 then s.regWrite d a w
  else match s.regRefusal d a w 0xFFFF with
    | some _ => s
    | none => s.each s.liveDies fun k s => s.regApply k a w

/-! ### Reads -/

/-- What a read of local address `a` answers (R7, R21, R23). -/
def readWord (s : Chip) (d : Die) (a : Nat) : Word :=
  let p := placeOf a
  if p.plane = 3 then s.reg (s.master d) a
  else if a = ULK_STROKE_LO then BitVec.ofNat 32 (s.stroke d)
  else if p.plane = 2 ∧ p.block = 0x24 ∧ p.chan = 0 then s.copyWord d (s.inactiveB d) p.word
  else if p.plane = 2 ∧ p.block = 0x24 ∧ p.chan = 1 then
    (if s.get d FOL_STAT FOL_STAT.ACTIVE < 2 then s.copyWord d (!(s.inactiveB d)) p.word else 0)
  else s.reg d a

/-- The address of the latched copy of SNAP_HDR0 (R384). -/
def snapCopyHdr0 : Nat := SNAP_WORD 0x27 0

/-- What a read does: the high half of the stroke number is latched (R62), and a snapshot is marked read (R383). -/
def readMark (s : Chip) (d : Die) (a : Nat) : Chip :=
  if a = ULK_STROKE_LO then s.put d ULK_STROKE_HI ULK_STROKE_HI.COUNT_HI (s.stroke d / 2 ^ 32)
  else if a = SNAP_HDR0 ∨ a = snapCopyHdr0 then s.snapHdr0Read d
  else s

end Chip

/-- REGISTER_WRITE (R7). -/
def execRegisterWrite (d : Die) (addr : Nat) (w : Word) (s : State) : Host.Outcome State Fault Refusal :=
  s.run fun c => if c.fitted d && c.on d 0 then c.regWriteAny d addr w else c

/-- FOL_DATA_WRITE (R311): refused while a switch is pending. -/
def execFolDataWrite (d : Die) (n : Nat) (w : Word) (s : State) : Host.Outcome State Fault Refusal :=
  s.run fun c => if c.on d 0 then c.regWrite d (FOL_DATA (n % 1024)) w else c

/-- FOL_SEALCRC_WRITE (R312). -/
def execFolSealcrcWrite (d : Die) (w : Word) (s : State) : Host.Outcome State Fault Refusal :=
  s.run fun c => if c.on d 0 then c.regWrite d FOL_SEALCRC w else c

/-- FOL_MODESEL_WRITE (R315). -/
def execFolModeselWrite (d : Die) (w : Word) (s : State) : Host.Outcome State Fault Refusal :=
  s.run fun c => if c.on d 0 then c.regWrite d FOL_MODESEL w else c

end Sys2Proof.Machine
end

