-- ==== Sys2Proof/Machine/Modes.lean ====
section
/-! DEFINITION. Folio switch and re-application, and the change of function modes with its hand-over (R37, R310, R313 to R315, Table
01.10). -/
namespace Sys2Proof.Machine

namespace Chip

/-- The records of a copy applied in order (R310): the module after them and how many were taken. They take effect together at this line
boundary, those of engine registers as well, which a host write would change at the next stroke edge (R193). -/
def applyRecords (s : Chip) (d : Die) (b : Bool) : Chip × Nat :=
  let l := s.records d b
  let waits := (s.die d).cxs.qPend
  let t := ((s.updCxs d fun x => { x with qPend := [] }).each l fun r s => s.regApply d r.2.1 r.2.2).targetWrites d
  let t := t.updCxs d fun x => { x with qPend := waits }
  let t := t.cond (t.runsOn d 1) fun s => s.filterLine d
  (t.updEng d fun e => { e with held := e.held.filter fun h => !(l.any fun r => r.2.1 == h.1) }, l.length)

/-- Balancing starts anew from zero current (Table 01.10 [0]), and the bleed duties show what is commanded now (R158). -/
def handBal (s : Chip) (d : Die) : Chip := (s.stopRamps d none).each (List.range 16) fun k s => showForced d k s

/-- The roster is reconciled when the search returns to the die (Table 01.10 [2]). -/
def handSearch (s : Chip) (d : Die) : Chip :=
  if s.mode d FOL_MODENOW.NSRCH then s else
  s.each [0, 1] fun q s =>
    let l := s.lane d q
    if s.laneMode d q = 5 ∨ l.rawWin.isSome then s.laneDue d q
    else if l.stopped then s else s.updLane d q fun l => { l with census := !l.start }

/-- The throttle in force is held (R328). `limit` is the current limit in force before the change. -/
def handThrottle (s : Chip) (d : Die) (limit : Nat) : Chip :=
  if s.mode d FOL_MODENOW.THROT then (s.throttleToHost d limit).showThrottle d 0 else s.showThrottle d (s.depthAtLeast d)

/-- The stroke count continues without a step (R55): the PLL runs free, or acquires, and locks after 64 strokes of that (R50). -/
def handTime (s : Chip) (d : Die) : Chip :=
  (s.setPll d (if s.mode d FOL_MODENOW.TALIGN then 3 else 0)).updTime d fun t => { t with inRun := 0, outRun := 0 }

/-- Modes come into force, each with its hand-over (R37). -/
def enterModes (s : Chip) (d : Die) (new : Word) : Chip :=
  let old := s.reg d FOL_MODENOW
  let moved := fun (f : Fld) => f.read old != f.read new
  let limit := s.thermalLimit d
  let t := s.setReg d FOL_MODENOW (new &&& 0x1FF)
  let t := t.cond (moved FOL_MODENOW.BAL) fun s => s.handBal d
  let t := t.cond (moved FOL_MODENOW.NSRCH) fun s => s.handSearch d
  let t := t.cond (moved FOL_MODENOW.THROT) fun s => s.handThrottle d limit
  (t.cond (moved FOL_MODENOW.TALIGN) fun s => s.handTime d).showModePend d

/-- The core runs and has reached its command loop (R313). -/
def coreLoops (s : Chip) (d : Die) : Bool := s.get d CMD_STAT CMD_STAT.FWSTATE == 3 && s.bit d CMD_STAT CMD_STAT.LOOP && s.runsOn d 5

/-- FOLIO_SWITCH (R313) at a line boundary. -/
def folioSwitch (d : Die) (s : Chip) : Chip :=
  if !(s.coreLoops d && s.lineStroke d == 0 && s.bit d FOL_STAT FOL_STAT.PENDING) then s else
  let b := s.inactiveB d
  let r := s.applyRecords d b
  let t := ((r.1.put d FOL_STAT FOL_STAT.ACTIVE b.toNat).put d FOL_STAT FOL_STAT.PENDING 0).put d FOL_STAT FOL_STAT.NAPPLIED r.2
  ((t.updFol d fun x => { x with held := none }).enterModes d (t.reg d FOL_MODESEL)).folioEvent d 0

/-- The selected copy re-applied (R314): every record, the modes in force kept; a FOL_MODESEL value that differs from them is held. -/
def reapplyCopy (s : Chip) (d : Die) : Chip :=
  let act := s.get d FOL_STAT FOL_STAT.ACTIVE
  if 2 ≤ act then s else
  let r := s.applyRecords d (act == 1)
  let t := (r.1.put d FOL_STAT FOL_STAT.NAPPLIED r.2).showModePend d
  let named := (s.records d (act == 1)).any fun x => x.2.1 == FOL_MODESEL
  let sel := t.reg d FOL_MODESEL
  t.updFol d fun x => { x with held := if named && sel != t.reg d FOL_MODENOW then some sel else none }

/-- FOLIO_REAPPLY (R314) at the first line boundary after D1 powers up. -/
def folioReapply (d : Die) (s : Chip) : Chip :=
  match (s.die d).boot.reapply with
  | none => s
  | some c =>
    if s.runs d && s.on d 1 && s.lineStroke d == 0 then
      ((s.reapplyCopy d).updBoot d fun x => { x with reapply := none }).folioEvent d c
    else s

/-- A held value of FOL_MODESEL comes into force at the first line boundary with a running command loop (R314). -/
def modeLine (d : Die) (s : Chip) : Chip :=
  match (s.die d).fol.held with
  | none => s
  | some v => if s.coreLoops d then (s.updFol d fun x => { x with held := none }).enterModes d v else s

end Chip

/-- FOLIO_SWITCH (R313). -/
def execFolioSwitch (d : Die) (s : State) : Host.Outcome State Fault Refusal := s.run (Chip.folioSwitch d)

/-- FOLIO_REAPPLY (R314). -/
def execFolioReapply (d : Die) (s : State) : Host.Outcome State Fault Refusal := s.run (Chip.folioReapply d)

end Sys2Proof.Machine
end

