-- ==== Sys2Proof/Machine/Effects.lean ====
section
/-! DEFINITION. The effects of committed commands as they take place at a stroke edge (R281 step 4), and the items of a WRITE as a die
forms them (R20, R272). -/
namespace Sys2Proof.Machine

/-- Four-byte words of a byte string. -/
def wordsOf (q : List Byte) : List Word := pWords q 0 (q.length / 4)

namespace Chip

/-- The effect of FOLIO_WRITE: the words at an offset of the inactive copy (R311). -/
def applyFolioWrite (d : Die) (q : List Byte) (s : Chip) : Chip :=
  let ws := wordsOf ((q.drop 4).take (p16 q 2))
  s.each ((List.range ws.length).zip ws) fun x s => s.regApply d (FOL_DATA (p16 q 0 / 4 + x.1)) x.2

/-- The effect of BAL_STOP: EN := 0 on the channels of the mask. -/
def applyBalStop (d : Die) (mask : Nat) (s : Chip) : Chip :=
  s.each ([0, 1].filter fun n => mask.testBit n) fun n s => s.regApply d (CXS_CFG n) (CXS_CFG.EN.write (s.reg d (CXS_CFG n)) 0)

/-- The effect of an opcode on what is no register, at die `d`. -/
def applyAct (d : Die) (op : Nat) (q : List Byte) (s : Chip) : Chip :=
  match op with
  | 0x23 => s.applyBalStop d (p8 q 0)
  | 0x60 => s.applyLoadBegin d q
  | 0x61 => s.applyLoadData d q
  | 0x62 => s.applyLoadEnd d q
  | 0x64 => s.applyLoadBoot d q
  | 0x70 => s.applyFolioWrite d q
  | 0x71 => s.requestSeal d (p32 q 0) (p32 q 4)
  | 0x82 => s.requestResume d
  | 0x83 => s.armInjection d (p8 q 0) (p8 q 1)
  | 0x90 => s.applyPowerState d q
  | 0x91 => s.put d PWR_CFG PWR_CFG.PLREQ (p8 q 0)
  | 0xA0 => s.startRun d (p8 q 0) (p8 q 1)
  | 0xB0 => if p8 q 0 = 0 then s.calRequest d else s.updCal d fun x => { x with service := true }
  | 0xE1 => s.applyChallenge d q
  | 0xE2 => s.applyResponse d q
  | 0xE3 => s.applyAdvance d q
  | 0x100 => s.put d (p32 q 0) ⟨p8 q 4, p8 q 5⟩ (p32 q 6)
  | 0x101 => s.readMark d (p32 q 0)
  | 0x102 =>
    let dst : Die := Fin.ofNat 8 (p8 q 0)
    if dst = d then s.joinOutcome d (p16 q 1)
    else s.updJnl d fun j => { j with outcomes := j.outcomes ++ [(dst, p16 q 1, p8 q 3, p16 q 4)] }
  | _ => s

/-- One effect at die `d`. -/
def applyEffect (d : Die) (e : Effect) (s : Chip) : Chip :=
  match e with
  | .write a w => s.regApply d (a % 0x20000000) w
  | .act op q => s.applyAct d op q

/-- The effects that are due take place (R281 step 4). -/
def applyDue (d : Die) (s : Chip) : Chip :=
  (s.updJnl d fun j => { j with due := [] }).each (s.die d).jnl.due fun e s => s.applyEffect d e

/-- The effect begins a long activity (R281): LOAD_END, POWER_STATE, SELFTEST_RUN and CAL_RUN. -/
def beginsActivity (e : Effect) : Bool := match e with | .act op _ => [0x62, 0x90, 0xA0, 0xB0].contains op | .write _ _ => false

/-- A command that starts a long activity commits when the activity starts (R281), so that effect does not wait for the edge. -/
def beginActivities (d : Die) (s : Chip) : Chip :=
  let due := (s.die d).jnl.due
  (s.updJnl d fun j => { j with due := due.filter fun e => !(beginsActivity e) }).each (due.filter beginsActivity) fun e s =>
    s.applyEffect d e

/-- The state that a command is formed on: with the effects of the commands before it (DEDUCED from R281: entries are executed one at a
time, in SEQ order). -/
def preview (s : Chip) (d : Die) : Chip := s.applyDue d

/-- A write as one item of a command is tried. -/
def tryWrite (s : Chip) (d : Die) (a : Nat) (w : Word) : Chip :=
  if (placeOf a).plane = 3 then s.each s.liveDies fun k s => s.regApply k a w else s.regApply d a w

end Chip

/-- The items of a write so far: the state they leave, their effects, how many passed, and the failure that ended them. -/
structure ItemRun where
  chip    : Chip
  effects : List Effect
  done    : Nat
  failed  : Option (Nat × Nat)

/-- One more item: word `w` to local address `a`, at packet offset `off`. -/
def ItemRun.step (d : Die) (r : ItemRun) (a : Nat) (w : Word) (off : Nat) : ItemRun :=
  if r.failed.isSome then r else
  match r.chip.regRefusal d a w off with
  | some e => { r with effects := r.effects ++ noteEffects (r.chip.regNotes d a w), failed := some e }
  | none => { chip := r.chip.tryWrite d a w, effects := r.effects ++ [.write (fullAddr d a) w], done := r.done + 1, failed := none }

namespace Chip

/-- The words of a WRITE as die `d` executes them: from local address `a`, at packet offset 16 on (R20, R272). -/
def writeItems (s : Chip) (d : Die) (a : Nat) (ws : List Word) : ItemRun :=
  ((List.range ws.length).zip ws).foldl (fun r x => r.step d (a + 4 * x.1) x.2 (16 + 4 * x.1)) ⟨s, [], 0, none⟩

/-- Writes of several registers by one opcode, to local addresses: the first that is refused settles the command. -/
def formWrites (s : Chip) (d : Die) (l : List (Nat × Word)) : Formed :=
  let r := l.foldl (fun (r : ItemRun) x => r.step d x.1 x.2 0xFFFF) ⟨s, [], 0, none⟩
  match r.failed with
  | some e => .failed e.1 e.2 []
  | none => .ok [] r.effects

end Chip

end Sys2Proof.Machine
end

