-- ==== Sys2Proof/Machine/Belef.lean ====
section
/-! DEFINITION. The Belef opcodes of Table 10.4 that no other chapter's file holds: register access, enumeration, streams, balancing,
impedance, nibs, the ring, folios, faults, calibration and snapshots (R20 to R23, R263, R272 to R275). Each journalled opcode executes
the entry with its SEQ when its turn has come. -/
namespace Sys2Proof.Machine

namespace Chip

/-- The block whose self-test a register command waits for: that of its address. -/
def addressed (s : Chip) (d : Die) (seq : Nat) : Nat :=
  match s.entry? d seq with
  | some e => (placeOf (p32 (pktParams e.packet) 0)).block
  | none => 0

/-- The refusal of an address (R20, R21, R23), with the packet offset of its first faulty byte: bits [1:0], plane and block, DIE.
`others` tells whether DIE = 7 may name every die. -/
def routeFault (d : Die) (a : Nat) (others : Bool) : Option Nat :=
  let p := placeOf a
  if a % 4 ≠ 0 then some 8
  else if !(blockAssigned p.plane p.block) then some 10
  else if dieField a = d.val then none
  else if p.plane ≠ 3 ∧ dieField a = 7 ∧ others then none
  else some 11

/-! ### PING and ENUMERATE (R263, R274, R275) -/

/-- PING: each valid copy is answered, whatever its SESSION and SEQ. -/
def ping (d : Die) (f : FrameIn) (s : Chip) : Chip :=
  if !(s.fitted d && s.on d 0 && s.linked d && s.address d != 0 && validCmd f && (s.die d).pwr.gasp.isNone
      && f.dmod == s.address d && pktOpcode f.payload == 0x01) then s
  else if !(s.frameLinkOk d f) then s.frameLinkFail d f
  else if f.ddie ≠ d.val then s.foreignCmd d f
  else match packetFault f.payload with
    | some off => s.respond d d f.smod f.tag f.seq 0x01 0x10 off (2 ^ d.val) []
    | none => (s.put d CMD_STAT CMD_STAT.LASTOP 0x01).respond d d f.smod f.tag f.seq 0x01 0 0 (2 ^ d.val)
        (leBytes 2 (s.get d MOD_SESSION MOD_SESSION.SESSION) ++ leBytes 1 (s.address d)
          ++ leBytes 1 (s.get d MOD_TOPOLOGY MOD_TOPOLOGY.ALIVE) ++ leBytes 1 (s.lifecycle d)
          ++ leBytes 1 (s.get d CMD_STAT CMD_STAT.FWSTATE) ++ leBytes 2 (s.expect d))

/-- The module takes an address and begins a session (R263, R275, R277). -/
def takeAddress (s : Chip) (next base : Nat) : Chip :=
  let ses := if (base + 1) % 65536 = 0 then 1 else (base + 1) % 65536
  ((s.putAll MOD_TOPOLOGY MOD_TOPOLOGY.ADDRESS next).putAll MOD_SESSION MOD_SESSION.SESSION ses).each
    (allDies.filter fun k => s.on k 0) fun k s =>
      ((s.updJnl k fun j => { j with lastSeq := 0 }).put k JNL_STAT JNL_STAT.EXPECT 0).showJournal k

/-- ENUMERATE at the module master: a module without an address takes NEXT and sends the frame on with NEXT + 1; every other case sends
it on unchanged. -/
def enumerate (d : Die) (f : FrameIn) (s : Chip) : Chip :=
  let port := if f.ringb then Port.b else Port.a
  if !(s.fitted d && s.on d 0 && s.on d 6 && validCmd f && f.dmod == 0 && pktOpcode f.payload == 0x04 && s.master d == d
      && (s.die d).pwr.gasp.isNone) then s
  else if !(s.frameLinkOk d f) then (s.frameLinkFail d f).forward d port (frameOf f) true
  else
    let q := pktParams f.payload
    let next := p8 q 0
    if s.address d ≠ 0 ∨ (packetFault f.payload).isSome then s.forward d port (frameOf f) false
    else if next = 0 then (s.put d ULK_RING ULK_RING.ENUM_BAD 1).forward d port (frameOf f) false
    else if next = 127 then (s.put d ULK_RING ULK_RING.ENUM_FULL 1).forward d port (frameOf f) false
    else if 127 < next then s.forward d port (frameOf f) false
    else
      let t := (s.takeAddress next (p16 q 2)).put d CMD_STAT CMD_STAT.LASTOP 0x04
      let out := { frameOf f with payload := f.payload.set 8 (BitVec.ofNat 8 (next + 1)) }
      (t.respond d d f.smod f.tag f.seq 0x04 0 0 (2 ^ d.val)
        (leBytes 1 next ++ [0] ++ leBytes 2 (t.get d MOD_SESSION MOD_SESSION.SESSION))).forward d port out false

/-! ### READ and WRITE (R20 to R23) -/

/-- The words of a READ in order, each read taking place before the next. -/
def readWords (s : Chip) (d : Die) (a : Nat) : Nat → List Word
  | 0 => []
  | n + 1 => s.readWord d a :: readWords (s.readMark d a) d (a + 4) n

/-- The marks of a READ as effects. -/
def readEffects (a n : Nat) : List Effect :=
  (((List.range n).map fun i => a + 4 * i).filter fun b => b == ULK_STROKE_LO || b == SNAP_HDR0 || b == snapCopyHdr0).map fun b =>
    .act effMark (leBytes 4 b)

/-- READ. -/
def formRead (s : Chip) (d : Die) (q : List Byte) : Formed :=
  let a := p32 q 0
  let n := p8 q 4
  match routeFault d a false with
  | some off => .refuse 0x10 off
  | none =>
    if n < 1 ∨ 126 < n ∨ 1024 < (placeOf a).word + n then .refuse 0x10 12 else
    let b := a % 0x20000000
    .ok ((s.readWords d b n).map fun w => leBytes 4 w.toNat).flatten (readEffects b n)

/-- WRITE: to one die, to every die (R20), or to a module-common register (R21). -/
def formWrite (s : Chip) (d : Die) (q : List Byte) : Formed :=
  let a := p32 q 0
  let n := p8 q 4
  match routeFault d a true with
  | some off => .items 0x10 off 0 []
  | none =>
    if n < 1 ∨ 124 < n ∨ 1024 < (placeOf a).word + n then .items 0x10 12 0 [] else
    let r := s.writeItems d (a % 0x20000000) (pWords q 8 n)
    let e := r.failed.getD (0, 0)
    if dieField a = d.val ∧ (placeOf a).plane ≠ 3 then .items e.1 e.2 r.done r.effects
    else .relay e.1 e.2 r.done (if r.failed.isNone then 2 ^ d.val else 0) r.effects

/-! ### Streams and balancing -/

/-- STREAM_SET: the registers whose bits of byte 12 are set. -/
def formStreamSet (s : Chip) (d : Die) (q : List Byte) : Formed :=
  let regs := [CFE_STREAMCFG, CFE_FILTSEL, CFE_NOTCH]
  s.formWrites d (([0, 1, 2].filter fun i => (p8 q 12).testBit i).map fun i => (regs.getD i 0, BitVec.ofNat 32 (p32 q (4 * i))))

/-- FINE_SELECT (R87): at most 32 cells, in every die (R21). -/
def formFineSelect (d : Die) (q : List Byte) : Formed :=
  let ws := pWords q 0 4
  if 32 < bitsSet ws then .refuse 0x12 0
  else .relay 0 0 0 (2 ^ d.val) (([0, 1, 2, 3].zip ws).map fun x => .write (fullAddr d (MOD_FINESEL x.1)) x.2)

/-- BAL_MANAGER. -/
def formBalManager (s : Chip) (d : Die) (q : List Byte) : Formed :=
  s.formWrites d ([CXS_MGR, CXS_BAND, CXS_MGR_I, CXS_TARGET].zip (pWords q 0 4))

/-- BAL_CHARGE (R163): items up to the first that names a cell that is not connected. -/
def formBalCharge (s : Chip) (d : Die) (q : List Byte) : Formed :=
  let m := p8 q 0
  if m < 1 ∨ 16 < m then .items 0x10 8 0 [] else
  let bad := ((List.range m).find? fun i => decide (15 < p8 q (1 + 5 * i)) || decide (s.cells d ≤ p8 q (1 + 5 * i))).getD m
  .items (if bad < m then 0x10 else 0) (if bad < m then 9 + 5 * bad else 0) bad
    ((List.range bad).map fun i => .write (fullAddr d (CXS_QTGT (p8 q (1 + 5 * i)))) (BitVec.ofNat 32 (p32 q (2 + 5 * i))))

/-- BAL_BLEED: duties of the cells of the mask, in host-assisted mode. -/
def formBalBleed (s : Chip) (d : Die) (q : List Byte) : Formed :=
  let cells := (List.range 16).filter fun k => (p16 q 0).testBit k
  let duty := fun i => p16 q (2 + 2 * i)
  match (List.range cells.length).find? fun i => decide (256 < duty i) with
  | some i => .refuse 0x10 (10 + 2 * i)
  | none =>
    if !(s.mode d FOL_MODENOW.BAL) then .refuse 0x12 1
    else .ok [] (((List.range cells.length).zip cells).map fun x =>
      .write (fullAddr d (CXS_BLEED x.2)) (CXS_BLEED.DUTY.write 0 (duty x.1)))

/-! ### Impedance -/

/-- EIS_PLAN (R124): the two header words and the bins. -/
def formEisPlan (s : Chip) (d : Die) (q : List Byte) : Formed :=
  let p := p8 q 0
  if 3 < p then .refuse 0x10 8
  else if s.planBusy d p then .refuse 0x12 0
  else
    let n := EIS_PLAN_HDR0.NBINS_M1.read (BitVec.ofNat 32 (p32 q 4)) + 1
    let bins := (List.range n).map fun b =>
      [(EIS_BIN_W0 p b, BitVec.ofNat 32 (p32 q (12 + 8 * b))), (EIS_BIN_W1 p b, BitVec.ofNat 32 (p32 q (16 + 8 * b)))]
    s.formWrites d ([(EIS_PLAN_HDR0 p, BitVec.ofNat 32 (p32 q 4)), (EIS_PLAN_HDR1 p, BitVec.ofNat 32 (p32 q 8))] ++ bins.flatten)

/-- EIS_START (R123): the refusals of Table 05.1 carry LASTERR in DETAIL. -/
def formEisStart (s : Chip) (d : Die) (q : List Byte) : Formed :=
  let w : Word := BitVec.ofNat 32 (p32 q 0)
  let go := EIS_CMD.STOP.read w = 0 ∧ EIS_CMD.GO.read w = 1
  match s.sweepRefusal d (EIS_CMD.SWEEPER.read w) (EIS_CMD.PLAN.read w) (EIS_CMD.CELL.read w) with
  | some e => if go then .failed e.1 e.2 (noteEffects (s.regNotes d EIS_CMD w)) else .ok [] [.write (fullAddr d EIS_CMD) w]
  | none => .ok [] [.write (fullAddr d EIS_CMD) w]

/-- EIS_RESULTS: 16 bytes of each bin (Table 05.7). -/
def formEisResults (s : Chip) (d : Die) (q : List Byte) : Formed :=
  let p := p8 q 0
  let c := p8 q 1
  let b := p8 q 2
  let n := p8 q 3
  if 3 < p then .refuse 0x10 8
  else if 15 < c then .refuse 0x10 9
  else if 31 < b then .refuse 0x10 10
  else if n < 1 ∨ 31 < n ∨ 32 < b + n then .refuse 0x10 11
  else .ok ((s.readWords d (EIS_RES_R c p b) (4 * n)).map fun w => leBytes 4 w.toNat).flatten []

/-- ZT_MODEL: the configuration, and three coefficients of each cell of the mask. -/
def formZtModel (s : Chip) (d : Die) (q : List Byte) : Formed :=
  let cells := (List.range 16).filter fun k => (p16 q 4).testBit k
  let regs := (((List.range cells.length).zip cells).map fun x =>
    [(EIS_ZTA x.2, BitVec.ofNat 32 (p32 q (8 + 12 * x.1))), (EIS_ZTB x.2, BitVec.ofNat 32 (p32 q (12 + 12 * x.1))),
     (EIS_ZTC x.2, BitVec.ofNat 32 (p32 q (16 + 12 * x.1)))]).flatten
  s.formWrites d ((EIS_ZT_CFG, BitVec.ofNat 32 (p32 q 0)) :: regs)

/-! ### Nibs -/

/-- NIB_READ: 16 bytes of each entry, from the master's copy (R21). -/
def formNibRead (s : Chip) (d : Die) (q : List Byte) : Formed :=
  let e := p16 q 0
  let n := p16 q 2
  if 3071 < e then .refuse 0x10 8
  else if n < 1 ∨ 31 < n ∨ 3072 < e + n then .refuse 0x10 10
  else .ok (((List.range n).map fun i => [ MOD_NIB_ID_LO (e + i), MOD_NIB_ID_HI (e + i), MOD_NIB_ENTRY (e + i), MOD_NIB_VALUE (e + i)]).flatten.map
    fun a => leBytes 4 (s.readWord d a).toNat).flatten []

/-- One item of NIB_ASSOC or NIB_ACTION: the word it writes to the entry, or none where the action is not listed. -/
def nibItemWord (s : Chip) (d : Die) (assoc : Bool) (e b : Nat) : Option Word :=
  let w := MOD_NIB_ENTRY.EXCL.write (s.reg d (MOD_NIB_ENTRY e)) 0
  if assoc then some (MOD_NIB_ENTRY.ASSOC.write w b) else
  match b with
  | 1 => some (MOD_NIB_ENTRY.ADMIT.write w 1)
  | 2 => some (MOD_NIB_ENTRY.STATE.write w 4)
  | 3 => some (MOD_NIB_ENTRY.STATE.write w 0)
  | 4 => some (MOD_NIB_ENTRY.EXCL.write w 1)
  | _ => none

/-- One item of NIB_ASSOC or NIB_ACTION (R224, R228): BAD_PARAM for an entry of another die, an action that is not listed, or a write
outside Table 08.10. -/
def nibItem (d : Die) (assoc : Bool) (r : ItemRun) (e b off : Nat) : ItemRun :=
  if r.failed.isSome then r
  else if ownerOf e ≠ d.val then { r with failed := some (0x10, off) }
  else match r.chip.nibItemWord d assoc e b with
    | none => { r with failed := some (0x10, off + 2) }
    | some w => r.step d (MOD_NIB_ENTRY e) w (off + 2)

/-- NIB_ASSOC and NIB_ACTION. -/
def formNibItems (s : Chip) (d : Die) (assoc : Bool) (q : List Byte) : Formed :=
  let m := p8 q 0
  if m < 1 ∨ 125 < m then .items 0x10 8 0 [] else
  let r := (List.range m).foldl (fun r i => nibItem d assoc r (p16 q (4 + 4 * i)) (p8 q (6 + 4 * i)) (12 + 4 * i)) ⟨s, [], 0, none⟩
  let e := r.failed.getD (0, 0)
  .items e.1 e.2 r.done r.effects

/-- NIB_LANE: census, restart or stop of the lanes of the mask. -/
def formNibLane (d : Die) (q : List Byte) : Formed :=
  let f := match p8 q 1 with | 0 => some QLN_CMD.CENSUS | 1 => some QLN_CMD.RESTART | 2 => some QLN_CMD.STOP | _ => none
  match f with
  | none => .refuse 0x10 9
  | some f => .ok [] (([0, 1].filter fun n => (p8 q 0).testBit n).map fun n => .write (fullAddr d (QLN_CMD n)) (f.write 0 1))

/-! ### The ring, folios, faults, calibration, snapshots -/

/-- A write of one module-common register by an opcode (R21). -/
def formCommon (d : Die) (a : Nat) (w : Word) : Formed := .relay 0 0 0 (2 ^ d.val) [.write (fullAddr d a) w]

/-- RING_STATUS. -/
def formRingStatus (s : Chip) (d : Die) : Formed :=
  .ok ([ULK_PORT 0, ULK_PORT 1, ULK_ERR 0, ULK_ERR 1, ULK_MISS 0, ULK_MISS 1, ULK_BDELAY, ULK_PLLSTAT].map fun a =>
    leBytes 4 (s.reg d a).toNat).flatten []

/-- FOLIO_WRITE (R311). -/
def formFolioWrite (s : Chip) (d : Die) (q : List Byte) : Formed :=
  let off := p16 q 0
  let n := p16 q 2
  if off % 4 ≠ 0 ∨ 4096 ≤ off then .refuse 0x10 8
  else if n % 4 ≠ 0 ∨ n < 4 ∨ 496 < n ∨ 4096 < off + n then .refuse 0x10 10
  else if s.bit d FOL_STAT FOL_STAT.PENDING then .refuse 0x12 0
  else .ok [] [.act 0x70 q]

/-- FOLIO_SEAL (R312). -/
def formFolioSeal (s : Chip) (d : Die) (q : List Byte) : Formed :=
  let e := s.sealError d (p32 q 0) (p32 q 4)
  if e.1 = 0 then .ok (leBytes 1 (s.inactiveB d).toNat) [.act 0x71 q]
  else
    let st := sealStatus e.1 8 12
    .failed st.1 st.2 (noteEffects ((FOL_STAT, FOL_STAT.SEALERR, e.1) :: (if e.1 = 5 then [(FOL_ERR, FOL_ERR.RECORD, e.2)] else [])))

/-- FOLIO_STATUS. -/
def formFolioStatus (s : Chip) (d : Die) : Formed :=
  .ok (leBytes 1 (s.get d FOL_STAT FOL_STAT.ACTIVE) ++ leBytes 1 (s.get d FOL_STAT FOL_STAT.AVALID + 2 * s.get d FOL_STAT FOL_STAT.BVALID
    + 4 * s.get d FOL_STAT FOL_STAT.PENDING) ++ [0, 0] ++ leBytes 4 (s.reg d FOL_SEQA).toNat ++ leBytes 4 (s.reg d FOL_SEQB).toNat) []

/-- FAULT_READ. -/
def formFaultRead (s : Chip) (d : Die) : Formed :=
  .ok (((List.range 8).map FCOL_STK ++ (List.range 8).map FCOL_LIVE ++ [FCOL_STATE]).map fun a => leBytes 4 (s.reg d a).toNat).flatten []

/-- FAULT_CLEAR (R367). -/
def formFaultClear (d : Die) (q : List Byte) : Formed :=
  .ok [] (((List.range 8).zip (pWords q 0 8)).map fun x => .write (fullAddr d (FCOL_STK x.1)) x.2)

/-- FAULT_RESUME (R369). -/
def formFaultResume (s : Chip) (d : Die) : Formed :=
  if s.get d FCOL_STATE FCOL_STATE.STATE = 3 then .refuse 0x12 0
  else match s.resumeBlocker d with
    | some n => .refuse 0x12 n
    | none => .ok [] [.act 0x82 []]

/-- FAULT_INJECT (R377). -/
def formFaultInject (s : Chip) (d : Die) (q : List Byte) : Formed :=
  if s.lifecycle d = 4 then .refuse 0x14 4
  else if p8 q 0 < 1 ∨ 0x0D < p8 q 0 then .refuse 0x10 8
  else if p8 q 1 < 1 ∨ 15 < p8 q 1 then .refuse 0x10 9
  else .ok [] [.act 0x83 q]

/-- CAL_RUN (R352, R356). -/
def formCalRun (s : Chip) (d : Die) (q : List Byte) : Formed :=
  if p8 q 0 = 1 ∧ s.lifecycle d ≠ 3 then .refuse 0x14 (s.lifecycle d)
  else if 1 < p8 q 0 then .refuse 0x10 8
  else .ok [] [.act 0xB0 q]

/-- SNAP_READ (R384): words of a block of the snapshot. -/
def formSnapRead (s : Chip) (d : Die) (q : List Byte) : Formed :=
  let n := p8 q 4
  if 1023 < p16 q 2 then .refuse 0x10 10
  else if n < 1 ∨ 126 < n ∨ 1024 < p16 q 2 + n then .refuse 0x10 12
  else
    let a := SNAP_WORD (p8 q 0) (p16 q 2)
    .ok ((s.readWords d a n).map fun w => leBytes 4 w.toNat).flatten (readEffects a n)

/-- SNAP_ARM (R383). -/
def formSnapArm (s : Chip) (d : Die) : Formed :=
  match s.armRefused d false with
  | some m => .refuse 0x12 m
  | none => formCommon d MOD_SNAP_CTRL 1

/-- An opcode executed on the state that the commands before it leave. -/
def opcode (s : Chip) (d : Die) (seq op block : Nat) (form : Chip → List Byte → Formed) : Chip :=
  s.executeEntry d seq op block fun t q => form (t.preview d) q

end Chip

/-- PING (R274). -/
def execPing (d : Die) (f : FrameIn) (s : State) : Host.Outcome State Fault Refusal := s.run (Chip.ping d f)
/-- READ (R272). -/
def execRead (d : Die) (seq : Nat) (s : State) : Host.Outcome State Fault Refusal :=
  s.run fun c => c.opcode d seq 0x02 (c.addressed d seq) fun t q => t.formRead d q
/-- WRITE (R20). -/
def execWrite (d : Die) (seq : Nat) (s : State) : Host.Outcome State Fault Refusal :=
  s.run fun c => c.opcode d seq 0x03 (c.addressed d seq) fun t q => t.formWrite d q
/-- ENUMERATE (R263). -/
def execEnumerate (d : Die) (f : FrameIn) (s : State) : Host.Outcome State Fault Refusal := s.run (Chip.enumerate d f)
/-- STREAM_SET (R83). -/
def execStreamSet (d : Die) (seq : Nat) (s : State) : Host.Outcome State Fault Refusal :=
  s.run fun c => c.opcode d seq 0x10 0x01 fun t q => t.formStreamSet d q
/-- FINE_SELECT (R87). -/
def execFineSelect (d : Die) (seq : Nat) (s : State) : Host.Outcome State Fault Refusal :=
  s.run fun c => c.opcode d seq 0x11 0x30 fun _ q => Chip.formFineSelect d q
/-- BAL_MANAGER (R161). -/
def execBalManager (d : Die) (seq : Nat) (s : State) : Host.Outcome State Fault Refusal :=
  s.run fun c => c.opcode d seq 0x20 0x10 fun t q => t.formBalManager d q
/-- BAL_CHARGE (R163). -/
def execBalCharge (d : Die) (seq : Nat) (s : State) : Host.Outcome State Fault Refusal :=
  s.run fun c => c.opcode d seq 0x21 0x10 fun t q => t.formBalCharge d q
/-- BAL_BLEED (R166). -/
def execBalBleed (d : Die) (seq : Nat) (s : State) : Host.Outcome State Fault Refusal :=
  s.run fun c => c.opcode d seq 0x22 0x10 fun t q => t.formBalBleed d q
/-- BAL_STOP (R168). -/
def execBalStop (d : Die) (seq : Nat) (s : State) : Host.Outcome State Fault Refusal :=
  s.run fun c => c.opcode d seq 0x23 0x10 fun _ q => .ok [] [.act 0x23 q]
/-- EIS_PLAN (R124). -/
def execEisPlan (d : Die) (seq : Nat) (s : State) : Host.Outcome State Fault Refusal :=
  s.run fun c => c.opcode d seq 0x30 0x04 fun t q => t.formEisPlan d q
/-- EIS_START (R123). -/
def execEisStart (d : Die) (seq : Nat) (s : State) : Host.Outcome State Fault Refusal :=
  s.run fun c => c.opcode d seq 0x31 0x04 fun t q => t.formEisStart d q
/-- EIS_RESULTS (R131). -/
def execEisResults (d : Die) (seq : Nat) (s : State) : Host.Outcome State Fault Refusal :=
  s.run fun c => c.opcode d seq 0x32 0x04 fun t q => t.formEisResults d q
/-- ZT_MODEL (R143). -/
def execZtModel (d : Die) (seq : Nat) (s : State) : Host.Outcome State Fault Refusal :=
  s.run fun c => c.opcode d seq 0x33 0x04 fun t q => t.formZtModel d q
/-- NIB_READ (R224). -/
def execNibRead (d : Die) (seq : Nat) (s : State) : Host.Outcome State Fault Refusal :=
  s.run fun c => c.opcode d seq 0x40 0x06 fun t q => t.formNibRead d q
/-- NIB_ASSOC (R228). -/
def execNibAssoc (d : Die) (seq : Nat) (s : State) : Host.Outcome State Fault Refusal :=
  s.run fun c => c.opcode d seq 0x41 0x06 fun t q => t.formNibItems d true q
/-- NIB_ACTION (R228). -/
def execNibAction (d : Die) (seq : Nat) (s : State) : Host.Outcome State Fault Refusal :=
  s.run fun c => c.opcode d seq 0x42 0x06 fun t q => t.formNibItems d false q
/-- NIB_LANE (R230). -/
def execNibLane (d : Die) (seq : Nat) (s : State) : Host.Outcome State Fault Refusal :=
  s.run fun c => c.opcode d seq 0x43 0x05 fun _ q => Chip.formNibLane d q
/-- RING_ROLE (R36). -/
def execRingRole (d : Die) (seq : Nat) (s : State) : Host.Outcome State Fault Refusal :=
  s.run fun c => c.opcode d seq 0x50 0x30 fun _ q => Chip.formCommon d MOD_RING_ROLE (BitVec.ofNat 32 (p32 q 0))
/-- RING_STATUS (R272). -/
def execRingStatus (d : Die) (seq : Nat) (s : State) : Host.Outcome State Fault Refusal :=
  s.run fun c => c.opcode d seq 0x51 0x07 fun t _ => t.formRingStatus d
/-- FOLIO_WRITE (R311). -/
def execFolioWrite (d : Die) (seq : Nat) (s : State) : Host.Outcome State Fault Refusal :=
  s.run fun c => c.opcode d seq 0x70 0x24 fun t q => t.formFolioWrite d q
/-- FOLIO_SEAL (R312). -/
def execFolioSeal (d : Die) (seq : Nat) (s : State) : Host.Outcome State Fault Refusal :=
  s.run fun c => c.opcode d seq 0x71 0x24 fun t q => t.formFolioSeal d q
/-- FOLIO_STATUS (R272). -/
def execFolioStatus (d : Die) (seq : Nat) (s : State) : Host.Outcome State Fault Refusal :=
  s.run fun c => c.opcode d seq 0x72 0x24 fun t _ => t.formFolioStatus d
/-- FAULT_READ (R272). -/
def execFaultRead (d : Die) (seq : Nat) (s : State) : Host.Outcome State Fault Refusal :=
  s.run fun c => c.opcode d seq 0x80 0x26 fun t _ => t.formFaultRead d
/-- FAULT_CLEAR (R367). -/
def execFaultClear (d : Die) (seq : Nat) (s : State) : Host.Outcome State Fault Refusal :=
  s.run fun c => c.opcode d seq 0x81 0x26 fun _ q => Chip.formFaultClear d q
/-- FAULT_RESUME (R369). -/
def execFaultResume (d : Die) (seq : Nat) (s : State) : Host.Outcome State Fault Refusal :=
  s.run fun c => c.opcode d seq 0x82 0x26 fun t _ => t.formFaultResume d
/-- FAULT_INJECT (R377). -/
def execFaultInject (d : Die) (seq : Nat) (s : State) : Host.Outcome State Fault Refusal :=
  s.run fun c => c.opcode d seq 0x83 0x26 fun t q => t.formFaultInject d q
/-- CAL_RUN (R352). -/
def execCalRun (d : Die) (seq : Nat) (s : State) : Host.Outcome State Fault Refusal :=
  s.run fun c => (c.opcode d seq 0xB0 0x25 fun t q => t.formCalRun d q).beginActivities d
/-- SNAP_READ (R384). -/
def execSnapRead (d : Die) (seq : Nat) (s : State) : Host.Outcome State Fault Refusal :=
  s.run fun c => c.opcode d seq 0xD0 0x27 fun t q => t.formSnapRead d q
/-- SNAP_ARM (R383). -/
def execSnapArm (d : Die) (seq : Nat) (s : State) : Host.Outcome State Fault Refusal :=
  s.run fun c => c.opcode d seq 0xD1 0x27 fun t _ => t.formSnapArm d
/-- SELFTEST_RUN (R418). -/
def execSelftestRun (d : Die) (seq : Nat) (s : State) : Host.Outcome State Fault Refusal :=
  s.run fun c => (c.executeEntry d seq 0xA0 0x29 fun t q => t.formSelftest d q).beginActivities d
/-- LOAD_END (R303): its results are those of LOAD_STATUS. -/
def execLoadEnd (d : Die) (src : CmdSrc) (s : State) : Host.Outcome State Fault Refusal :=
  s.run fun c => (c.loadCommand d 0x62 src (Chip.applyLoadEnd d) fun t q =>
    .ok ((t.applyLoadEnd d q).loadStatus d (p16 q 0)) [.act 0x62 q]).beginActivities d
/-- POWER_STATE (R390). -/
def execPowerState (d : Die) (seq : Nat) (s : State) : Host.Outcome State Fault Refusal :=
  s.run fun c => (c.executeEntry d seq 0x90 0x28 fun c q => c.formPowerState d q).beginActivities d
/-- COMMIT_ACK_RECEIVED (R281): the effects take place at the next stroke edge, and the RSP is sent. -/
def execCommitAckReceived (d : Die) (seq : Nat) (s : State) : Host.Outcome State Fault Refusal :=
  s.run fun c =>
    match c.entry? d seq, c.guardianOf d with
    | some e, some g =>
      if e.st == .committed && (c.die g).jnl.mirrors.any fun m => m.1 == d && m.2.seq == seq && m.2.st == .committed then
        (c.releaseEntry d e).beginActivities d
      else c
    | _, _ => c

end Sys2Proof.Machine
end

