-- ==== Sys2Proof/Machine/Edge.lean ====
section
/-! DEFINITION. The three ticks of a die: the stroke edge, the line boundary and the page boundary, each with the work that the blocks
have scheduled for it (R41, R43). -/
namespace Sys2Proof.Machine

namespace Chip

/-! ### Beacons of the stroke that ended (R52, R82, R242, R261) -/

/-- A receive port at a stroke edge: strokes in a row without and with a usable beacon, the count of R261, and the end of the link
fault's cause (R242). -/
def portEdge (d : Die) (p : Port) (s : Chip) : Chip :=
  let n := portNo p
  let heard := s.bit d (ULK_PORT n) ULK_PORT.BEACON
  let up := s.get d (ULK_PORT n) ULK_PORT.STATE == 3
  let r := (s.die d).ring
  let miss := match p with | .a => r.missRunA | .b => r.missRunB
  let good := match p with | .a => r.goodRunA | .b => r.goodRunB
  let miss := if heard then 0 else miss + 1
  let good := if heard && up then good + 1 else 0
  let s := s.cond (!heard) fun s => s.inc d (ULK_MISS n) ULK_MISS.BMISS
  let s := s.updRing d fun r => match p with
    | .a => { r with missRunA := miss, goodRunA := good }
    | .b => { r with missRunB := miss, goodRunB := good }
  (s.cond (decide (4 ≤ good)) fun s => s.cause d (138 + n) false).put d (ULK_PORT n) ULK_PORT.BEACON 0

/-- The beacons of the stroke that ended: a stroke without a usable one is counted, and the pack current is stale (R82). A stroke in which
no phase error was measured ends the runs of R50. -/
def beaconEdge (d : Die) (s : Chip) : Chip :=
  let x := (s.die d).time
  let s := s.cond (!x.got) fun s => s.inc d ULK_PLLSTAT ULK_PLLSTAT.MISSED
  let s := s.cond (!x.fresh) fun s => s.put d CFE_PACKI CFE_PACKI.STALE 1
  let s := s.cond (s.on d 6) fun s => (s.portEdge d .a).portEdge d .b
  s.updTime d fun t => { t with
    got := false, fresh := false, used := false, inRun := if x.used then t.inRun else 0, outRun := if x.used then t.outRun else 0
    foreignNow := none, foreignRun := if x.foreignNow.isNone then 0 else t.foreignRun }

/-- The lanes and the neighbours at a stroke edge: frames put off by a slice are offered (R412), an insertion that holds nothing up has ended (R28), and a stroke without a heartbeat
of the die below or above is counted (R31). -/
def linkEdge (d : Die) (s : Chip) : Chip :=
  if !(s.on d 6) then s else
  (s.offerLate d).updRing d fun r => { r with
    busyUp := r.busyUp && r.heldUp != [], busyDown := r.busyDown && r.heldDown != [], judged := []
    hbBelow := if d.val = 0 then 0 else r.hbBelow + 1, hbAbove := if s.isTop d then 0 else r.hbAbove + 1 }

/-! ### Reactions of the collector (R43, R362, Tables 14.2 and 14.3) -/

/-- The severe overrun of slot n (R197): a bound slot's channel is stopped and its active bin ends, the sweeper back in WAIT_CH; a
general slot is disabled. -/
def severeOverrun (s : Chip) (d : Die) (n : Nat) : Chip :=
  let t := s.put d BCE_STATUS ⟨BCE_STATUS.SEVERE.lo + n, 1⟩ 1
  if 2 ≤ n then t.put d (BCE_SLOT n) BCE_SLOT.EN 0
  else
    let bin := (s.sweep d n).running
    (t.stageOverrun d n).cond bin fun s => ((s.endBin d n 6).dropChannel d n).setSw d n 1

/-- The isolation of one source. Those with a release of their own chapter act where they are raised. -/
def isolate (d : Die) (n : Nat) (s : Chip) : Chip :=
  let t := if ownRelease n || s.isolated d n then s
    else s.upd d fun x => { x with fcol := { x.fcol with isolated := n :: x.fcol.isolated } }
  match n with
  | 108 | 115 => (t.stopRamps d none).bleedsStopEdge d
  | 120 | 121 | 122 | 123 => t.severeOverrun d (n - 120)
  | 132 | 133 => t.cond (t.on d 7) fun s => s.laneDue d (n - 132)
  | _ => t

/-- The reactions of the last evaluation take effect at the stroke edge (R43): isolations, and the actions of the safe state (R362). -/
def reactEdge (d : Die) (s : Chip) : Chip :=
  let x := (s.die d).fcol
  let t := (s.upd d fun x => { x with fcol := { x.fcol with react := [], safeDue := false } }).each x.react fun n s => isolate d n s
  t.cond x.safeDue fun s => (s.stageSafe d).stopActive d 8

/-! ### The stroke edge -/

/-- The loss of a converter channel in the stroke that ended, V_cell·ICELL − V_span·ISPAN in µV × 125 µA (R320), from the FINE samples;
0 where one holds no measurement. -/
def channelLoss (s : Chip) (d : Die) (n : Nat) (icell ispan : Int) : Int :=
  match s.selected d n with
  | none => 0
  | some k =>
    let v := s.getI d (CFE_FINE k) CFE_FINE.SAMPLE
    let sp := (s.die d).cfe.spanFine
    if v = noData ∨ sp = noData then 0 else v * icell - 16 * sp * ispan

/-- A reading of current sense k (ICELL and ISPAN of CX0, then of CX1) with its correction (R339), LSB 125 µA; offsets count 10 µA and
gains 1 ppm. -/
def senseCorrected (s : Chip) (d : Die) (k : Nat) (x : Int) : Int :=
  let f := (s.die d).cal.fac.getD (19 + k) (0, 0)
  let o := f.1 + s.getI d (CAL_IS k) CAL_IS.OFFSET
  let g := f.2 + s.getI d (CAL_IS k) CAL_IS.GAIN
  roundDiv ((125 * x - 10 * o) * (1000000 + g)) 125000000

/-- The readings of a stroke with their corrections. -/
def sensesCorrected (s : Chip) (d : Die) (i : Senses) : Senses :=
  ⟨s.senseCorrected d 0 i.icell0, s.senseCorrected d 1 i.ispan0, s.senseCorrected d 2 i.icell1, s.senseCorrected d 3 i.ispan1,
    i.fir0.map (s.senseCorrected d 0), i.fir1.map (s.senseCorrected d 2), i.vreg5⟩

/-- The losses of the last four strokes. -/
def lossEdge (d : Die) (i : Senses) (s : Chip) : Chip :=
  let a := s.channelLoss d 0 i.icell0 i.ispan0
  let b := s.channelLoss d 1 i.icell1 i.ispan1
  s.updThm d fun x => { x with loss0 := (a :: x.loss0).take 4, loss1 := (b :: x.loss1).take 4 }

/-- Strokes since the die left reset and since D2 powered up, counted to 16 (R299). -/
def warmEdge (d : Die) (s : Chip) : Chip :=
  (s.updShd d fun x => { x with since := min 16 (x.since + 1) }).updPwr d fun x => { x with
    shdWarm := if x.on[2] then min 16 (x.shdWarm + 1) else 0, burstNA := false, burstSB := false }

/-- The blocks of the measurement at a stroke edge. -/
def measureEdge (d : Die) (s : Chip) : Chip :=
  if !(s.runsOn d 1) then s
  else
    let t := s.cond (s.pwr d).stopStroke.isNone fun s => s.updCfe d fun x => { x with stopped := false }
    (((t.notchEdge d).auxEdge d).eisEdge d).cond (s.degraded d) fun s => ((s.owdSpoil d (s.stroke d) 1).stepSpoil d).calSpoil d

/-- A counting source is severe (R365). -/
def severeSource (s : Chip) (d : Die) (n : Nat) : Bool := match countIndex n with | some k => s.severe d k | none => false

/-- The sticky flags whose cause still stands at their evaluation are set again, without an event (R8): CUTSEEN while a cut is in force,
SEVERE of a slot whose overrun source is severe, LINKFLT of a port whose link fault is present, LOST of a die that is not alive (R31). -/
def restoreSticky (d : Die) (s : Chip) : Chip :=
  let t := s.cond (s.bit d THM_STAT THM_STAT.CUT) fun s => s.put d THM_STAT THM_STAT.CUTSEEN 1
  let t := t.each ((List.range 4).filter fun n => s.on d 4 && s.severeSource d (120 + n)) fun n s =>
    s.put d BCE_STATUS ⟨BCE_STATUS.SEVERE.lo + n, 1⟩ 1
  let t := t.each ((List.range 2).filter fun n => s.on d 6 && (s.die d).fcol.present.contains (138 + n)) fun n s =>
    s.put d (ULK_PORT n) ULK_PORT.LINKFLT 1
  let lost := allDies.filter fun n => n != d && s.fitted n && !(s.alive d n)
  t.each lost fun n s => s.put d MOD_TOPOLOGY ⟨MOD_TOPOLOGY.LOST.lo + n.val, 1⟩ 1

/-- A stroke more with a gap before the held entries of the journal (R284). -/
def gapEdge (d : Die) (s : Chip) : Chip :=
  s.cond (s.bit d JNL_STAT JNL_STAT.GAPWAIT) fun s => s.updJnl d fun j => { j with gapStrokes := j.gapStrokes + 1 }

/-- STROKE_EDGE (R41, R43): the number advances; the beacons of the stroke that ended are accounted for; what is due takes effect. -/
def strokeEdge (d : Die) (i : Senses) (s : Chip) : Chip :=
  if !(s.runs d) then s else
  let i := s.sensesCorrected d i
  let t := (((s.setStroke d ((s.stroke d + 1) % 2 ^ 48)).beaconEdge d).linkEdge d).harnessEdge d i.fir0 i.fir1
  let t := (((t.applyDue d).settleUnlisted d).gapEdge d).reactEdge d
  let t := (t.lossEdge d i).dipEdge d i.vreg5
  let t := (t.cond (t.on d 4) fun s => s.engineEdge d).stageEdge d i
  let t := (t.measureEdge d).orderlyStopEdge d
  let t := ((((t.levelEdge d).settledEdge d).snapEdge d).warmEdge d).restoreSticky d
  t.cond (d == 0) fun s => s.driveFaultN

/-! ### The line boundary -/

/-- LINE_BOUNDARY (R41, R45): the line-scheduled work of every block, the cell bus in its order. -/
def lineBoundary (d : Die) (m : LineMeas) (s : Chip) : Chip :=
  if !(s.runs d) || s.lineStroke d != 0 then s else
  let t := s.cond (s.runsOn d 1) fun s => ((s.spareStep d).filterLine d).owdLine d
  let t := ((t.thmLine d).stageLine d m.ion).levellerLine d m.draw
  let t := (t.calLine d).bistLine d
  (((t.padLine d).modeLine d).folioFlush d).supplyLine d m

/-! ### The page boundary -/

/-- ECHO_PROBE_SEND (R262): SD0 and the top die. -/
def echoPage (d : Die) (s : Chip) : Chip :=
  s.cond (s.runsOn d 6 && s.bit d ULK_CFG ULK_CFG.ECHO_EN && (d == 0 || s.isTop d)) fun s =>
    s.updRing d fun r => { r with probeOut := true }

/-- The delays that the die adds to beacons, corrected for its temperature (R48). -/
def hopPage (d : Die) (s : Chip) : Chip := s.cond (s.runsOn d 6) fun s => (s.showHop d .a).showHop d .b

/-- The master of an acting Ring Head sends the ring-wide blot that it schedules, at least 4 strokes ahead, and schedules it for itself: its
own frame comes back taken nowhere (R34, R249, Table 09.11). -/
def blotPage (d : Die) (blot : Option (Nat × Nat)) (s : Chip) : Chip :=
  match blot with
  | some (at_, id) =>
    if s.runsOn d 6 && s.isHead d && s.master d == d && s.address d != 0 && decide (s.stroke d + 4 ≤ at_) then
      let q := s.takeSeq d 7
      let t := (q.2.noteTaken d (s.address d) 7 q.1).enqueue d
        ⟨7, 0, 127, 0, s.address d, d.val, 0, q.1, leBytes 6 at_ ++ leBytes 1 id ++ [0], true, true⟩
      t.cond (t.bit d MOD_SNAP_CFG MOD_SNAP_CFG.RING_EN) fun t => t.scheduleBlot d q.1 at_ id
    else s
  | none => s

/-- The top die. -/
def topDie (s : Chip) : Die := Fin.ofNat 8 (s.get 0 MOD_TOPOLOGY MOD_TOPOLOGY.DIES_M1)

/-- HEARTBEAT_EVENT_SEND (R250, Table 09.8): the module master, where HB_EN allows it. -/
def heartbeatPage (d : Die) (s : Chip) : Chip :=
  s.cond (s.runsOn d 6 && s.master d == d && s.bit d ULK_CFG ULK_CFG.HB_EN) fun s =>
    let port := fun (k : Die) (n : Nat) => if s.alive d k then s.get k (ULK_PORT n) ULK_PORT.STATE else 0
    s.event d 0x0001 (leBytes 4 (s.reg d MOD_FCOL_SUM).toNat ++ leBytes 1 (s.get d MOD_TOPOLOGY MOD_TOPOLOGY.ALIVE)
      ++ leBytes 1 (port 0 0 + 4 * port s.topDie 1) ++ leBytes 1 (s.get d ULK_PLLSTAT ULK_PLLSTAT.STATE) ++ leBytes 1 0)

/-- A bit for each module of a list: bit m − 1 for module m. -/
def moduleMask (l : List Nat) : Nat := (l.filter (0 < ·)).foldl (fun m a => m ||| 2 ^ (a - 1)) 0

/-- RING_SUMMARY_SEND (R34, R260, Table 09.8): the master of an acting Ring Head, from the heartbeats of the page just ended. -/
def ringSummaryPage (d : Die) (s : Chip) : Chip :=
  let r := (s.die d).ring
  let t := s.cond (s.runsOn d 6 && s.master d == d && s.isHead d) fun s =>
    s.event d 0x0006 (leBytes 1 r.heard.length ++ leBytes 16 (moduleMask r.heard) ++ leBytes 16 (moduleMask r.faulted))
  t.updRing d fun r => { r with heard := [], faulted := [] }

/-- Pages counted: since KICK while the core runs and since its restarts (R375), and since LOAD_MISSING (R303). -/
def agesPage (d : Die) (s : Chip) : Chip :=
  let run := s.get d CMD_STAT CMD_STAT.FWSTATE == 3
  let t := s.upd d fun x => { x with fcol := { x.fcol with
    kickPages := if run then x.fcol.kickPages + 1 else 0
    restarts := (x.fcol.restarts.map (· + 1)).filter fun a => decide (a < 1875) } }
  t.updBoot d fun b => { b with missPages := b.missPages + 1 }

/-- The page-scheduled work of the measurement. -/
def measurePage (d : Die) (s : Chip) : Chip :=
  if !(s.runsOn d 1) then s else ((s.owdPage d).pageSummary d).eisPage d

/-- PAGE_BOUNDARY (R41): the page-scheduled work of every block. The collector's hidden test source that fails to arrive raises source 164,
and the die sends its fault order directly (R374). -/
def pageBoundary (d : Die) (m : PageMeas) (s : Chip) : Chip :=
  if !(s.runs d) || s.stroke d % 1024 != 0 then s else
  let t := (((s.ringSummaryPage d).measurePage d).nibPage d).thmPage d
  let t := ((t.calPage d m).cond (t.on d 8) fun s => s.bistPage d).lcyPage d
  let t := ((t.rollWindows d).agesPage d).folioScrub d m.rotA m.rotB
  let t := (if m.testSrcOk then t.cause d 164 false else (t.raise d 164).directOrder d).put d BCE_CYCLES BCE_CYCLES.PEAK 0
  (((t.hopPage d).echoPage d).heartbeatPage d).blotPage d m.blot

end Chip

/-- STROKE_EDGE (R41). -/
def execStrokeEdge (d : Die) (i : Senses) (s : State) : Host.Outcome State Fault Refusal := s.run (Chip.strokeEdge d i)

/-- LINE_BOUNDARY (R41). -/
def execLineBoundary (d : Die) (m : LineMeas) (s : State) : Host.Outcome State Fault Refusal := s.run (Chip.lineBoundary d m)

/-- PAGE_BOUNDARY (R41). -/
def execPageBoundary (d : Die) (m : PageMeas) (s : State) : Host.Outcome State Fault Refusal := s.run (Chip.pageBoundary d m)

end Sys2Proof.Machine
end

