-- ==== Sys2Proof/Machine/Loss.lean ====
section
/-! DEFINITION. The vertical link between the dies of a module: heartbeats, the loss of a neighbour and what its guardian does, and the
relay of writes that reach several dies (R20, R21, R29, R31, R32, R280, R283, R287, R288). -/
namespace Sys2Proof.Machine

/-- The writes of module-common registers that an opcode other than WRITE relays (R21). -/
def commonWrites (e : Entry) : List (Nat × Word) :=
  let q := pktParams e.packet
  match pktOpcode e.packet with
  | 0x11 => ([0, 1, 2, 3].zip (pWords q 0 4)).map fun x => (MOD_FINESEL x.1, x.2)
  | 0x50 => [(MOD_RING_ROLE, BitVec.ofNat 32 (p32 q 0))]
  | 0xD1 => [(MOD_SNAP_CTRL, 1)]
  | _ => []

/-- An entry put in its place by SEQ, in a window about `base`. -/
def putBySeq (base : Nat) (e : Entry) : List Entry → List Entry
  | [] => [e]
  | o :: rest => if seqPlace base e.seq ≤ seqPlace base o.seq then e :: o :: rest else o :: putBySeq base e rest

namespace Chip

/-! ### Relays (R20, R21, R283) -/

/-- The outcome that die `k` has returned, or returns with its effects, for a write relayed by die `src`. -/
def relayOutcome (s : Chip) (k src : Die) (seq : Nat) : Option (Nat × Nat) :=
  let j := (s.die k).jnl
  let waits := j.due.findSome? fun e => match e with
    | .act 0x102 q => if p8 q 0 = src.val ∧ p16 q 1 = seq then some (p8 q 3, p16 q 4) else none
    | _ => none
  ((j.outcomes.find? fun o => o.1 == src && o.2.1 == seq).map fun o => o.2.2).or waits

/-- Die `k` has taken the relay of an entry of die `src`. -/
def relayTaken (s : Chip) (k src : Die) (e : Entry) : Bool :=
  (s.relayOutcome k src e.seq).isSome || e.seenMask.testBit k.val
    || (pktOpcode e.packet == 0xE3 && (s.die k).lcy.target.any fun t => t.2.1 == src.val && t.2.2 == e.seq)

/-- The effects of a relayed write at die `k`, and its outcome: a WRITE is executed item by item, up to the die's own first failing item,
whatever the destination made of it (R20, R283); another module-common write is applied as it stands (R21). -/
def relayEffects (s : Chip) (k src : Die) (e : Entry) : List Effect :=
  let q := pktParams e.packet
  if pktOpcode e.packet = 0x03 then
    let r := (s.preview k).writeItems k (p32 q 0 % 0x20000000) (pWords q 8 (p8 q 4))
    let o := r.failed.getD (0, 0)
    r.effects ++ [.act effOutcome (outcomeBytes src e.seq o.1 o.2)]
  else if pktOpcode e.packet = 0xE3 then [.act 0xE3 (leBytes 1 (p8 q 0) ++ leBytes 1 src.val ++ leBytes 2 e.seq)]
  else (commonWrites e).map (fun x => .write (fullAddr k x.1) x.2) ++ [.act effOutcome (outcomeBytes src e.seq 0 0)]

/-- Die `k` takes a relayed write: its effects are due at the next stroke edge. -/
def takeRelay (k src : Die) (e : Entry) (s : Chip) : Chip :=
  if s.relayTaken k src e then s else
  let eff := s.relayEffects k src e
  s.updJnl k fun j => { j with due := j.due ++ eff }

/-- A committed write of die `src` whose commit its guardian has acknowledged, and that other dies have to apply (R283). -/
def relaysNow (s : Chip) (src : Die) (e : Entry) : Bool :=
  let recorded := match s.guardianOf src with
    | some g => (s.die g).jnl.mirrors.any fun m => m.1 == src && m.2.seq == e.seq && m.2.st == .committed
    | none => true
  e.st == .committed && e.relay && e.released && recorded

/-- A relay reaches die `d`. A module-common write reaches the master first, and the others once it has applied the write (R21). -/
def relayRow (d src : Die) (seq : Nat) (broadcast : Bool) (s : Chip) : Chip :=
  match s.entry? src seq with
  | some e =>
    if s.runsOn d 6 && d != src && s.alive d d && s.relaysNow src e && broadcastEntry e == broadcast
        && (!(commonEntry e) || s.master src == d || s.masterDone src e) then s.takeRelay d src e
    else s
  | none => s

/-! ### Heartbeats (R29, R381, R288) -/

/-- Dies `d` and `n` are neighbours on the vertical link. -/
def adjacent (s : Chip) (d n : Die) : Bool := s.fitted d && s.fitted n && (d.val + 1 == n.val || n.val + 1 == d.val)

/-- The summary part that a heartbeat of `src` carries: the bits of `src` and of the dies beyond it, as `src` holds them (R381). -/
def takeSummary (s : Chip) (d src : Die) : Chip :=
  let far := allDies.filter fun k => if d < src then src ≤ k else k ≤ src
  s.each far fun k s => s.each [ MOD_FCOL_SUM.SAFE, MOD_FCOL_SUM.CONTAINED, MOD_FCOL_SUM.SEVERE] fun f s =>
    s.put d MOD_FCOL_SUM ⟨f.lo + k.val, 1⟩ (s.get src MOD_FCOL_SUM ⟨f.lo + k.val, 1⟩)

/-- JNL_GUARD of every live die follows the topology. -/
def showGuards (s : Chip) : Chip := s.each s.liveDies fun k s => s.showGuard k

/-- A lost die has come back from a cold start (R288): it is alive, and its guardian no longer answers for it. -/
def dieReturns (s : Chip) (n : Die) : Chip :=
  let t := s.putAll MOD_TOPOLOGY ⟨MOD_TOPOLOGY.ALIVE.lo + n.val, 1⟩ 1
  ((t.each t.liveDies fun k s => s.put k JNL_GUARD ⟨JNL_GUARD.LOSTW.lo + n.val, 1⟩ 0).showGuards).driveFaultN

/-- HEARTBEAT_RECEIVED (R29, R31). -/
def heartbeatReceived (d src : Die) (s : Chip) : Chip :=
  if !(s.runsOn d 6 && s.runsOn src 6 && s.adjacent d src) then s else
  let t := s.updRing d fun r => if src < d then { r with hbBelow := 0 } else { r with hbAbove := 0 }
  (t.takeSummary d src).cond (!(t.alive d src) && t.alive src src) fun s => s.dieReturns src

/-! ### The loss of a die (R31, R32, R280, R283, R287) -/

/-- The dies that must still apply a relayed write of a lost die take it, at its guardian's hand (R283): the module, and the entry with
their outcomes. -/
def completeRelay (s : Chip) (n : Die) (e : Entry) : Chip × Entry :=
  let ks := s.liveDies.filter fun k => k != n && !(e.seenMask.testBit k.val)
  let t := s.each ks fun k s => s.takeRelay k n e
  (t, ks.foldl (fun e k =>
    let o := (t.relayOutcome k n e.seq).getD (0, 0)
    e.withOutcome k o.1 o.2) e)

/-- The guardian `g` answers one mirrored entry of its lost ward `n` (R287). -/
def answerWard (g n : Die) (e : Entry) (s : Chip) : Chip :=
  let op := pktOpcode e.packet
  if e.st ≠ .committed then
    (s.inc g JNL_CNT JNL_CNT.STRANDED).respond g n e.smod e.tag e.seq op 0x18 n.val (dieMask n e.packet 0) []
  else
    let c := if e.relay then s.completeRelay n e else (s, e)
    let v := if e.relay then c.1.relayVerdict n c.2 else (e, dieMask n e.packet e.doneMask)
    (c.1.forgetOutcomes n e.seq).respond g n e.smod e.tag e.seq op v.1.status v.1.detail v.2
      (if v.1.status ≤ 0x02 || kindI op then v.1.results else [])

/-- The mirrors of a ward in SEQ order. -/
def wardEntries (s : Chip) (g n : Die) : List Entry :=
  let es := ((s.die g).jnl.mirrors.filter fun m => m.1 == n).map (·.2)
  es.foldl (fun l e => putBySeq ((es.map (·.seq)).headD 0) e l) []

/-- WARD_LOST_ANSWER (R32, R287): the guardian answers every mirrored entry of the lost die, and from then on its new commands. -/
def wardLost (s : Chip) (g n : Die) : Chip :=
  let t := s.each (s.wardEntries g n) fun e s => answerWard g n e s
  (t.updJnl g fun j => { j with mirrors := j.mirrors.filter fun m => m.1 != n }).put g JNL_GUARD ⟨JNL_GUARD.LOSTW.lo + n.val, 1⟩ 1

/-- GUARDIAN_REASSIGN (R280): a ward of the lost die mirrors its unanswered entries with its new guardian; with none left its entries
are accepted and released at once. -/
def newGuardian (w : Die) (s : Chip) : Chip :=
  let open_ := (s.die w).jnl.entries.filter fun e => e.st != .answered
  match s.guardianOf w with
  | some g => s.updJnl g fun j => { j with
      mirrors := (j.mirrors.filter fun m => m.1 != w) ++ open_.map fun e => (w, e) }
  | none =>
    let t := s.each (open_.filter fun e => !e.mirrored) fun e s => s.acceptMirrored w e.seq
    t.each (open_.filter fun e => e.st == .committed && !e.released) fun e s =>
      (s.releaseEntry w e).beginActivities w

/-- A write whose outcomes from every die still live have come is answered: none comes any more from a lost die (R20). With the master
lost, a module-common write waits for it no longer (R21). -/
def relaysEnd (w : Die) (s : Chip) : Chip :=
  s.each ((s.die w).jnl.entries.filter fun e => s.relaysNow w e) fun e s =>
    if !(s.liveDies.all fun k => e.seenMask.testBit k.val) then s.ownTurn w e.seq
    else if pktOpcode e.packet != 0xE3 || e.doneMask.testBit w.val then s.answerRelay w e else s

/-- NEIGHBOUR_LOST (R31): after 8 strokes without a heartbeat of neighbour `n` die `d` declares it lost. -/
def neighbourLost (d n : Die) (s : Chip) : Chip :=
  let run := if n < d then (s.die d).ring.hbBelow else (s.die d).ring.hbAbove
  if !(s.runsOn d 6 && s.adjacent d n && s.alive d n && decide (8 ≤ run)) then s else
  let g := s.guardianOf n
  let wards := s.liveDies.filter fun w => w != n && s.guardianOf w == some n
  let t := (s.putAll MOD_TOPOLOGY ⟨MOD_TOPOLOGY.ALIVE.lo + n.val, 1⟩ 0).putAll MOD_TOPOLOGY ⟨MOD_TOPOLOGY.LOST.lo + n.val, 1⟩ 1
  let t := (t.report d 146).updRing d fun r => { r with orderSent := d.val != 0 }
  let t := match g with | some g => t.wardLost g n | none => t
  let t := (t.each wards newGuardian).each t.liveDies fun k s => (s.relaysEnd k).rosterDieLost k n
  t.showGuards.driveFaultN

end Chip

/-- HEARTBEAT_RECEIVED (R29). -/
def execHeartbeatReceived (d src : Die) (s : State) : Host.Outcome State Fault Refusal := s.run (Chip.heartbeatReceived d src)

/-- NEIGHBOUR_LOST (R31). -/
def execNeighbourLost (d n : Die) (s : State) : Host.Outcome State Fault Refusal := s.run (Chip.neighbourLost d n)

/-- BROADCAST_WRITE_RELAY (R20). -/
def execBroadcastWriteRelay (d src : Die) (seq : Nat) (s : State) : Host.Outcome State Fault Refusal :=
  s.run (Chip.relayRow d src seq true)

/-- MODULE_COMMON_WRITE_RELAY (R21). -/
def execModuleCommonWriteRelay (d src : Die) (seq : Nat) (s : State) : Host.Outcome State Fault Refusal :=
  s.run (Chip.relayRow d src seq false)

end Sys2Proof.Machine
end

