-- ==== Sys2Proof/Machine/Startup.lean ====
section
/-! DEFINITION. The starts of a die: the cold start, the reset of a die other than power loss, and the wake from DOZE, NIGHTCAP or DEEP
(R17, R57, R60, R286, R288, R295 to R299, R308, R309, R387, R401, R404, R423, R431). -/
namespace Sys2Proof.Machine

namespace Chip

/-! ### Parts of a start -/

/-- D6 powers up: the ports begin to train (R241), the ends of the module marked. The transceivers take the conductors back from the tone
driver and the tone detector (R29). -/
def portsUp (s : Chip) (d : Die) : Chip :=
  let t := (s.movePort d .a 1).movePort d .b 1
  let t := (t.put d ULK_RING ULK_RING.TONE_IN 0).put d ULK_RING ULK_RING.TONE_PASS 0
  (t.putB d (ULK_PORT 0) ULK_PORT.EXT (d == 0)).putB d (ULK_PORT 1) ULK_PORT.EXT (t.isTop d)

/-- What the lifecycle state fixes in a die whose domains power up (R432, Table 16.3): the self-test enables in FIELD and RETIRED, and
the stage in RETIRED. -/
def lifecycleUp (s : Chip) (d : Die) : Chip :=
  let st := s.lifecycle d
  let t := s.cond (st == 2 || st == 4) fun s => (s.put d BIST_CFG BIST_CFG.PERIODIC 1).put d BIST_CFG BIST_CFG.ELEM_EN 1
  t.cond (st == 4) fun s => s.stageRetire d

/-- The domains of a list power up (R387). -/
def domainsUp (s : Chip) (d : Die) (l : List (Fin 9)) : Chip :=
  let new := l.filter fun k => !(s.on d k)
  let t := s.updPwr d fun x => { x with on := new.foldl (fun (on : Vector Bool 9) (k : Fin 9) => on.set k true) x.on }
  let t := (t.cond (new.contains 6) fun s => s.portsUp d).cond (new.contains 7) fun s => s.lanesUp d
  ((t.cond (new.contains 8) fun s => s.bistRestart d).lifecycleUp d).cond (new.contains 3) fun s => s.padsShow d

/-- The cell-count straps (R296). -/
def readStraps (s : Chip) (d : Die) (cst : Nat) : Chip :=
  let bad := decide (8 < cst)
  ((s.put d BOOT_STAT BOOT_STAT.CST cst).cond bad fun s => s.put d BOOT_STAT BOOT_STAT.CSTERR 1).put
    d CFE_CONFIG CFE_CONFIG.CELLS (if bad then 16 else 16 - cst)

/-- The boot ROM keeps the die: D1 to D8 stay off, and it answers only PING and FAULT_READ (R17, R295). -/
def bootFails (s : Chip) (d : Die) (src : Nat) : Chip :=
  (((s.report d src).put d FCOL_STATE FCOL_STATE.STATE 3).upd d fun x =>
    { x with boot := { x.boot with stuck := true, done := false } }).driveFaultN

/-- The position straps disagree with the place of the die (R17): SDn has n dies below it on the vertical link. -/
def strapFault (s : Chip) (d : Die) (b : BootFacts) : Bool :=
  b.pos != d.val || (b.top && allDies.any fun k => decide (d < k) && s.fitted k && s.on k 0)

/-- The PLL of a die whose MCLK has started: it acquires, or counts on its own with TALIGN = 1 (R50, R55). -/
def startPll (s : Chip) (d : Die) : Chip :=
  (s.setPll d (if s.mode d FOL_MODENOW.TALIGN then 3 else 0)).updTime d fun t => { t with inRun := 0, outRun := 0, stepBy := none }

/-! ### Cold start (R295) -/

/-- The fused records applied before the memory test (R423, R431, R437), with the sources of the failed channels and of a failed spare (R429)
and of the third loss (R430). -/
def applyFuses (s : Chip) (d : Die) : Chip :=
  let f := (s.die d).lcy.fuses
  let t := s.updBist d fun x => { x with rows := f.rows, cols := f.cols }
  let t := t.each (List.range 18) fun m s =>
    ((s.put d (BIST_MAC m) BIST_MAC.SPROWS (min 2 (f.rows.filter (·.1 == m)).length)).putB d (BIST_MAC m) BIST_MAC.SPCOL
      (f.cols.any (·.1 == m))).putB d (BIST_MAC m) BIST_MAC.FUSED ((f.rows ++ f.cols).any (·.1 == m))
  let t := t.each f.marked fun x s => s.put d (BIST_ELEM x.1) BIST_ELEM.MARKED x.2
  let t := (t.putB d BIST_REPAIR BIST_REPAIR.SPAREFAIL f.spareFail).putB d BIST_REPAIR BIST_REPAIR.FUSED f.target.isSome
  let failed := f.shadow ++ f.target.toList ++ (if f.spareFail then [16] else [])
  let t := t.put d BIST_CHFAIL BIST_CHFAIL.FAILED (failed.foldl (fun m c => m ||| 2 ^ c) 0)
  let t := t.put d BIST_REPAIR BIST_REPAIR.LOSSES (min 3 (f.shadow.length + (f.spareFail && f.target.isNone).toNat))
  let t := (t.updCfe d fun x => { x with shadowOnly := f.shadow }).each f.shadow fun c s =>
    s.raise d (if f.target = some c then 82 else 66 + c)
  let t := t.cond (f.spareFail && f.target.isNone) fun s => s.raise d 82
  let t := t.cond (t.get d BIST_REPAIR BIST_REPAIR.LOSSES == 3) fun s => s.report d 112
  match f.target with
  | some c => (t.put d BIST_REPAIR BIST_REPAIR.SPARETGT c).setSpare d c 4 4
  | none => if f.spareFail then t.setSpare d 0x1F 4 4 else t

/-- The fused lifecycle state and key marks (R433, R436). -/
def applyLifecycle (s : Chip) (d : Die) : Chip :=
  let l := (s.die d).lcy
  (((s.put d LCY_STATE LCY_STATE.STATE l.state).put d LCY_KEYS LCY_KEYS.PROG l.prog).put d LCY_KEYS LCY_KEYS.REVOKED l.revoked).put d
    LCY_KEYS LCY_KEYS.SKEY l.skey

/-- Step 2 of Table 11.1: the fused factory words are copied into the registers `CAL_FACs` and `THM_NBRi` (R338, R340), and the
trims and factory corrections that they give at the present die temperature (LSB as THM_TDIE) are loaded. -/
def loadFactory (s : Chip) (d : Die) (temp : Int) : Chip :=
  let s := s.each (s.die d).lcy.fuses.factory fun e s => s.setReg d e.1 e.2
  let of_ := fun (a : Nat → Nat) (f : Fld) => interpolate (fun k => s.getI d (a k) f) temp
  let trims := [of_ CAL_FAC_OSC CAL_FAC_OSC.MCLKTRIM, of_ CAL_FAC_OSC CAL_FAC_OSC.LFTRIM, of_ CAL_FAC_REF CAL_FAC_REF.BGTRIM,
    of_ CAL_FAC_REF CAL_FAC_REF.ZTRIM, of_ CAL_FAC_SH CAL_FAC_SH.SHTRIM, 0]
  (s.updThm d fun x => { x with trims := trims }).updCal d fun x => { x with fac := s.factoryAt d temp, facNext := s.factoryAt d temp }

/-- A powered die of the module other than the one that starts, and whether it holds the one that starts for lost (R288). -/
def mate (s : Chip) (d : Die) : Option Die := allDies.find? fun k => k != d && s.on k 0
def wasLost (s : Chip) (d : Die) : Bool := (s.mate d).any fun k => !(s.alive k d)

/-- The shape of the module as a starting die learns it from a die that is up (R33), and the session (R275); a die that was lost also takes the
address (R288). -/
def learnModule (s : Chip) (d : Die) : Chip :=
  match s.mate d with
  | none => s
  | some k =>
    let s := s.setReg d MOD_SESSION (s.reg k MOD_SESSION)
    if s.wasLost d then (s.setReg d MOD_TOPOLOGY (s.reg k MOD_TOPOLOGY)).put d MOD_TOPOLOGY ⟨MOD_TOPOLOGY.ALIVE.lo + d.val, 1⟩ 1
    else s.put d MOD_TOPOLOGY MOD_TOPOLOGY.DIES_M1 (s.get k MOD_TOPOLOGY MOD_TOPOLOGY.DIES_M1)

/-- The TOP strap of a die whose straps are right: the die is the north end, and no die above it is fitted (R17, R33). -/
def topStrap (s : Chip) (d : Die) : Chip :=
  (s.putAll MOD_TOPOLOGY MOD_TOPOLOGY.DIES_M1 d.val).each (allDies.filter fun k => s.on k 0) fun k s =>
    s.put k MOD_TOPOLOGY MOD_TOPOLOGY.ALIVE (s.get k MOD_TOPOLOGY MOD_TOPOLOGY.ALIVE % 2 ^ (d.val + 1))

/-- A lost die that has started again says so (R288). -/
def rejoin (s : Chip) (d : Die) : Chip :=
  (s.put d JNL_STAT JNL_STAT.REJOIN 1).event d 0x0141 (leBytes 1 d.val ++ leBytes 2 (s.get d MOD_SESSION MOD_SESSION.SESSION))

/-- COLD_START (R295, Table 11.1): D0 starts, the boot ROM checks the die, and the domains power up. -/
def coldStart (d : Die) (b : BootFacts) (s : Chip) : Chip :=
  let x := s.pwr d
  if !(s.fitted d) || x.on[0] || (x.off && !x.wakeDue) then s else
  let lcy := (s.die d).lcy
  let lost := s.wasLost d
  let t : Chip := { s with regs := s.regs.filter fun e => addrDie e.1 != d.val }
  let t := t.upd d fun _ => { DieX.reset with lcy := lcy }
  let t := t.updPwr d fun y => { y with on := y.on.set 0 true, mclk := true }
  let t := ((t.learnModule d).applyLifecycle d).startPll d
  let t := (t.putB d BOOT_STAT BOOT_STAT.ROMOK b.romOk).putB d BOOT_STAT BOOT_STAT.FUSEOK b.fuseOk
  if !(b.romOk && b.fuseOk) then t.bootFails d 167
  else if t.strapFault d b then t.bootFails d 166
  else
    let t := (t.cond b.top fun t => t.topStrap d).put d BOOT_STAT BOOT_STAT.STRAPOK 1
    let t := (t.loadFactory d b.temp).readStraps d b.cst
    let t := (t.applyFuses d).each b.rowFails fun f s => s.repairRow d f.1 f.2.1 f.2.2
    let t := t.updBoot d fun y => { y with done := true }
    let t := (((t.domainsUp d [1, 2, 3, 4, 5, 6, 7, 8]).setCalState d 4).showGuard d).driveFaultN
    t.cond lost fun t => t.rejoin d

/-! ### Die reset (R286) -/

/-- The journal over a die reset: committed entries are answered with their stored result and not executed again, but for a write that
other dies still apply; executing entries are accepted again. The effects of committed commands, executed exactly once (R285), still take
place at the next stroke edge (R281 step 4). -/
def journalReset (s : Chip) (d : Die) : Chip :=
  let t := s.updJnl d fun j => { j with
    entries := j.entries.map fun e => if e.st == .executing then { e with st := .accepted } else e }
  t.each ((t.die d).jnl.entries.filter fun e => e.st == .committed && !e.relay) fun e s => s.releaseEntry d e

/-- The stamps of the ring side in a count that restarts at 0 (R60, R259, R304): each keeps its age. -/
def ringRebase (r : RingX) (old : Nat) : RingX :=
  let age := fun (a : Nat) => (2 ^ 48 + a - old) % 2 ^ 48
  { r with taken := r.taken.map fun e => (e.1, e.2.1, e.2.2.1, age e.2.2.2), missing := r.missing.map fun m => { m with at_ := age m.at_ } }

/-- What the hidden state of a die keeps over a die reset beside what its domains keep. The count starts again at 0 (R60), so that no wait of
a stroke number goes on; reactions and the safe state's actions that wait for the stroke edge still come (R363). -/
def resetHidden (x : DieX) : DieX :=
  { x with
    time := { x.time with stroke := 0, stepBy := none, replaceBy := none, afterOvf := false, gapMask := 0 }
    jnl := { x.jnl with entries := x.jnl.entries.map fun e => { e with waitFrom := none } }
    pwr := { x.pwr with
      ackAt := x.pwr.ackAt - x.time.stroke.toNat, stopStroke := x.pwr.stopStroke.map (· - x.time.stroke.toNat) }
    fcol := { x.fcol with resume := false, kickPages := 0 }
    fol := { x.fol with held := none }
    snap := { x.snap with trig := 0, cycle := 0, armDue := false }
    thm := { ThmX.reset with cuts := x.thm.cuts, trims := x.thm.trims, trimsDue := x.thm.trimsDue, lastGood := x.thm.lastGood }
    boot := { x.boot with checking := false, locked := [] } }

/-- The registers and the hidden state of a die reset: what is held in D0 stays (R11), the lanes of the vertical link and the ring go
on (R286). -/
def resetDie (s : Chip) (d : Die) : Chip :=
  let ports := [0, 1].map fun n => (n, s.reg d (ULK_PORT n))
  let ring := ringRebase (s.die d).ring (s.stroke d)
  let pass := (s.die d).cal.pass.isSome || s.calState d == 4
  let t := s.each [1, 2, 3, 4, 5, 6, 7, 8] fun k s => s.loseDomain d k false
  let t := (t.loseRegs d (fun a => addrDomain a == 0) false).upd d resetHidden
  let t := (t.updRing d fun _ => ring).each ports fun p s =>
    ((s.put d (ULK_PORT p.1) ULK_PORT.STATE (ULK_PORT.STATE.read p.2)).put d (ULK_PORT p.1) ULK_PORT.EXT (ULK_PORT.EXT.read p.2)).put d
      (ULK_PORT p.1) ULK_PORT.OUTDOWN (ULK_PORT.OUTDOWN.read p.2)
  ((t.put d FCOL_STATE FCOL_STATE.INJ 0).cond pass fun s => s.put d CAL_STAT CAL_STAT.PENDING 1).putAll MOD_SNAP_STAT
    ⟨MOD_SNAP_STAT.UNREAD.lo + d.val, 1⟩ 0 |>.showLevel d

/-- A core that ran is started again where its domain has power and its image is checked (R308, R309). -/
def coreAgain (s : Chip) (d : Die) : Chip :=
  let t := s.put d CMD_STAT CMD_STAT.LOOP 0
  t.cond ((s.die d).boot.ranBefore && s.on d 5 && s.get d BOOT_LOAD BOOT_LOAD.STATE == 3) fun s => s.restartCore d

/-- DIE_RESET (R286): any reset other than power loss. The boot ROM checks the signature, the fuses and the position straps at a start of D0
(R17, R295): a die that it keeps for one of them is kept on. A self-test slice in progress is cut short (R415). -/
def dieReset (d : Die) (b : BootFacts) (s : Chip) : Chip :=
  if !(s.fitted d && s.on d 0) then s else
  let kept := (s.die d).boot.stuck
  let ran := s.get d CMD_STAT CMD_STAT.FWSTATE == 3
  let s := s.cond b.inSlice fun s => s.cutSlice d
  let t := (((s.journalReset d).resetDie d).report d 156).put d BOOT_STAT BOOT_STAT.START 1
  if kept then (t.put d FCOL_STATE FCOL_STATE.STATE 3).driveFaultN
  else
    let t := ((t.readStraps d b.cst).startPll d).updBoot d fun x => { x with ranBefore := ran }
    let t := t.cond (t.on d 7) fun s => s.lanesUp d
    (((((t.lifecycleUp d).folioCheck d b).folioSelect d).coreAgain d).showJournal d).driveFaultN

/-! ### Wake (R387, R401) -/

/-- The count rebuilt from sleep ticks (R57): the stroke the wake tick lies in, and the bound U. -/
def rebuild (strokeAtE phase ticks ratio : Nat) (comp : Bool) : Nat × Nat :=
  let cycles := phase * 2 ^ 16 + ticks * ratio
  let strokes := cycles / 2 ^ 26
  let part := roundDiv (cycles % 2 ^ 26 : Nat) (2 ^ 16)
  let p := if comp then 300 else 2000
  (strokeAtE + strokes + (if part = 1024 then 1 else 0), (strokes * p + 999999) / 1000000 + 1)

/-- The count at a wake from sleep (R57, R58, R60): rebuilt, or from 0 where the sleep ticks have saturated. The strokes that pass until
MCLK runs again are free, up to the 200 µs of Table 15.8. The GAP record of the sleep comes with the first samples (R61); where no estimate
is made it comes with the beacon's count (R60). -/
def wakeCount (s : Chip) (d : Die) (ticks : Nat) : Chip :=
  let x := (s.die d).time
  let full := 2 ^ 40 - 1
  let was := s.get d PWR_SLEEP_TICKS_LO PWR_SLEEP_TICKS_LO.TICKS + 2 ^ 32 * s.get d PWR_SLEEP_TICKS_HI PWR_SLEEP_TICKS_HI.TICKS_HI
  let ovf := decide (full ≤ was) || decide (full ≤ ticks)
  let n := min ticks full
  let comp := (s.pwr d).ncComp && s.get d PWR_ENTRY PWR_ENTRY.TARGET == 2
  let t := (s.put d PWR_SLEEP_TICKS_LO PWR_SLEEP_TICKS_LO.TICKS (n % 2 ^ 32)).put d PWR_SLEEP_TICKS_HI PWR_SLEEP_TICKS_HI.TICKS_HI (n / 2 ^ 32)
  let t := (t.putB d PWR_SLEEP_TICKS_HI PWR_SLEEP_TICKS_HI.COMP comp).cond ovf fun s =>
    s.put d PWR_SLEEP_TICKS_HI PWR_SLEEP_TICKS_HI.OVF 1
  let r := rebuild x.strokeAtE.toNat (s.get d PWR_SLEEP_TICKS_HI PWR_SLEEP_TICKS_HI.ENTRY_PHASE) n (s.reg d PWR_SLEEP_RATIO).toNat comp
  let t := t.updTime d fun y => { y with
    gapMask := if ovf then 0 else y.gapMask, supervised := false, firstAfterWake := true, got := false, fresh := false, used := false, replaceBy := none, afterOvf := ovf }
  if ovf then ((t.setStroke d 0).put d ULK_STROKE_HI ULK_STROKE_HI.VALID 0).put d ULK_STROKE_HI ULK_STROKE_HI.ESTIMATED 0
  else
    let now := r.1 + Config.freeNat s.free % 8
    let t := ((t.setStroke d (now % 2 ^ 48)).put d ULK_STROKE_HI ULK_STROKE_HI.VALID 1).put d ULK_STROKE_HI ULK_STROKE_HI.ESTIMATED 1
    (t.putSat d PWR_WAKE_BOUND PWR_WAKE_BOUND.BOUND r.2).draw

/-- What DEEP does not keep (R309, R386): code RAM, and with it the load. -/
def codeLost (s : Chip) (d : Die) : Chip :=
  let t := (((s.setReg d BOOT_LOAD 0).put d BOOT_MISS BOOT_MISS.FIRSTMISS 0xFFFF).put d CMD_STAT CMD_STAT.FWSTATE 0).put d CMD_STAT CMD_STAT.LOOP 0
  t.updBoot d fun b => { b with code := [], blocks := [], nblocks := 0, checking := false, resultSent := false }

/-- WAKE_FROM_SLEEP (R401, R298): from DOZE the domains that were off and the core; from NIGHTCAP or DEEP also MCLK and the count. -/
def wakeFromSleep (d : Die) (ticks : Nat) (b : BootFacts) (s : Chip) : Chip :=
  if !(s.fitted d && s.on d 0 && (s.pwr d).wakeDue) then s else
  let doze := (s.pwr d).mclk
  let deep := s.get d PWR_ENTRY PWR_ENTRY.TARGET == 3 && !doze
  let src := (s.pwr d).ncSources
  let t := (s.updPwr d fun x => { x with wakeDue := false, mclk := true, ncSources := [], ncAgain := false }).setPwr d 0 0 0
  let t := if doze then t else (t.wakeCount d ticks).startPll d
  let t := t.put d BOOT_STAT BOOT_STAT.START (if deep then 3 else 2)
  let t := t.cond deep fun s =>
    (((s.codeLost d).put d BOOT_STAT BOOT_STAT.CALDONE 0).each (b.rowFails.filter fun f => f.1 < 12) fun f s => s.repairRow d f.1 f.2.1 f.2.2).setCalState d 4
  let t := ((t.folioCheck d b).folioSelect d).domainsUp d [2, 6, 5, 1, 3, 4, 7, 8]
  (if deep then t else t.coreAgain d).each src fun n s => s.report d n

end Chip

/-- COLD_START (R295). -/
def execColdStart (d : Die) (b : BootFacts) (s : State) : Host.Outcome State Fault Refusal := s.run (Chip.coldStart d b)

/-- DIE_RESET (R286). -/
def execDieReset (d : Die) (b : BootFacts) (s : State) : Host.Outcome State Fault Refusal := s.run (Chip.dieReset d b)

/-- WAKE_FROM_SLEEP (R401). -/
def execWakeFromSleep (d : Die) (ticks : Nat) (b : BootFacts) (s : State) : Host.Outcome State Fault Refusal :=
  s.run (Chip.wakeFromSleep d ticks b)

end Sys2Proof.Machine
end

