-- ==== Sys2Proof/Machine/Dispatch.lean ====
section
/-! DEFINITION. The meaning of every command: one direct call for each row of the table. -/
namespace Sys2Proof.Machine

def exec (i : Instr) (s : State) : Host.Outcome State Fault Refusal :=
  match i with
  | .coldStart d b => Sys2Proof.Machine.execColdStart d b s
  | .dieReset d b => Sys2Proof.Machine.execDieReset d b s
  | .folioReapply d => Sys2Proof.Machine.execFolioReapply d s
  | .strokeEdge d x => Sys2Proof.Machine.execStrokeEdge d x s
  | .lineBoundary d m => Sys2Proof.Machine.execLineBoundary d m s
  | .pageBoundary d m => Sys2Proof.Machine.execPageBoundary d m s
  | .ringHeadChange d => Sys2Proof.Machine.execRingHeadChange d s
  | .cfeLatch d chans => Sys2Proof.Machine.execCfeLatch d chans s
  | .shdConversion d code spanCode testCode verdictOk => Sys2Proof.Machine.execShdConversion d code spanCode testCode verdictOk s
  | .auxConversion d codeA codeB diff => Sys2Proof.Machine.execAuxConversion d codeA codeB diff s
  | .bceStrokeProgram d stalls => Sys2Proof.Machine.execBceStrokeProgram d stalls s
  | .pgenStep d => Sys2Proof.Machine.execPgenStep d s
  | .eisCorrelate d finished => Sys2Proof.Machine.execEisCorrelate d finished s
  | .streamFrameAssemble d => Sys2Proof.Machine.execStreamFrameAssemble d s
  | .nibRosterTransfer d parity => Sys2Proof.Machine.execNibRosterTransfer d parity s
  | .thmEvaluation d readings coreMW => Sys2Proof.Machine.execThmEvaluation d readings coreMW s
  | .thermalHoldSet d => Sys2Proof.Machine.execThermalHoldSet d s
  | .cutTrip d sensor => Sys2Proof.Machine.execCutTrip d sensor s
  | .cutRelease d sensor => Sys2Proof.Machine.execCutRelease d sensor s
  | .bistSlice d finished response rowFails => Sys2Proof.Machine.execBistSlice d finished response rowFails s
  | .pwrHandshakeStep d => Sys2Proof.Machine.execPwrHandshakeStep d s
  | .fcolEvaluation d parityOk readbackOk => Sys2Proof.Machine.execFcolEvaluation d parityOk readbackOk s
  | .ucIsolationLift d => Sys2Proof.Machine.execUcIsolationLift d s
  | .resumeApply d => Sys2Proof.Machine.execResumeApply d s
  | .clockMonitorCheck d count lfAlive => Sys2Proof.Machine.execClockMonitorCheck d count lfAlive s
  | .watchdogExpiry d => Sys2Proof.Machine.execWatchdogExpiry d s
  | .coreException d => Sys2Proof.Machine.execCoreException d s
  | .beaconReceived d p src wrap stroke current delay offset => Sys2Proof.Machine.execBeaconReceived d p src wrap stroke current delay offset s
  | .timeStep d => Sys2Proof.Machine.execTimeStep d s
  | .countReplacement d => Sys2Proof.Machine.execCountReplacement d s
  | .pllLocked d => Sys2Proof.Machine.execPllLocked d s
  | .pllUnlock d => Sys2Proof.Machine.execPllUnlock d s
  | .beaconLossHoldover d => Sys2Proof.Machine.execBeaconLossHoldover d s
  | .linkBeaconMissing d p => Sys2Proof.Machine.execLinkBeaconMissing d p s
  | .beaconSend d => Sys2Proof.Machine.execBeaconSend d s
  | .cmdFrameArrival d f => Sys2Proof.Machine.execCmdFrameArrival d f s
  | .journalMirrorReceived d ward seq => Sys2Proof.Machine.execJournalMirrorReceived d ward seq s
  | .mirrorAckReceived d seq => Sys2Proof.Machine.execMirrorAckReceived d seq s
  | .commitRecordReceived d ward seq => Sys2Proof.Machine.execCommitRecordReceived d ward seq s
  | .commitAckReceived d seq => Sys2Proof.Machine.execCommitAckReceived d seq s
  | .seqGapEvent d => Sys2Proof.Machine.execSeqGapEvent d s
  | .dozeCommandWake d => Sys2Proof.Machine.execDozeCommandWake d s
  | .transitFrameReceived d p f => Sys2Proof.Machine.execTransitFrameReceived d p f s
  | .frameInsertion d => Sys2Proof.Machine.execFrameInsertion d s
  | .blotFrameReceived d smod seq at_ id => Sys2Proof.Machine.execBlotFrameReceived d smod seq at_ id s
  | .ringBlotFire d => Sys2Proof.Machine.execRingBlotFire d s
  | .echoProbeReceived d id => Sys2Proof.Machine.execEchoProbeReceived d id s
  | .echoReplySend d tadj => Sys2Proof.Machine.execEchoReplySend d tadj s
  | .echoReplyReceived d rtt tadj => Sys2Proof.Machine.execEchoReplyReceived d rtt tadj s
  | .echoTimeout d => Sys2Proof.Machine.execEchoTimeout d s
  | .faultOrderReceived d src assert => Sys2Proof.Machine.execFaultOrderReceived d src assert s
  | .heartbeatReceived d src => Sys2Proof.Machine.execHeartbeatReceived d src s
  | .neighbourLost d n => Sys2Proof.Machine.execNeighbourLost d n s
  | .masterTakeover d => Sys2Proof.Machine.execMasterTakeover d s
  | .rosterUpdateReceived d src e => Sys2Proof.Machine.execRosterUpdateReceived d src e s
  | .moduleCommonWriteRelay d src seq => Sys2Proof.Machine.execModuleCommonWriteRelay d src seq s
  | .broadcastWriteRelay d src seq => Sys2Proof.Machine.execBroadcastWriteRelay d src seq s
  | .portSignalLoss d p => Sys2Proof.Machine.execPortSignalLoss d p s
  | .portSignalPresent d p => Sys2Proof.Machine.execPortSignalPresent d p s
  | .portTrained d p => Sys2Proof.Machine.execPortTrained d p s
  | .portCodeViolations d p => Sys2Proof.Machine.execPortCodeViolations d p s
  | .wakeBurstDetected d p => Sys2Proof.Machine.execWakeBurstDetected d p s
  | .wakePin d pin level ticks => Sys2Proof.Machine.execWakePin d pin level ticks s
  | .wakeLineAsserted d => Sys2Proof.Machine.execWakeLineAsserted d s
  | .blotInEdge d level cycle => Sys2Proof.Machine.execBlotInEdge d level cycle s
  | .blotLineEdge d src cycle => Sys2Proof.Machine.execBlotLineEdge d src cycle s
  | .snapshotLatch d => Sys2Proof.Machine.execSnapshotLatch d s
  | .laneStart d q found => Sys2Proof.Machine.execLaneStart d q found s
  | .census d q found echoes => Sys2Proof.Machine.execCensus d q found echoes s
  | .streamCycleStart d q hold held => Sys2Proof.Machine.execStreamCycleStart d q hold held s
  | .nibWindowDecision d q slot wire => Sys2Proof.Machine.execNibWindowDecision d q slot wire s
  | .laneShort d q => Sys2Proof.Machine.execLaneShort d q s
  | .dutyGovernorRelease d q lowUs highUs => Sys2Proof.Machine.execDutyGovernorRelease d q lowUs highUs s
  | .selectionChange d n => Sys2Proof.Machine.execSelectionChange d n s
  | .stopRampComplete d n => Sys2Proof.Machine.execStopRampComplete d n s
  | .peakLimit d n => Sys2Proof.Machine.execPeakLimit d n s
  | .bleedOvercurrent d cell => Sys2Proof.Machine.execBleedOvercurrent d cell s
  | .openWireTestStart d => Sys2Proof.Machine.execOpenWireTestStart d s
  | .openWireSkipPage d => Sys2Proof.Machine.execOpenWireSkipPage d s
  | .openWireCurrentOn d => Sys2Proof.Machine.execOpenWireCurrentOn d s
  | .openWireVerdict d r => Sys2Proof.Machine.execOpenWireVerdict d r s
  | .openWireAbandon d => Sys2Proof.Machine.execOpenWireAbandon d s
  | .stepStageEnd d p0 p1 p2 p3 => Sys2Proof.Machine.execStepStageEnd d p0 p1 p2 p3 s
  | .allWireVerdict d r => Sys2Proof.Machine.execAllWireVerdict d r s
  | .deviationClassify d cell => Sys2Proof.Machine.execDeviationClassify d cell s
  | .eisChannelGrant d n => Sys2Proof.Machine.execEisChannelGrant d n s
  | .eisWindowOpen d sw => Sys2Proof.Machine.execEisWindowOpen d sw s
  | .eisInjectionEnd d n => Sys2Proof.Machine.execEisInjectionEnd d n s
  | .eisNextBin d sw => Sys2Proof.Machine.execEisNextBin d sw s
  | .eisWaitTimeout d n => Sys2Proof.Machine.execEisWaitTimeout d n s
  | .calPassStart d => Sys2Proof.Machine.execCalPassStart d s
  | .calItemGrant d => Sys2Proof.Machine.execCalItemGrant d s
  | .calCandidate d w => Sys2Proof.Machine.execCalCandidate d w s
  | .calItemVerdict d w => Sys2Proof.Machine.execCalItemVerdict d w s
  | .currentSenseItem d item r => Sys2Proof.Machine.execCurrentSenseItem d item r s
  | .calPassEnd d => Sys2Proof.Machine.execCalPassEnd d s
  | .elementTestStart d => Sys2Proof.Machine.execElementTestStart d s
  | .elementTestVerdict d readings => Sys2Proof.Machine.execElementTestVerdict d readings s
  | .channelRepair d c => Sys2Proof.Machine.execChannelRepair d c s
  | .imageCheck d => Sys2Proof.Machine.execImageCheck d s
  | .imageCheckComplete d => Sys2Proof.Machine.execImageCheckComplete d s
  | .loadMissingSend d => Sys2Proof.Machine.execLoadMissingSend d s
  | .loadResultSend d => Sys2Proof.Machine.execLoadResultSend d s
  | .firmwareRetransmit d smod loadid blocks => Sys2Proof.Machine.execFirmwareRetransmit d smod loadid blocks s
  | .commandLoopReached d => Sys2Proof.Machine.execCommandLoopReached d s
  | .folioSwitch d => Sys2Proof.Machine.execFolioSwitch d s
  | .entryDelayLimit d => Sys2Proof.Machine.execEntryDelayLimit d s
  | .ringReleaseTimeout d => Sys2Proof.Machine.execRingReleaseTimeout d s
  | .sleepCommit d ratio entry => Sys2Proof.Machine.execSleepCommit d ratio entry s
  | .entryAbandon d => Sys2Proof.Machine.execEntryAbandon d s
  | .domainRestart d => Sys2Proof.Machine.execDomainRestart d s
  | .wakeFromSleep d ticks b => Sys2Proof.Machine.execWakeFromSleep d ticks b s
  | .sleepTickSaturate d => Sys2Proof.Machine.execSleepTickSaturate d s
  | .nightcapCheck d codes1 codes2 span1 span2 test1 test2 readings supply => Sys2Proof.Machine.execNightcapCheck d codes1 codes2 span1 span2 test1 test2 readings supply s
  | .nightcapRecheck d codes1 codes2 span1 span2 test1 test2 readings supply => Sys2Proof.Machine.execNightcapRecheck d codes1 codes2 span1 span2 test1 test2 readings supply s
  | .supplyDip d vreg5 => Sys2Proof.Machine.execSupplyDip d vreg5 s
  | .supplyDipEnd d vreg5 => Sys2Proof.Machine.execSupplyDipEnd d vreg5 s
  | .supplyLoss d vstkLow vreg5Low => Sys2Proof.Machine.execSupplyLoss d vstkLow vreg5Low s
  | .lastgaspSend d => Sys2Proof.Machine.execLastgaspSend d s
  | .powerOnReset d => Sys2Proof.Machine.execPowerOnReset d s
  | .vstkOvervoltage d vstk => Sys2Proof.Machine.execVstkOvervoltage d vstk s
  | .perfLevelTransitionEnd d => Sys2Proof.Machine.execPerfLevelTransitionEnd d s
  | .ping d f => Sys2Proof.Machine.execPing d f s
  | .read d seq => Sys2Proof.Machine.execRead d seq s
  | .write d seq => Sys2Proof.Machine.execWrite d seq s
  | .enumerate d f => Sys2Proof.Machine.execEnumerate d f s
  | .streamSet d seq => Sys2Proof.Machine.execStreamSet d seq s
  | .fineSelect d seq => Sys2Proof.Machine.execFineSelect d seq s
  | .balManager d seq => Sys2Proof.Machine.execBalManager d seq s
  | .balCharge d seq => Sys2Proof.Machine.execBalCharge d seq s
  | .balBleed d seq => Sys2Proof.Machine.execBalBleed d seq s
  | .balStop d seq => Sys2Proof.Machine.execBalStop d seq s
  | .eisPlan d seq => Sys2Proof.Machine.execEisPlan d seq s
  | .eisStart d seq => Sys2Proof.Machine.execEisStart d seq s
  | .eisResults d seq => Sys2Proof.Machine.execEisResults d seq s
  | .ztModel d seq => Sys2Proof.Machine.execZtModel d seq s
  | .nibRead d seq => Sys2Proof.Machine.execNibRead d seq s
  | .nibAssoc d seq => Sys2Proof.Machine.execNibAssoc d seq s
  | .nibAction d seq => Sys2Proof.Machine.execNibAction d seq s
  | .nibLane d seq => Sys2Proof.Machine.execNibLane d seq s
  | .ringRole d seq => Sys2Proof.Machine.execRingRole d seq s
  | .ringStatus d seq => Sys2Proof.Machine.execRingStatus d seq s
  | .loadBegin d src => Sys2Proof.Machine.execLoadBegin d src s
  | .loadData d src => Sys2Proof.Machine.execLoadData d src s
  | .loadEnd d src => Sys2Proof.Machine.execLoadEnd d src s
  | .loadStatus d seq => Sys2Proof.Machine.execLoadStatus d seq s
  | .loadBoot d src => Sys2Proof.Machine.execLoadBoot d src s
  | .folioWrite d seq => Sys2Proof.Machine.execFolioWrite d seq s
  | .folioSeal d seq => Sys2Proof.Machine.execFolioSeal d seq s
  | .folioStatus d seq => Sys2Proof.Machine.execFolioStatus d seq s
  | .faultRead d seq => Sys2Proof.Machine.execFaultRead d seq s
  | .faultClear d seq => Sys2Proof.Machine.execFaultClear d seq s
  | .faultResume d seq => Sys2Proof.Machine.execFaultResume d seq s
  | .faultInject d seq => Sys2Proof.Machine.execFaultInject d seq s
  | .powerState d seq => Sys2Proof.Machine.execPowerState d seq s
  | .perfLevel d seq => Sys2Proof.Machine.execPerfLevel d seq s
  | .sleepAbortStatus d seq => Sys2Proof.Machine.execSleepAbortStatus d seq s
  | .selftestRun d seq => Sys2Proof.Machine.execSelftestRun d seq s
  | .calRun d seq => Sys2Proof.Machine.execCalRun d seq s
  | .check d seq => Sys2Proof.Machine.execCheck d seq s
  | .snapRead d seq => Sys2Proof.Machine.execSnapRead d seq s
  | .snapArm d seq => Sys2Proof.Machine.execSnapArm d seq s
  | .lcyStatus d seq => Sys2Proof.Machine.execLcyStatus d seq s
  | .lcyChallenge d seq => Sys2Proof.Machine.execLcyChallenge d seq s
  | .lcyResponse d seq => Sys2Proof.Machine.execLcyResponse d seq s
  | .lcyAdvance d seq => Sys2Proof.Machine.execLcyAdvance d seq s
  | .lifecycleTransitionDone d => Sys2Proof.Machine.execLifecycleTransitionDone d s
  | .owdSingleWireRequest d wire cur pol => Sys2Proof.Machine.execOwdSingleWireRequest d wire cur pol s
  | .owdAllWireRequest d => Sys2Proof.Machine.execOwdAllWireRequest d s
  | .eisCmdGo d sw plan cell passes => Sys2Proof.Machine.execEisCmdGo d sw plan cell passes s
  | .eisCmdStop d sw => Sys2Proof.Machine.execEisCmdStop d sw s
  | .cxsQtgtWrite d cell w => Sys2Proof.Machine.execCxsQtgtWrite d cell w s
  | .cxsEnWrite d n w => Sys2Proof.Machine.execCxsEnWrite d n w s
  | .injGo d slot w => Sys2Proof.Machine.execInjGo d slot w s
  | .injStop d slot w => Sys2Proof.Machine.execInjStop d slot w s
  | .captureArm d w => Sys2Proof.Machine.execCaptureArm d w s
  | .qlnRestart d q => Sys2Proof.Machine.execQlnRestart d q s
  | .qlnCensus d q => Sys2Proof.Machine.execQlnCensus d q s
  | .qlnStop d q => Sys2Proof.Machine.execQlnStop d q s
  | .rawReset d q rollCall => Sys2Proof.Machine.execRawReset d q rollCall s
  | .rawWrite d q nbits data => Sys2Proof.Machine.execRawWrite d q nbits data s
  | .rawRead d q nbits bits => Sys2Proof.Machine.execRawRead d q nbits bits s
  | .rawStep d q data tally => Sys2Proof.Machine.execRawStep d q data tally s
  | .rawStream d q data => Sys2Proof.Machine.execRawStream d q data s
  | .modNibEntryWrite d e word w => Sys2Proof.Machine.execModNibEntryWrite d e word w s
  | .chkGo d byFirmware => Sys2Proof.Machine.execChkGo d byFirmware s
  | .chkAbort d => Sys2Proof.Machine.execChkAbort d s
  | .chkRunDone d ecc => Sys2Proof.Machine.execChkRunDone d ecc s
  | .folDataWrite d n w => Sys2Proof.Machine.execFolDataWrite d n w s
  | .folSealcrcWrite d w => Sys2Proof.Machine.execFolSealcrcWrite d w s
  | .folModeselWrite d w => Sys2Proof.Machine.execFolModeselWrite d w s
  | .holdclr d => Sys2Proof.Machine.execHoldclr d s
  | .sensorExclClear d sensor => Sys2Proof.Machine.execSensorExclClear d sensor s
  | .cutmaskWrite d w => Sys2Proof.Machine.execCutmaskWrite d w s
  | .calGo d => Sys2Proof.Machine.execCalGo d s
  | .calAbort d => Sys2Proof.Machine.execCalAbort d s
  | .fbclr d => Sys2Proof.Machine.execFbclr d s
  | .fcolStkWrite d n w => Sys2Proof.Machine.execFcolStkWrite d n w s
  | .resume d => Sys2Proof.Machine.execResume d s
  | .evclr d => Sys2Proof.Machine.execEvclr d s
  | .kick d => Sys2Proof.Machine.execKick d s
  | .fcolInjWrite d w => Sys2Proof.Machine.execFcolInjWrite d w s
  | .snapCtrlArm d force => Sys2Proof.Machine.execSnapCtrlArm d force s
  | .fire d => Sys2Proof.Machine.execFire d s
  | .snapHdr0Read d latched => Sys2Proof.Machine.execSnapHdr0Read d latched s
  | .ulkStrokeLoRead d => Sys2Proof.Machine.execUlkStrokeLoRead d s
  | .pwrWake d => Sys2Proof.Machine.execPwrWake d s
  | .woclr d => Sys2Proof.Machine.execWoclr d s
  | .padrel d mask => Sys2Proof.Machine.execPadrel d mask s
  | .bistFuseGo d => Sys2Proof.Machine.execBistFuseGo d s
  | .fuseProgrammingDone d readbackOk => Sys2Proof.Machine.execFuseProgrammingDone d readbackOk s
  | .bistAbort d => Sys2Proof.Machine.execBistAbort d s
  | .programSlot d slot => Sys2Proof.Machine.execProgramSlot d slot s
  | .revokeSlot d slot => Sys2Proof.Machine.execRevokeSlot d slot s
  | .programServiceKey d => Sys2Proof.Machine.execProgramServiceKey d s
  | .registerWrite d addr w => Sys2Proof.Machine.execRegisterWrite d addr w s
  | .vstkOvervoltageClear d vstk => Sys2Proof.Machine.execVstkOvervoltageClear d vstk s
  | .faultToneChange d present => Sys2Proof.Machine.execFaultToneChange d present s
  | .relayOutcomeReceived d src seq => Sys2Proof.Machine.execRelayOutcomeReceived d src seq s
  | .keyFuseProgrammingDone d readbackOk => Sys2Proof.Machine.execKeyFuseProgrammingDone d readbackOk s
  | .ramEccError d ram correctable target => Sys2Proof.Machine.execRamEccError d ram correctable target s

end Sys2Proof.Machine
end

