-- ==== Sys2Proof/Machine/Step.lean ====
section
/-! DEFINITION. One step: the command at the front of the queue acts on the module and leaves the queue; with no command
waiting the module idles (assumption 10). -/
namespace Sys2Proof.Machine

/-- The command that waits longest acts; an empty queue leaves the module as it is. -/
def step (s : State) : Host.Outcome State Fault Refusal :=
  match s.pending with
  | []        => .next s
  | c :: rest => exec c { s with pending := rest }

/-- The module with the command that a word spells at the front of its queue. -/
def State.withFetchWord (s : State) (nbits w : Nat) : State :=
  match decodeTableWord nbits w with
  | some c => { s with pending := c :: s.pending }
  | none   => s

end Sys2Proof.Machine
end

