-- ==== Sys2Proof/Safety.lean ====
section
/-! DEFINITION. What counts as a sound state and a safe step: the stores of the module keep their canonical form, so that
equal contents are equal data, a safe step answers a next state, and a frame says what a command leaves as it was. -/
namespace Sys2Proof.Machine

/-- The canonical form of the words of a folio copy: indices strictly rising, and no word that is 0. -/
def wordsWf : List (Nat × Word) → Bool
  | [] => true
  | (k, w) :: rest => (w != 0) && rest.all (fun e => decide (k < e.1)) && wordsWf rest

/-- The stores that a die holds beside its registers, the code RAM and the two folio copies, are in canonical form. -/
def DieX.wf (x : DieX) : Bool := ramWf x.boot.code && wordsWf x.fol.copyA && wordsWf x.fol.copyB

/-- Every store of the module is in canonical form. -/
def Chip.wf (s : Chip) : Prop := storeWf s.regs = true ∧ ∀ d : Die, (s.die d).wf = true

/-- The state's stores are in canonical form. -/
def State.Inv (s : State) : Prop := s.chip.wf

/-- Outside the registers of die `d` at the local addresses `as`, every register of every die is the same in `t` as in `s`. -/
def Chip.sameRegsBut (s t : Chip) (d : Die) (as : List Nat) : Prop :=
  ∀ (e : Die) (a : Nat), (∀ b ∈ as, fullAddr e a ≠ fullAddr d b) → t.reg e a = s.reg e a

/-- Every register of every die is the same in `t` as in `s`. -/
def Chip.sameRegs (s t : Chip) : Prop := ∀ (e : Die) (a : Nat), t.reg e a = s.reg e a

/-- What the dies other than `d` hold beside their registers is the same in `t` as in `s`. -/
def Chip.sameDiesBut (s t : Chip) (d : Die) : Prop := ∀ e : Die, e ≠ d → t.die e = s.die e

/-- The step answers a next state. -/
def State.stepsSafely (s : State) : Prop := ∃ t, step s = .next t

end Sys2Proof.Machine
end

