-- ==== Sys2Proof/Certificates/Slice0/Obligations.lean ====
section
/-! DEFINITION. The statements about the model, for the provers. Each names the rules of spec/ that it rests on; where a clause
follows a choice of the model, the statement says so and names the entry of the assumption log. -/
namespace Sys2Proof.Machine

/-- A valid ring-wide command of kind B reaches die `d` for the first time, on a link that does not fail it, and its packet passes the checks of R268 (R274). -/
def Chip.takesRingWide (s : Chip) (d : Die) (op : Nat) (f : FrameIn) : Prop :=
  s.fitted d = true ∧ s.on d 0 = true ∧ s.on d 6 = true ∧ s.address d ≠ 0 ∧ Chip.validCmd f = true ∧ f.dmod = 127 ∧ pktOpcode f.payload = op
    ∧ s.frameLinkOk d f = true ∧ s.takenBefore d f.smod 2 f.seq = false ∧ (s.die d).pwr.gasp = none ∧ packetFault f.payload = none

/-- A wake event qualified at die `d` in DOZE or asleep: it is in PWR_WAKESRC, the die wakes, and the wake line tells the others (R390). -/
def Chip.wokenBy (s t : Chip) (d : Die) (b : Nat) : Prop :=
  t.get d PWR_STATE PWR_STATE.STATE = 4 ∧ t.bit d PWR_WAKESRC ⟨b, 1⟩ = true ∧ (t.die d).pwr.wakeDue = true
    ∧ ∀ k, k ≠ d → s.fitted k = true → (t.die k).pwr.lineDue = true

/-- The entry at die `d` is marked for abandonment with outcome, block and reason. -/
def Chip.abandons (t : Chip) (d : Die) (out block reason : Nat) : Prop :=
  (t.die d).pwr.abandon = some (out, block, reason, d.val)

/-- A frame ends in /T/, with no code violation, its CRC good and not inverted by an injection, now or by the row of the same frame that
the die has taken, and of a good format (R252, R377). -/
def Chip.frameValid (s : Chip) (d : Die) (n : Nat) (f : FrameIn) : Bool :=
  f.endT && f.codeOk && f.crcOk && !(s.injected d (1 + n)) && !((s.die d).ring.judged.contains (n, f.smod, f.ftype, f.seq)) && frameFormatOk f (s.bit d (ULK_PORT n) ULK_PORT.EXT)

/-- A transit frame goes no further than the exit die of its ring: it is for this module, has come back to it, or is of type 15 (R255). -/
def Chip.staysAtExit (s : Chip) (d : Die) (p : Port) (f : FrameIn) : Bool :=
  s.isExit d p && s.address d != 0 && (f.dmod == s.address d || (f.smod == s.address d && f.wrap) || f.ftype == 15)

/-- A counter of die `d` counts one more, and holds at its maximum. -/
def Chip.counted (s t : Chip) (d : Die) (a : Nat) (f : Fld) : Prop := t.get d a f = min (s.get d a f + 1) (2 ^ f.w - 1)

/-- The entry `e` of die `d` is at its turn and passes every check of R281 step 1: its opcode's packet is as the opcode table has it, not
expired, no self-test holds its block, a command of kind F finds the core in its loop, the die has a guardian, and no effect of an earlier
command is still due. -/
def Chip.ready (s : Chip) (d : Die) (seq op block : Nat) (q : List Byte) (e : Entry) : Prop :=
  s.fitted d = true ∧ s.on d 0 = true ∧ (s.die d).boot.done = true ∧ s.entry? d seq = some e ∧ pktOpcode e.packet = op
    ∧ pktParams e.packet = q ∧ packetFault e.packet = none
    ∧ (pktFlags e.packet % 2 = 1 → toSigned ((s.stroke d + 2 ^ 32 - pktExpiry e.packet) % 2 ^ 32) 32 ≤ 0) ∧ e.crcOk = true
    ∧ s.isTurn d e = true ∧ e.waited = 0 ∧ e.waitFrom = none ∧ (s.die d).jnl.due = [] ∧ s.injected d 0x0D = false ∧ s.slicedNow d block = false
    ∧ s.heldBySelftest d block = false ∧ (kindH op = true ∨ s.coreLoops d = true) ∧ (s.guardianOf d).isSome = true

/-- The command with a SEQ is committed with its status, DETAIL, results and effects (R281 step 3), and nothing else has changed. -/
def Chip.commits (s t : Chip) (d : Die) (seq status detail : Nat) (results : List Byte) (effects : List Effect) : Prop :=
  (∃ e, t.entry? d seq = some e ∧ e.st = .committed ∧ e.status = status ∧ e.detail = detail ∧ e.results = results
      ∧ e.effects = effects)
    ∧ s.sameRegsBut t d [CMD_STAT, JNL_STAT] ∧ s.sameDiesBut t d

/-- No effect of a command and no reaction of the collector waits for the next stroke edge of die `d`. -/
def Chip.noEffectDue (s : Chip) (d : Die) : Prop :=
  (s.die d).jnl.due = [] ∧ (s.die d).fcol.react = [] ∧ (s.die d).fcol.safeDue = false

/-- A response of die `d` with an opcode, a TAG and a status is in its queue. -/
def Chip.answers (t : Chip) (d : Die) (tag seq op status : Nat) : Prop :=
  ∃ f ∈ (t.die d).ring.queue, f.ftype = 3 ∧ f.tag = tag ∧ f.seq = seq ∧ f.payload.take 2 = leBytes 1 op ++ leBytes 1 status

/-- Each field of a register takes a written word by its type code (Table 00.3); the bits outside every field stay (R7). -/
def Chip.takesWord (s t : Chip) (d : Die) (a : Nat) (r : RegDesc) (w : Word) : Prop :=
  (∀ f ∈ r.fields, (f.ty = .rw → t.get d a f.fld = f.fld.read w)
      ∧ (f.ty = .ro ∨ f.ty = .wo → t.get d a f.fld = s.get d a f.fld)
      ∧ (f.ty = .lck → t.get d a f.fld = if (s.die d).boot.locked.contains a then s.get d a f.fld else f.fld.read w)
      ∧ (f.ty = .w1c → t.get d a f.fld = if f.fld.read w = 2 ^ f.fld.w - 1 then 0 else s.get d a f.fld)
      ∧ (f.ty = .stk → ∀ i < f.fld.w,
          (t.get d a f.fld).testBit i = ((s.get d a f.fld).testBit i && !(f.fld.read w).testBit i)))
    ∧ ∀ i < 32, (∀ f ∈ r.fields, i < f.fld.lo ∨ f.fld.lo + f.fld.w ≤ i) → (t.reg d a).getLsbD i = (s.reg d a).getLsbD i

/-- A register whose write is an operation or is held to a rule of its own, not the type codes alone: a command, the record of a sweep or
a lane, a word of a folio, a sticky word of the collector, a register that its lifecycle shuts. -/
def Chip.actsOnWrite (s : Chip) (d : Die) (a : Nat) : Bool :=
  let p := placeOf a
  let at_ := fun (plane block : Nat) => p.plane == plane && p.block == block
  [CFE_CONFIG, CFE_NOTCH, CFE_AUXCFG, OWD_CMD, EIS_CMD, CHK_CTRL, FOL_SEALCRC, CAL_CMD, FCOL_CTRL, FCOL_INJ, PWR_CMD, BIST_CTRL, BIST_FUSE,
    LCY_FUSECMD, THM_CFG, THM_CMD, INJ_CAPCFG, MOD_SNAP_CTRL, MOD_RING_ROLE].contains a
  || at_ 0 0x10 && (decide (p.chan < 2) && p.word == 0 || p.chan == 0xFF && decide (0x20 ≤ p.word) && decide (p.word < 0x40))
  || at_ 0 0x13 && decide (p.chan < 4) && [0, 2, 3].contains p.word
  || at_ 0 0x14 && decide (p.chan < 5) && p.word == 1
  || at_ 1 0x03 && p.chan == 0xFF && decide (0x30 ≤ p.word)
  || at_ 1 0x04 && decide (p.chan < 16) && decide (0x200 ≤ p.word)
  || at_ 1 0x05 && decide (p.chan < 2) && [0, 1, 5].contains p.word
  || at_ 2 0x24 && p.chan == 0
  || at_ 2 0x26 && decide (p.word < 8)
  || at_ 2 0x29 && (s.lifecycle d == 4 || a == BIST_CFG && s.lifecycle d == 2)
  || at_ 2 0x2A && s.lifecycle d == 4
  || at_ 3 0x06

/-- A register whose write also changes others: the wiring interlock, the modes pending, the host's thermal limits, an AUX threshold. -/
def writesOthers (a : Nat) : Bool := a == OWD_CONFIG || a == FOL_MODESEL || a == THM_HOSTLIM || (List.range 8).any (a == THM_AUX ·)

end Sys2Proof.Machine

open Sys2Proof Sys2Proof.Machine

/-- R41 and the block's interface: one step takes the command at the front of the queue and answers what `exec` answers on the rest;
with no command waiting the module idles (the model's choice, assumption 10). -/
def Obligations.StepRunsTheFrontCommand : Prop :=
(∀ (c : Instr) (rest : List Instr) (s : State), s.pending = c :: rest → step s = exec c { s with pending := rest })
    ∧ ∀ s : State, s.pending = [] → step s = .next s

/-- The state after reset meets the invariant: no register, code byte or folio word is listed at the value an unlisted one reads as. -/
def Obligations.ResetStoresAreCanonical : Prop :=
State.reset.Inv ∧ State.reset.pending = []

/-- Every step keeps the register store, the code RAM and the folio copies of every die in their one canonical form, from any state
that has it. -/
def Obligations.EveryStepKeepsStoresCanonical : Prop :=
∀ s t : State, s.Inv → step s = .next t → t.Inv

/-- R436: a key-hash slot once marked programmed or revoked in the fuses of a die stays so through every step of the module.
Rests on choices of the model: log entries 110 and 112. -/
def Obligations.KeyFuseMarksAreNeverCleared : Prop :=
∀ (s t : State) (d : Die) (n : Nat), s.Inv → step s = .next t →
    ((s.chip.die d).lcy.prog.testBit n = true → (t.chip.die d).lcy.prog.testBit n = true)
      ∧ ((s.chip.die d).lcy.revoked.testBit n = true → (t.chip.die d).lcy.revoked.testBit n = true)

/-- R41: at a stroke edge of a die that runs, its stroke number advances by 1 in 48 bits, and that of every other die stays; no command
is taken from the queue. The line number is stroke number [47:2], the line stroke [1:0], the page number [47:10]; at a stroke that is no
line boundary the line's work does not take place, nor a page's at a stroke that is no page boundary.
What waits for the edge takes effect there: a due register write, here of the over-voltage threshold (R281 step 4); the reactions of the
last evaluation and the safe state (R360, R362); re-arming of the snapshot (R383); where no other effect or reaction comes with the edge,
the pending copies of the engine and generator registers, GO and STOP of a generator and an armed capture (R193), a written charge target
(R163), and the end of a sweep that was to stop (R142).
Rests on a choice of the model: log entry 1. -/
def Obligations.StrokeEdgeAdvancesTheStrokeNumber : Prop :=
∀ (d : Die) (s : State), s.Inv → s.chip.runs d = true → s.chip.stroke d < 2 ^ 48
    ∧ (∀ i : Senses, ∃ t, exec (.strokeEdge d i) s = .next t ∧ t.pending = s.pending
      ∧ t.chip.stroke d = (s.chip.stroke d + 1) % 2 ^ 48 ∧ (∀ e, e ≠ d → t.chip.stroke e = s.chip.stroke e)
      ∧ (∀ w, (s.chip.die d).jnl.due = [.write (fullAddr d SHD_OV) w] → s.chip.on d 2 = true →
          t.chip.get d SHD_OV SHD_OV.CODE = SHD_OV.CODE.read w
          ∧ ((∀ e ∈ (s.chip.die d).jnl.entries, opcodes.contains (pktOpcode e.packet) = true) → (t.chip.die d).jnl.due = []))
      ∧ (t.chip.die d).fcol.react = [] ∧ (t.chip.die d).fcol.safeDue = false
      ∧ ((s.chip.die d).jnl.due = [] →
          (∀ n ∈ (s.chip.die d).fcol.react, ownRelease n = false → n ∈ (t.chip.die d).fcol.isolated)
          ∧ ((s.chip.die d).fcol.safeDue = true → t.chip.bit d CXS_STATUS CXS_STATUS.SAFE = true)
          ∧ ((s.chip.die d).snap.armDue = true → (t.chip.die d).snap.armDue = false ∧ t.chip.bit d SNAP_HDR0 SNAP_HDR0.HELD = false
              ∧ t.chip.get d MOD_SNAP_STAT MOD_SNAP_STAT.STATE = 0 ∧ t.chip.get d MOD_SNAP_STAT MOD_SNAP_STAT.UNREAD = 0))
      ∧ (s.chip.noEffectDue d → s.chip.on d 4 = true → (∀ a, t.chip.now d a = t.chip.reg d a)
          ∧ (∀ (n : Fin 4) (g : GenX), (s.chip.die d).eng.gens[n.val]? = some g → s.chip.bit d (INJ_STAT n.val) INJ_STAT.OWNER = false →
            (n.val < 2 → (s.chip.sweep d n.val).running = false ∧ (s.chip.sweep d n.val).held = false) →
            (g.stop = true → t.chip.bit d (INJ_STAT n.val) INJ_STAT.RUNNING = false ∧ t.chip.get d (INJ_STAT n.val) INJ_STAT.OUT = 0)
            ∧ (g.stop = false → g.go = true → t.chip.bit d (INJ_STAT n.val) INJ_STAT.RUNNING = true))
          ∧ ((s.chip.die d).eng.cap.start = true → (t.chip.die d).eng.cap.start = false
              ∧ t.chip.reg d INJ_CAPSTAT = (if INJ_CAPCFG.TRIG.read (s.chip.reg d INJ_CAPCFG) = 1 then 1 else 2)))
      ∧ (s.chip.noEffectDue d → s.chip.on d 3 = true → (t.chip.die d).cxs.qPend = []
          ∧ ∀ k < 16, ∀ v : Int, (s.chip.die d).cxs.qPend = [(k, v)] → t.chip.get d (CXS_QTGT k) CXS_QTGT.REMAIN = ofSigned v 32)
      ∧ (s.chip.noEffectDue d → s.chip.on d 1 = true → ∀ n < 3, (s.chip.sweep d n).stopDue = true → s.chip.swState d n ≠ 0 →
          t.chip.swState d n = 0 ∧ (t.chip.sweep d n).stopDue = false ∧ (t.chip.sweep d n).running = false))
    ∧ s.chip.line d = s.chip.stroke d / 4 ∧ s.chip.lineStroke d = s.chip.stroke d % 4
    ∧ (s.chip.stroke d % 4 ≠ 0 → ∀ m, exec (.lineBoundary d m) s = .next s)
    ∧ (s.chip.stroke d % 1024 ≠ 0 → ∀ m, exec (.pageBoundary d m) s = .next s)

/-- R50, R52: the PLL's state and UNALIGNED follow lock, unlock and beacon loss; nothing else of the registers changes. Beacon loss
reports source 142 to the collector unless the module is SETTLED (R395).
R53, R60: at its due stroke a die takes over the beacon's count: a time step moves the count by its delta, notes where it is now in
ULK_TSTEP_AT (its low 32 bits), returns the PLL to ACQUIRE and is no longer pending; a count replacement does so with VALID set, and
leaves ULK_TSTEP_AT and ULK_TSTEP_DELTA.
Rests on a choice of the model: log entry 17. -/
def Obligations.PllFollowsLockAndDueSteps : Prop :=
  (
∀ (d : Die) (s : State), s.Inv → s.chip.runs d = true →
    (s.chip.get d ULK_PLLSTAT ULK_PLLSTAT.STATE = 0 → 64 ≤ (s.chip.die d).time.inRun → s.chip.mode d FOL_MODENOW.TALIGN = false →
      ∃ t, exec (.pllLocked d) s = .next t ∧ t.chip.get d ULK_PLLSTAT ULK_PLLSTAT.STATE = 1
        ∧ t.chip.bit d ULK_PLLSTAT ULK_PLLSTAT.UNALIGNED = false ∧ s.chip.sameRegsBut t.chip d [ULK_PLLSTAT])
    ∧ (s.chip.get d ULK_PLLSTAT ULK_PLLSTAT.STATE = 1 → 4 ≤ (s.chip.die d).time.outRun →
      ∃ t, exec (.pllUnlock d) s = .next t ∧ t.chip.get d ULK_PLLSTAT ULK_PLLSTAT.STATE = 0
        ∧ t.chip.bit d ULK_PLLSTAT ULK_PLLSTAT.UNALIGNED = true ∧ s.chip.sameRegsBut t.chip d [ULK_PLLSTAT])
    ∧ (s.chip.get d ULK_PLLSTAT ULK_PLLSTAT.STATE < 2 → (s.chip.die d).time.supervised = true →
      4 ≤ s.chip.get d ULK_PLLSTAT ULK_PLLSTAT.MISSED →
      ∃ t, exec (.beaconLossHoldover d) s = .next t ∧ t.chip.get d ULK_PLLSTAT ULK_PLLSTAT.STATE = 2
        ∧ t.chip.bit d ULK_PLLSTAT ULK_PLLSTAT.UNALIGNED = true ∧ s.chip.sameRegsBut t.chip d [ULK_PLLSTAT]
        ∧ (s.chip.settled d = false → 142 ∈ (t.chip.die d).fcol.reports))
  ) ∧ (
∀ (d : Die) (s : State) (delta : Int) (n : Nat), s.Inv → s.chip.runs d = true →
    n = (((s.chip.stroke d : Int) + delta) % (2 ^ 48 : Nat)).toNat → n % 4 = 0 →
    ((s.chip.die d).time.stepBy = some delta → s.chip.mode d FOL_MODENOW.TALIGN = false →
      ∃ t, exec (.timeStep d) s = .next t ∧ t.chip.stroke d = n ∧ (t.chip.die d).time.stepBy = none
        ∧ t.chip.get d ULK_TSTEP_AT ULK_TSTEP_AT.AT = n % 2 ^ 32 ∧ t.chip.get d ULK_PLLSTAT ULK_PLLSTAT.STATE = 0)
    ∧ ((s.chip.die d).time.replaceBy = some delta → s.chip.bit d ULK_STROKE_HI ULK_STROKE_HI.VALID = false →
      ∃ t, exec (.countReplacement d) s = .next t ∧ t.chip.stroke d = n
        ∧ t.chip.bit d ULK_STROKE_HI ULK_STROKE_HI.VALID = true
        ∧ t.chip.reg d ULK_TSTEP_AT = s.chip.reg d ULK_TSTEP_AT ∧ t.chip.reg d ULK_TSTEP_DELTA = s.chip.reg d ULK_TSTEP_DELTA)
  )

/-- R82, R49: a usable beacon (at most 60 µs of accumulated delay, in units of 0.125 ns) marks its port, brings the pack current with its
stamp, three strokes before the announced one, and clears STALE, whatever module sent it; one with more delay brings none, and neither does one
whose frame fails its link CRC under an injection (R377).
Rests on choices of the model: log entries 17 and 144. That a beacon by a port isolated for its link CRC brings the pack current as well
is the model's choice (log entry 144), and no rule says it. -/
def Obligations.UsableBeaconBringsThePackCurrent : Prop :=
∀ (d : Die) (p : Port) (smod : Nat) (sdie : Die) (wrap : Bool) (n : Stroke) (current delay : BitVec 24) (offset : Int) (s : State), s.Inv →
    s.chip.runsOn d 6 = true →
    ∃ t, exec (.beaconReceived d p ⟨smod, sdie⟩ wrap n current delay offset) s = .next t
      ∧ (delay.toNat ≤ 480000 → s.chip.linkOk d p (smod, 1, n.toNat % 65536) = true → t.chip.get d CFE_PACKI CFE_PACKI.CURRENT = current.toNat ∧ t.chip.get d CFE_PACKI CFE_PACKI.STALE = 0
        ∧ t.chip.get d CFE_PACKI_AT CFE_PACKI_AT.AT = ((n.toNat + 2 ^ 48 - 3) % 2 ^ 48) % 2 ^ 32
        ∧ t.chip.bit d (ULK_PORT (Chip.portNo p)) ULK_PORT.BEACON = true)
      ∧ (480000 < delay.toNat ∨ s.chip.linkOk d p (smod, 1, n.toNat % 65536) = false →
        t.chip.reg d CFE_PACKI = s.chip.reg d CFE_PACKI ∧ t.chip.reg d CFE_PACKI_AT = s.chip.reg d CFE_PACKI_AT)

/-- R47: at its own edge of stroke N − 2 the time master, the master die of an acting Ring Head, queues for both rings the BEACON that
announces stroke N, with accumulated delay 0 and the pack-current sample stamped N − 3. -/
def Obligations.TimeMasterAnnouncesTwoStrokesAhead : Prop :=
∀ (d : Die) (s : State), s.chip.runsOn d 6 = true → s.chip.isHead d = true → s.chip.master d = d → s.chip.settled d = false →
    ∃ t, exec (.beaconSend d) s = .next t ∧ s.chip.sameRegs t.chip ∧ s.chip.sameDiesBut t.chip d
      ∧ ∃ f, (t.chip.die d).ring.queue = (s.chip.die d).ring.queue ++ [f] ∧ f.ftype = 1 ∧ f.dmod = 127 ∧ f.ringA = true ∧ f.ringB = true
        ∧ f.payload.take 6 = leBytes 6 ((s.chip.stroke d + 2) % 2 ^ 48) ∧ f.payload.drop 9 = leBytes 3 0
        ∧ (∀ i n, (s.chip.die 0).cfe.packNow = some (i, n) → s.chip.bit 0 CFE_AUXCFG CFE_AUXCFG.PACKI = true →
          n + 3 = s.chip.stroke d + 2 → (f.payload.drop 6).take 3 = leBytes 3 (ofSigned i 24))

/-- R36: a requested role takes effect at the start of the page it names, in the die that runs it and every powered one, with ARMED
cleared. Rests on choices of the model: log entries 14 and 16. -/
def Obligations.RingHeadChangesAtItsPage : Prop :=
∀ (d : Die) (s : State), s.Inv → s.chip.runs d = true → s.chip.bit d MOD_RING_ROLE MOD_RING_ROLE.ARMED = true →
    s.chip.stroke d % 1024 = 0 → s.chip.stroke d / 1024 % 65536 = s.chip.get d MOD_RING_ROLE MOD_RING_ROLE.HEAD_PAGE →
    ∃ t, exec (.ringHeadChange d) s = .next t ∧ ∀ e, s.chip.on e 0 = true →
      t.chip.get e MOD_TOPOLOGY MOD_TOPOLOGY.HEAD = s.chip.get d MOD_RING_ROLE MOD_RING_ROLE.HEAD
        ∧ t.chip.bit e MOD_RING_ROLE MOD_RING_ROLE.ARMED = false

/-- R242, R62: an UP port without a usable beacon for 4 strokes, once supervision has started and outside SETTLED, sets LINKFLT and
reports its source 138 (A) or 139 (B); and a read of ULK_STROKE_LO latches stroke number [47:32] into ULK_STROKE_HI, every other
register as before.
R241, R242, R265: a receive port leaves UP for LOS or TRAIN with its LINKFLT set and its source reported, and a frame that was being
received goes on as bad; a port in TRAIN goes to LOS when its signal is lost; a signal takes it from LOS to TRAIN, and training to UP,
where its entries are counted; OUTDOWN of the partner shows whether it is UP. During sleep TONE_IN follows
the tone, and TONE_PASS it and the die's own state.
Rests on choices of the model: log entries 22 and 27. -/
def Obligations.PortsLinkFaultsAndStrokeLatch : Prop :=
  (
(∀ (d : Die) (p : Port) (s : State), s.Inv → s.chip.runsOn d 6 = true → s.chip.settled d = false →
    s.chip.get d (ULK_PORT (Chip.portNo p)) ULK_PORT.STATE = 3 → (s.chip.die d).time.supervised = true →
    4 ≤ (match p with | .a => (s.chip.die d).ring.missRunA | .b => (s.chip.die d).ring.missRunB) →
    ∃ t, exec (.linkBeaconMissing d p) s = .next t ∧ t.chip.bit d (ULK_PORT (Chip.portNo p)) ULK_PORT.LINKFLT = true
      ∧ 138 + Chip.portNo p ∈ (t.chip.die d).fcol.reports ∧ s.chip.sameRegsBut t.chip d [ULK_PORT (Chip.portNo p)]
      ∧ s.chip.sameDiesBut t.chip d)
  ∧ (∀ (d : Die) (s : State), s.Inv → ∃ t, exec (.ulkStrokeLoRead d) s = .next t
      ∧ t.chip.get d ULK_STROKE_HI ULK_STROKE_HI.COUNT_HI = s.chip.stroke d / 2 ^ 32
      ∧ s.chip.sameRegsBut t.chip d [ULK_STROKE_HI] ∧ t.chip.dies = s.chip.dies)
  ) ∧ (
∀ (d : Die) (p : Port) (s : State), s.Inv →
    (s.chip.runsOn d 6 = true → s.chip.get d (ULK_PORT (Chip.portNo p)) ULK_PORT.STATE = 3 →
      (∀ (i : Instr) (st : Nat) (cut : Option FrameIn), (i = .portSignalLoss d ⟨p, cut⟩ ∧ st = 1) ∨ (i = .portCodeViolations d ⟨p, cut⟩ ∧ st = 2) →
        ∃ t, exec i s = .next t
        ∧ t.chip.get d (ULK_PORT (Chip.portNo p)) ULK_PORT.STATE = st
        ∧ t.chip.bit d (ULK_PORT (Chip.portNo p)) ULK_PORT.LINKFLT = true
        ∧ 138 + Chip.portNo p ∈ (t.chip.die d).fcol.reports
        ∧ t.chip.bit d (ULK_PORT (1 - Chip.portNo p)) ULK_PORT.OUTDOWN = true
        ∧ (cut = none → s.chip.sameRegsBut t.chip d [ULK_PORT 0, ULK_PORT 1])
        ∧ s.chip.sameRegsBut t.chip d [ULK_PORT 0, ULK_PORT 1, ULK_ERR (Chip.portNo p), ULK_MISS (Chip.portNo p), ULK_TX, FCOL_INJ, FCOL_STATE]
        ∧ (∀ f, cut = some f → s.chip.staysAtExit d p f = false → s.chip.blocked d p = false → (s.chip.die d).ring.busy p = false →
            (s.chip.die d).ring.held p = [] → (t.chip.die d).ring.sent p = some (frameOf f) ∧ (t.chip.die d).ring.bad p = true)))
    ∧ (∀ cut : Option FrameIn, s.chip.runsOn d 6 = true → s.chip.get d (ULK_PORT (Chip.portNo p)) ULK_PORT.STATE = 2 →
      ∃ t, exec (.portSignalLoss d ⟨p, cut⟩) s = .next t ∧ t.chip.get d (ULK_PORT (Chip.portNo p)) ULK_PORT.STATE = 1
        ∧ t.chip.bit d (ULK_PORT (Chip.portNo p)) ULK_PORT.LINKFLT = s.chip.bit d (ULK_PORT (Chip.portNo p)) ULK_PORT.LINKFLT
        ∧ s.chip.sameRegsBut t.chip d [ULK_PORT 0, ULK_PORT 1])
    ∧ (s.chip.runsOn d 6 = true → s.chip.get d (ULK_PORT (Chip.portNo p)) ULK_PORT.STATE = 1 →
      ∃ t, exec (.portSignalPresent d p) s = .next t ∧ t.chip.get d (ULK_PORT (Chip.portNo p)) ULK_PORT.STATE = 2
        ∧ s.chip.sameRegsBut t.chip d [ULK_PORT 0, ULK_PORT 1])
    ∧ (s.chip.runsOn d 6 = true → s.chip.get d (ULK_PORT (Chip.portNo p)) ULK_PORT.STATE = 2 →
      ∃ t, exec (.portTrained d p) s = .next t ∧ t.chip.get d (ULK_PORT (Chip.portNo p)) ULK_PORT.STATE = 3
        ∧ t.chip.bit d (ULK_PORT (1 - Chip.portNo p)) ULK_PORT.OUTDOWN = false
        ∧ t.chip.get d (ULK_PORT (Chip.portNo p)) ULK_PORT.UPCNT
          = min (s.chip.get d (ULK_PORT (Chip.portNo p)) ULK_PORT.UPCNT + 1) 0xFFFF
        ∧ s.chip.sameRegsBut t.chip d [ULK_PORT 0, ULK_PORT 1])
    ∧ (∀ present : Bool, s.chip.on d 0 = true → s.chip.on d 6 = false → ∃ t, exec (.faultToneChange d present) s = .next t
      ∧ t.chip.bit d ULK_RING ULK_RING.TONE_IN = present
      ∧ t.chip.bit d ULK_RING ULK_RING.TONE_PASS = (present && s.chip.passesTone d)
      ∧ s.chip.sameRegsBut t.chip d [ULK_RING] ∧ t.chip.dies = s.chip.dies)
  )

/-- R28, R258, R31: at a frame boundary held transit data goes before the die's own frames, the oldest of each lane, and its queue stays;
with none held, the frame that is first by rank and age leaves the queue on each of its rings whose way is free, under the module's
address, and is counted as discarded on each whose way is not; a BEACON that waited takes the time, within 544 character times of 32 ns.
With nothing to send nothing changes.
Rests on choices of the model: log entries 21, 24, 28 and 29. -/
def Obligations.FrameInsertionSendsHeldThenRankedFrames : Prop :=
∀ (d : Die) (s : State), s.Inv → s.chip.fitted d = true → s.chip.linked d = true → (s.chip.die d).pwr.mclk = true →
    (∀ (p : Port) (g : Frame × Bool) (rest : List (Frame × Bool)), (s.chip.die d).ring.held p = g :: rest →
      ∃ t, exec (.frameInsertion d) s = .next t
        ∧ (∃ n ≤ 139264, (t.chip.die d).ring.sent p = some (g.1.delayed n)) ∧ (t.chip.die d).ring.bad p = g.2
        ∧ (t.chip.die d).ring.held p = rest ∧ (t.chip.die d).ring.busy p = (rest != [])
        ∧ (t.chip.die d).ring.queue = (s.chip.die d).ring.queue ∧ s.chip.sameRegsBut t.chip d [ULK_TX] ∧ s.chip.sameDiesBut t.chip d)
    ∧ ((s.chip.die d).ring.heldUp = [] → (s.chip.die d).ring.heldDown = [] → ∀ first : Option Frame,
      Chip.firstOf ((s.chip.die d).ring.queue.filter fun f =>
        s.chip.address d != 0 && !((s.chip.die d).pwr.gaspSent && f.ftype == 3)) = first →
      ∃ t, exec (.frameInsertion d) s = .next t ∧ (first = none → t = s)
        ∧ s.chip.sameRegsBut t.chip d [ULK_MISS 0, ULK_MISS 1, ULK_TX] ∧ s.chip.sameDiesBut t.chip d
        ∧ ∀ f, first = some f → (t.chip.die d).ring.queue = (s.chip.die d).ring.queue.erase f
          ∧ ∀ p : Port, (match p with | .a => f.ringA | .b => f.ringB) = true →
            (s.chip.blocked d p = true → s.chip.counted t.chip d (ULK_MISS (Chip.portNo p)) ULK_MISS.DISCARD
              ∧ (t.chip.die d).ring.sent p = (s.chip.die d).ring.sent p)
            ∧ (s.chip.blocked d p = false → (t.chip.die d).ring.busy p = true ∧ (t.chip.die d).ring.bad p = false
              ∧ ((s.chip.die d).ring.busy p = false → (s.chip.die d).ring.waited p = false →
                (t.chip.die d).ring.sent p = some { f with smod := s.chip.address d, flags := f.flags ||| Chip.portNo p })
              ∧ ∃ n ≤ 139264, (t.chip.die d).ring.sent p = some { f with smod := s.chip.address d, flags := f.flags ||| Chip.portNo p }
                ∨ (t.chip.die d).ring.sent p
                  = some (({ f with smod := s.chip.address d, flags := f.flags ||| Chip.portNo p } : Frame).delayed n)))

/-- R252, R254, R255, R256: every transit frame that a port which is UP receives is checked: the first check that fails counts it in the
one counter of its port, with the link CRC source of the port reported for a code or CRC error; a frame that an injection
failed at its own row before is not counted again (R377); it then stops at the exit die of its
module, is counted as discarded where its way is lost, or goes on, marked bad if a check failed: at once when its lane is free, and
behind the insertion and the frames held there when it is not. A valid ENUMERATE stops at the module master, which sends it in its own row.
Rests on choices of the model: log entries 24 and 26. -/
def Obligations.TransitFramesPassOnOrAreCounted : Prop :=
∀ (d : Die) (p : Port) (f : FrameIn) (n : Nat) (s : State), s.Inv → s.chip.runsOn d 6 = true → n = Chip.portNo p →
    s.chip.get d (ULK_PORT n) ULK_PORT.STATE = 3 →
    ∃ t, exec (.transitFrameReceived d p f) s = .next t
      ∧ s.chip.sameRegsBut t.chip d [ULK_ERR n, ULK_MISS n, ULK_TX, FCOL_INJ, FCOL_STATE] ∧ s.chip.sameDiesBut t.chip d
      ∧ ((s.chip.die d).ring.judged.contains (n, f.smod, f.ftype, f.seq) = true → s.chip.sameRegsBut t.chip d [ULK_MISS n, ULK_TX])
      ∧ ((s.chip.die d).ring.judged.contains (n, f.smod, f.ftype, f.seq) = false →
        (f.endT = false → s.chip.counted t.chip d (ULK_ERR n) ULK_ERR.STOMP)
        ∧ (f.endT = true → f.codeOk = false → s.chip.counted t.chip d (ULK_ERR n) ULK_ERR.CODE ∧ 140 + n ∈ (t.chip.die d).fcol.reports)
        ∧ (f.endT = true → f.codeOk = true → f.crcOk = false ∨ s.chip.injected d (1 + n) = true →
        s.chip.counted t.chip d (ULK_ERR n) ULK_ERR.CRC ∧ 140 + n ∈ (t.chip.die d).fcol.reports)
        ∧ (f.endT = true → f.codeOk = true → f.crcOk = true → s.chip.injected d (1 + n) = false →
        frameFormatOk f (s.chip.bit d (ULK_PORT n) ULK_PORT.EXT) = false → s.chip.counted t.chip d (ULK_ERR n) ULK_ERR.FORMAT))
      ∧ (s.chip.frameValid d n f = true → s.chip.sameRegsBut t.chip d [ULK_MISS n, ULK_TX])
      ∧ (s.chip.frameValid d n f = true ∧ Chip.isEnumerate f = true ∧ s.chip.master d = d ∨ s.chip.staysAtExit d p f = true →
        (t.chip.die d).ring.sent p = (s.chip.die d).ring.sent p ∧ (t.chip.die d).ring.held p = (s.chip.die d).ring.held p)
      ∧ (¬ (s.chip.frameValid d n f = true ∧ Chip.isEnumerate f = true ∧ s.chip.master d = d) → s.chip.staysAtExit d p f = false →
        (s.chip.blocked d p = true → s.chip.counted t.chip d (ULK_MISS n) ULK_MISS.DISCARD)
        ∧ (s.chip.blocked d p = false → (s.chip.die d).ring.busy p = false → (s.chip.die d).ring.held p = [] →
          (t.chip.die d).ring.sent p = some (frameOf f) ∧ (t.chip.die d).ring.bad p = !(s.chip.frameValid d n f))
        ∧ (s.chip.blocked d p = false → (s.chip.die d).ring.busy p = true ∨ (s.chip.die d).ring.held p ≠ [] →
          t.chip.bit d ULK_TX ULK_TX.HOLDING = true
            ∧ ∃ l, (t.chip.die d).ring.held p = l ++ [(frameOf f, !(s.chip.frameValid d n f))]))

/-- R249: a BLOT frame in time, on a link that does not fail it, schedules the ring blot at stroke AT with its ID, a late one is only
counted in LATEBLOT; at stroke AT the pending blot fires: it is no longer pending and trigger bit 0 is set with its ID, all other registers
as before. A frame that fails its link CRC under an injection schedules nothing (R377). -/
def Obligations.RingBlotIsScheduledAndFires : Prop :=
∀ (d : Die) (s : State), s.Inv →
    (∀ (smod seq : Nat) (at_ : Stroke) (p : Port) (id : Nat), s.chip.runsOn d 6 = true →
      (s.chip.linkOk d p (smod, 7, seq) = true → s.chip.bit d MOD_SNAP_CFG MOD_SNAP_CFG.RING_EN = true →
        s.chip.takenBefore d smod 7 seq = false →
        (s.chip.stroke d + 1 < at_.toNat → s.chip.bit d ULK_BLOT ULK_BLOT.PENDING = false →
          ∃ t, exec (.blotFrameReceived d smod seq at_ ⟨p, id⟩) s = .next t ∧ t.chip.bit d ULK_BLOT ULK_BLOT.PENDING = true
            ∧ t.chip.get d ULK_BLOT ULK_BLOT.ID = id % 256 ∧ (t.chip.die d).ring.blotAt = at_
            ∧ s.chip.sameRegsBut t.chip d [ULK_BLOT, ULK_BLOTAT] ∧ s.chip.sameDiesBut t.chip d)
        ∧ (at_.toNat ≤ s.chip.stroke d + 1 →
          ∃ t, exec (.blotFrameReceived d smod seq at_ ⟨p, id⟩) s = .next t
            ∧ t.chip.get d ULK_TX ULK_TX.LATEBLOT = min (s.chip.get d ULK_TX ULK_TX.LATEBLOT + 1) (2 ^ ULK_TX.LATEBLOT.w - 1)
            ∧ s.chip.sameRegsBut t.chip d [ULK_TX]))
      ∧ (s.chip.linkOk d p (smod, 7, seq) = false → ∃ t, exec (.blotFrameReceived d smod seq at_ ⟨p, id⟩) s = .next t
          ∧ s.chip.sameRegsBut t.chip d [ULK_ERR (Chip.portNo p), FCOL_INJ, FCOL_STATE] ∧ s.chip.sameDiesBut t.chip d))
    ∧ (s.chip.runs d = true → s.chip.bit d ULK_BLOT ULK_BLOT.PENDING = true →
      s.chip.stroke d = (s.chip.die d).ring.blotAt.toNat →
      ∃ t, exec (.ringBlotFire d) s = .next t ∧ t.chip.bit d ULK_BLOT ULK_BLOT.PENDING = false
        ∧ (t.chip.die d).snap.trig.testBit 0 = true ∧ (t.chip.die d).snap.id = s.chip.get d ULK_BLOT ULK_BLOT.ID
        ∧ s.chip.sameRegsBut t.chip d [ULK_BLOT] ∧ s.chip.sameDiesBut t.chip d)

/-- R262, R48: an echo probe schedules its reply; the reply goes out with TADJ; the prober takes the round trip and stores the delay of the
hop, the cable's (RTT − 1,000 ns − TADJ) / 2 and that of the cuff it forwards across, in units of 0.125 ns, limited to its field; with no
reply it sets the miss bit and keeps the delay. Rests on a choice of the model: log entry 120. -/
def Obligations.EchoMeasuresTheCableHop : Prop :=
∀ (d : Die) (s : State), s.Inv → s.chip.runsOn d 6 = true →
    (∀ id : Nat, (d.val = 0 ∨ s.chip.isTop d = true) → ∃ t, exec (.echoProbeReceived d id) s = .next t
      ∧ (t.chip.die d).ring.replyDue = some id ∧ s.chip.sameRegs t.chip ∧ s.chip.sameDiesBut t.chip d)
    ∧ (∀ tadj : Nat, (s.chip.die d).ring.replyDue.isSome = true → ∃ t, exec (.echoReplySend d tadj) s = .next t
      ∧ (t.chip.die d).ring.replyDue = none ∧ (t.chip.die d).ring.replied = some (tadj % 65536)
      ∧ s.chip.sameRegs t.chip ∧ s.chip.sameDiesBut t.chip d)
    ∧ ((s.chip.die d).ring.probeOut = true →
      (∀ rtt tadj : Nat, ∃ t, exec (.echoReplyReceived d rtt tadj) s = .next t ∧ (t.chip.die d).ring.probeOut = false
        ∧ (d.val = 0 ∨ s.chip.isTop d = true →
          t.chip.get d ULK_BDELAY (if d.val = 0 then ULK_BDELAY.HOP_A else ULK_BDELAY.HOP_B)
            = min ((rtt - 8000 - tadj) / 2 + (if d.val = 0 ∧ s.chip.isTop d = true then 0
                else Config.cuffDelay d.val (if d.val = 0 then 0 else 1) (s.chip.getI d THM_TDIE THM_TDIE.TDIE)))
              (2 ^ ULK_BDELAY.HOP_A.w - 1))
        ∧ s.chip.sameRegsBut t.chip d [ULK_ECHO 0, ULK_ECHO 1, ULK_BDELAY])
      ∧ (∃ t, exec (.echoTimeout d) s = .next t ∧ (t.chip.die d).ring.probeOut = false
        ∧ t.chip.bit d ULK_BDELAY (if d.val = 0 then ULK_BDELAY.ECHO_A_MISS else ULK_BDELAY.ECHO_B_MISS) = true
        ∧ t.chip.get d ULK_BDELAY (if d.val = 0 then ULK_BDELAY.HOP_A else ULK_BDELAY.HOP_B)
          = s.chip.get d ULK_BDELAY (if d.val = 0 then ULK_BDELAY.HOP_A else ULK_BDELAY.HOP_B)
        ∧ s.chip.sameRegsBut t.chip d [ULK_BDELAY]))

/-- R41: at the start of a line the supply measurement of the ended line is latched (R406), and a level above 2.3 V ends what is left of a
dip's duration (R407); the interpolated factory values come into force (R340), and the on-current of every bleed switch that was on for
32 cycles or more is written (R156). At the start of a page the engine's peak stroke use begins anew (R176), the event windows slide
(R365), the factory values are interpolated (R340), a ring summary of the ended page is sent by the master of an acting Ring Head and its
notes are cleared (R34, R260), and the PAGE summary frame is queued where it is enabled and has room (R88).
Neither tick takes a command. A snapshot is re-armed at the stroke edge, and stated there.
Rests on choices of the model: log entries 1, 12 and 108. -/
def Obligations.LineAndPageBoundariesLatchTheirMeasures : Prop :=
∀ (d : Die) (s : State), s.Inv → s.chip.runs d = true →
    (∀ m : LineMeas, s.chip.stroke d % 4 = 0 → ∃ t, exec (.lineBoundary d m) s = .next t ∧ t.pending = s.pending
      ∧ t.chip.get d PWR_SUPPLY PWR_SUPPLY.VSTK = min m.vstk (2 ^ PWR_SUPPLY.VSTK.w - 1)
      ∧ t.chip.get d PWR_SUPPLY PWR_SUPPLY.VREG5 = min m.vreg5 (2 ^ PWR_SUPPLY.VREG5.w - 1)
      ∧ (2300 < m.vreg5 → t.chip.get d PWR_DIP PWR_DIP.LIVE = 0)
      ∧ (t.chip.die d).cal.fac = (s.chip.die d).cal.facNext
      ∧ (s.chip.on d 3 = true → ∀ k < 16, 32 ≤ s.chip.bleedEnd d k →
          t.chip.get d (CXS_BLEED k) CXS_BLEED.ION = min (m.ion.getD k 0) (2 ^ CXS_BLEED.ION.w - 1)))
    ∧ (∀ m : PageMeas, s.chip.stroke d % 1024 = 0 → ∃ t, exec (.pageBoundary d m) s = .next t ∧ t.pending = s.pending
      ∧ t.chip.get d BCE_CYCLES BCE_CYCLES.PEAK = 0 ∧ (t.chip.die d).ring.heard = [] ∧ (t.chip.die d).ring.faulted = []
      ∧ ((s.chip.die d).fcol.cfgPend = [] →
          (t.chip.die d).fcol.windows = (s.chip.die d).fcol.windows.map fun w => (0 :: w).take 256)
      ∧ (t.chip.die d).cal.facNext = t.chip.factoryValues d
      ∧ (s.chip.on d 6 = true → s.chip.isHead d = true → s.chip.master d = d → s.chip.address d ≠ 0 → (s.chip.die d).boot.stuck = false →
          ∃ f ∈ (t.chip.die d).ring.queue, f.ftype = 5 ∧ f.ringA = true ∧ f.ringB = true
            ∧ f.payload = leBytes 2 6 ++ leBytes 6 (s.chip.stroke d) ++ (leBytes 1 (s.chip.die d).ring.heard.length
              ++ leBytes 16 (Chip.moduleMask (s.chip.die d).ring.heard) ++ leBytes 16 (Chip.moduleMask (s.chip.die d).ring.faulted)))
      ∧ (s.chip.on d 1 = true → 1024 ≤ s.chip.stroke d → s.chip.bit d ULK_STROKE_HI ULK_STROKE_HI.VALID = true →
          CFE_STREAMCFG.PAGE_EN.read (s.chip.die d).cfe.streamNow = 1 → s.chip.streamLevel d + 223 ≤ 1980 →
          ∃ f ∈ (t.chip.die d).ring.queue, f.ftype = 4
            ∧ f.payload.take 12 = Chip.streamHeader 3 0 (s.chip.dieFlags d) (s.chip.stroke d - 1024) (s.chip.cellMask d) 1 0
            ∧ (f.payload.drop 12).take (9 * min 16 (s.chip.cells d) + 9)
              = ((List.range (min 16 (s.chip.cells d))).map fun c =>
                  Chip.pageFields ((s.chip.die d).cfe.page.getD c ⟨0, 0, 0, 0, 0⟩)).flatten
                ++ Chip.pageFields ((s.chip.die d).cfe.page.getD 17 ⟨0, 0, 0, 0, 0⟩)))

/-- R29, R381, R288: a heartbeat restarts the count of strokes without one from that neighbour, and its summary part brings the bits of the
sender in MOD_FCOL_SUM; no other register changes while the sender counts as alive; a sender that counts as lost, and whose topology
shows it alive again, counts as alive in every powered die (in the same step: the model's choice, log entry 14).
R224: an update of a roster entry from the die that owns it gives the receiving die the owner's four words of the entry, and is no
longer due to it.
Rests on choices of the model: log entries 14, 25, 31 and 77. -/
def Obligations.VerticalLinkCarriesNeighboursAndRoster : Prop :=
  (
∀ (d src : Die) (s : State), s.Inv → s.chip.runsOn d 6 = true → s.chip.runsOn src 6 = true → s.chip.adjacent d src = true →
    ∃ t, exec (.heartbeatReceived d src) s = .next t ∧ (src < d → (t.chip.die d).ring.hbBelow = 0)
      ∧ (d < src → (t.chip.die d).ring.hbAbove = 0)
      ∧ (∀ f ∈ [ MOD_FCOL_SUM.SAFE, MOD_FCOL_SUM.CONTAINED, MOD_FCOL_SUM.SEVERE],
          t.chip.get d MOD_FCOL_SUM ⟨f.lo + src.val, 1⟩ = s.chip.get src MOD_FCOL_SUM ⟨f.lo + src.val, 1⟩)
      ∧ (s.chip.alive d src = true → s.chip.sameRegsBut t.chip d [ MOD_FCOL_SUM])
      ∧ (s.chip.alive d src = false → s.chip.alive src src = true → ∀ e, s.chip.on e 0 = true → t.chip.alive e src = true)
      ∧ s.chip.sameDiesBut t.chip d
  ) ∧ (
∀ (d src : Die) (e : Nat) (s : State), s.Inv → s.chip.fitted d = true → s.chip.on d 0 = true → d ≠ src → ownerOf e = src.val →
    e < 3072 → ((s.chip.die src).nib.sent.any fun p => p.1 == e && p.2.testBit d.val) = true →
    ∃ t, exec (.rosterUpdateReceived d src e) s = .next t
      ∧ (∀ a ∈ [ MOD_NIB_ID_LO e, MOD_NIB_ID_HI e, MOD_NIB_ENTRY e, MOD_NIB_VALUE e], t.chip.reg d a = s.chip.reg src a)
      ∧ s.chip.sameRegsBut t.chip d [ MOD_NIB_ID_LO e, MOD_NIB_ID_HI e, MOD_NIB_ENTRY e, MOD_NIB_VALUE e]
      ∧ s.chip.sameDiesBut t.chip src
  )

/-- R31, R18, R27: a neighbour silent for 8 strokes is declared lost in the topology of every powered die and brings FAULT_N low at SD0;
the lowest-numbered live die takes the master role that MASTER does not yet show (that every powered die's copy of the topology and of
MASTER shows it in the same step is the model's choice, log entry 14; R18 says within 8 strokes); a fault order that arrives at SD0 stands and holds
FAULT_N low, and its end takes it from those that stand.
Rests on choices of the model: log entries 14, 37 and 90. -/
def Obligations.LossTakeoverAndFaultOrdersOfTheModule : Prop :=
(∀ (d n : Die) (s : State), s.Inv → s.chip.runsOn d 6 = true → s.chip.adjacent d n = true → s.chip.alive d n = true →
    8 ≤ (if n < d then (s.chip.die d).ring.hbBelow else (s.chip.die d).ring.hbAbove) → s.chip.on 0 0 = true →
    ∃ t, exec (.neighbourLost d n) s = .next t ∧ t.chip.mod.faultLow = true
      ∧ ∀ e, s.chip.on e 0 = true → t.chip.alive e n = false ∧ (t.chip.get e MOD_TOPOLOGY MOD_TOPOLOGY.LOST).testBit n.val = true)
  ∧ (∀ (d : Die) (s : State), s.Inv → s.chip.runs d = true → s.chip.lowestLive d = d → s.chip.master d ≠ d →
    ∃ t, exec (.masterTakeover d) s = .next t ∧ (∀ e, s.chip.on e 0 = true → t.chip.master e = d) ∧ t.chip.dies = s.chip.dies)
  ∧ (∀ (src : Die) (s : State), s.chip.on 0 0 = true →
    (∃ t, exec (.faultOrderReceived 0 src true) s = .next t ∧ src ∈ t.chip.mod.orders ∧ t.chip.mod.faultLow = true)
    ∧ ∃ t, exec (.faultOrderReceived 0 src false) s = .next t ∧ src ∉ t.chip.mod.orders
        ∧ t.chip.mod.orders = s.chip.mod.orders.filter (· != src) ∧ t.chip.dies = s.chip.dies)

/-- R20, R21, R283: a relay of a released commit reaches a live die once, the master first where the write is to a common register of the
module: what the write does there is due at that die's next stroke edge, and nothing else changes; before the master's turn nothing
happens. The outcome of a die that is not the last one is noted in the entry, which goes on waiting; where it is the master's, and the
destination's own turn has come with it, the effects at the destination fall due.
Rests on choices of the model: log entries 25 and 89. -/
def Obligations.RelayedWritesReachEveryDieOnce : Prop :=
(∀ (d src : Die) (seq : Nat) (e : Entry) (s : State), s.chip.runsOn d 6 = true → d ≠ src → s.chip.alive d d = true →
    s.chip.entry? src seq = some e → s.chip.relaysNow src e = true → s.chip.relayTaken d src e = false →
    ∀ i, (i = .broadcastWriteRelay d src seq ∧ broadcastEntry e = true)
        ∨ (i = .moduleCommonWriteRelay d src seq ∧ broadcastEntry e = false) →
      (commonEntry e = false ∨ s.chip.master src = d ∨ s.chip.masterDone src e = true →
        ∃ t, exec i s = .next t ∧ (t.chip.die d).jnl.due = (s.chip.die d).jnl.due ++ s.chip.relayEffects d src e
          ∧ s.chip.sameRegs t.chip ∧ s.chip.sameDiesBut t.chip d)
      ∧ (commonEntry e = true → s.chip.master src ≠ d → s.chip.masterDone src e = false → exec i s = .next s))
  ∧ (∀ (d src k : Die) (seq st det : Nat) (e e' : Entry) (s : State), s.chip.entry? d seq = some e →
    (s.chip.die src).jnl.outcomes.find? (fun o => o.1 == d && o.2.1 == seq) = some (d, seq, st, det) → e.st = .committed →
    e.relay = true → e.seenMask.testBit src.val = false → e' = e.withOutcome src st det → k ∈ s.chip.liveDies →
    e'.seenMask.testBit k.val = false →
      ∃ t, exec (.relayOutcomeReceived d src seq) s = .next t ∧ s.chip.sameRegs t.chip ∧ s.chip.sameDiesBut t.chip d
        ∧ (commonEntry e = false ∨ e.released = false → t.chip.entry? d seq = some e' ∧ (t.chip.die d).jnl.due = (s.chip.die d).jnl.due)
        ∧ (commonEntry e = true → e.released = true → s.chip.master d = src →
          t.chip.entry? d seq = some { e' with effects := [] }
            ∧ (t.chip.die d).jnl.due = (s.chip.die d).jnl.due ++ e.effects))

/-- R360, R362, R364: an evaluation takes every report made since the last one; a Fatal source reported with its live bit 0, where the
collector reacts itself, makes the die at least SAFE with the safe state's actions due at the next stroke edge; a die that was SAFE or
BOOTFAIL does not leave that state by an evaluation.
Rests on choices of the model: log entries 33 and 34. -/
def Obligations.EvaluationTakesReportsAndReachesSafe : Prop :=
∀ (d : Die) (p r : Bool) (s : State), s.Inv → s.chip.fitted d = true → s.chip.on d 0 = true → (s.chip.die d).pwr.mclk = true →
    ∃ t, exec (.fcolEvaluation d p r) s = .next t ∧ (t.chip.die d).fcol.reports = []
      ∧ (2 ≤ s.chip.get d FCOL_STATE FCOL_STATE.STATE → 2 ≤ t.chip.get d FCOL_STATE FCOL_STATE.STATE)
      ∧ (∀ n < 168, srcClass n = .fatal → n ∈ (s.chip.die d).fcol.reports → s.chip.live d n = false →
          s.chip.mode d FOL_MODENOW.FREACT = false →
          2 ≤ t.chip.get d FCOL_STATE FCOL_STATE.STATE ∧ (t.chip.die d).fcol.safeDue = true)

/-- R367, R385, R375, R377: the collector's write-only actions: a sticky bit whose write bit is 1 clears and another stays; EVCLR makes
every event counter 0; KICK starts the watchdog's deadline again; a write of FCOL_INJ arms a listed checker with its count, or cancels.
R368, R369: at a line boundary the isolations end whose sticky and live bits are both 0, but for those with a release of their own;
RESUME is accepted outside BOOTFAIL with no Fatal cause standing, and an accepted RESUME takes a SAFE die at its line boundary to NORMAL,
or to CONTAINED while an uncorrected source stands; at SD0 FAULT_N goes with it, and an upper die's fault order ends unless it holds one
for a lost neighbour (R370).
Rests on choices of the model: log entries 32 and 35. -/
def Obligations.CollectorActionsAndResume : Prop :=
  (
∀ (d : Die) (s : State), s.Inv →
    (∀ (n : Fin 8) (w : Word), s.chip.on d 0 = true → ∃ t, exec (.fcolStkWrite d n w) s = .next t
      ∧ t.chip.reg d (FCOL_STK n.val) = s.chip.reg d (FCOL_STK n.val) &&& ~~~ w)
    ∧ (s.chip.on d 0 = true → ∃ t, exec (.evclr d) s = .next t ∧ (∀ w < 64, t.chip.reg d (FCOL_EVCNT w) = 0)
      ∧ s.chip.sameRegsBut t.chip d ((List.range 64).map FCOL_EVCNT) ∧ t.chip.dies = s.chip.dies)
    ∧ (∃ t, exec (.kick d) s = .next t ∧ (t.chip.die d).fcol.kickPages = 0 ∧ s.chip.sameRegs t.chip ∧ s.chip.sameDiesBut t.chip d)
    ∧ (∀ w : Word, s.chip.on d 0 = true → s.chip.get d LCY_STATE LCY_STATE.STATE ≠ 4 → ∃ t, exec (.fcolInjWrite d w) s = .next t
      ∧ s.chip.sameRegsBut t.chip d [FCOL_INJ, FCOL_STATE] ∧ t.chip.dies = s.chip.dies
      ∧ (FCOL_INJ.COUNT.read w = 0 → t.chip.get d FCOL_INJ FCOL_INJ.ARMED = 0
          ∧ t.chip.bit d FCOL_STATE FCOL_STATE.INJ = false)
      ∧ (FCOL_INJ.COUNT.read w ≠ 0 → 1 ≤ FCOL_INJ.CHECKER.read w → FCOL_INJ.CHECKER.read w ≤ 13 →
          t.chip.get d FCOL_INJ FCOL_INJ.ARMED = FCOL_INJ.CHECKER.read w ∧ t.chip.get d FCOL_INJ FCOL_INJ.REMAIN = FCOL_INJ.COUNT.read w
          ∧ t.chip.bit d FCOL_STATE FCOL_STATE.INJ = true))
  ) ∧ (
∀ (d : Die) (s : State), s.Inv →
    (s.chip.runs d = true → s.chip.stroke d % 4 = 0 → ∃ t, exec (.ucIsolationLift d) s = .next t
      ∧ (t.chip.die d).fcol.isolated
        = (s.chip.die d).fcol.isolated.filter (fun n => ownRelease n || s.chip.sticky d n || s.chip.live d n)
      ∧ s.chip.sameRegs t.chip ∧ s.chip.sameDiesBut t.chip d)
    ∧ (s.chip.on d 0 = true → s.chip.get d FCOL_STATE FCOL_STATE.STATE ≠ 3 → s.chip.resumeBlocker d = none →
      ∃ t, exec (.resume d) s = .next t ∧ (t.chip.die d).fcol.resume = true ∧ s.chip.sameRegs t.chip ∧ s.chip.sameDiesBut t.chip d)
    ∧ (s.chip.runs d = true → s.chip.stroke d % 4 = 0 → (s.chip.die d).fcol.resume = true → s.chip.isSafe d = true →
      ∃ t, exec (.resumeApply d) s = .next t ∧ t.chip.get d FCOL_STATE FCOL_STATE.STATE = (if s.chip.containedNow d then 1 else 0)
        ∧ t.chip.bit d CXS_STATUS CXS_STATUS.SAFE = false ∧ (t.chip.die d).fcol.resume = false
        ∧ (d.val ≠ 0 → (t.chip.die d).ring.orderSent = s.chip.liveNow d 146)
        ∧ (d.val = 0 → t.chip.mod.faultLow = (!(s.chip.mod.orders.isEmpty)
            || !(allDies.all fun k => !(s.chip.fitted k) || s.chip.alive 0 k)
            || !(allDies.all fun k => !(s.chip.fitted k) || (s.chip.die k).boot.done)
            || (allDies.any fun k => s.chip.fitted k && (s.chip.die k).boot.stuck)))
        ∧ (∀ (e : Die) (a : Nat), fullAddr e a ≠ fullAddr d CXS_STATUS → fullAddr e a ≠ fullAddr d FCOL_STATE →
            fullAddr e a ≠ fullAddr e MOD_FCOL_SUM → t.chip.reg e a = s.chip.reg e a)
        ∧ s.chip.sameDiesBut t.chip d)
  )

/-- R373, R375: the second bad clock check in a row raises source 163 once; a core that goes 2 pages without a KICK, or takes an
exception, stops with source 155 reported, and without RESTART stays stopped with its command loop not reached; a corrected RAM error of a
powered die reports source 147, 148 or 149; an uncorrectable one of the data RAM reports 151, and one of a folio copy reports 152 and makes
that copy invalid, which it does not where the reactions are the host's (R364, R371).
Rests on a choice of the model: log entry 12. -/
def Obligations.ClockCoreAndRamChecksReport : Prop :=
∀ (d : Die) (s : State), s.Inv →
    (∀ (count : Nat) (lf : Bool), s.chip.runs d = true → (count < 62400 ∨ 65600 < count) → 1 ≤ (s.chip.die d).fcol.clkBad →
      163 ∉ (s.chip.die d).fcol.present → ∃ t, exec (.clockMonitorCheck d count lf) s = .next t
        ∧ 163 ∈ (t.chip.die d).fcol.reports ∧ 163 ∈ (t.chip.die d).fcol.present ∧ (t.chip.die d).fcol.clkGood = 0
        ∧ s.chip.sameRegs t.chip ∧ s.chip.sameDiesBut t.chip d)
    ∧ (∀ i, (i = .watchdogExpiry d ∧ 2 ≤ (s.chip.die d).fcol.kickPages) ∨ i = .coreException d → s.chip.runsOn d 5 = true →
      s.chip.get d CMD_STAT CMD_STAT.FWSTATE = 3 → s.chip.bit d FCOL_CFG FCOL_CFG.RESTART = false →
      (∀ e ∈ (s.chip.die d).jnl.entries, e.st ≠ .executing) → ∃ t, exec i s = .next t
        ∧ t.chip.get d CMD_STAT CMD_STAT.FWSTATE = 4 ∧ t.chip.bit d CMD_STAT CMD_STAT.LOOP = false
        ∧ 155 ∈ (t.chip.die d).fcol.reports ∧ s.chip.sameRegsBut t.chip d [CMD_STAT] ∧ s.chip.sameDiesBut t.chip d)
    ∧ (∀ (ram : Fin 3) (corr : Bool) (tg : EccTarget), s.chip.fitted d = true → s.chip.on d 0 = true →
      s.chip.injected d (6 + 2 * ram.val) = false → s.chip.injected d (7 + 2 * ram.val) = false →
      ∃ t, exec (.ramEccError d ram corr tg) s = .next t
        ∧ (corr = true → 147 + ram.val ∈ (t.chip.die d).fcol.reports ∧ s.chip.sameRegs t.chip)
        ∧ (corr = false → ram.val = 1 → 151 ∈ (t.chip.die d).fcol.reports ∧ s.chip.sameRegs t.chip)
        ∧ (corr = false → ∀ b, ram.val = 2 → tg = .folio b →
            152 ∈ (t.chip.die d).fcol.reports
              ∧ (s.chip.mode d FOL_MODENOW.FREACT = false →
                t.chip.bit d FOL_STAT (if b then FOL_STAT.BVALID else FOL_STAT.AVALID) = false)
              ∧ (s.chip.mode d FOL_MODENOW.FREACT = true → s.chip.sameRegs t.chip)))

/-- R301, R302, R303: a ring-wide LOAD_BEGIN that is well formed and has a new LOADID begins a load: core loading, LOADID, state 1,
LENGTH and the CRC taken, no block present; a LOAD_DATA block of that load is stored at 496 times its number and counted once; LOAD_END
with every block present completes the load.
Rests on a choice of the model: log entry 3. -/
def Obligations.FirmwareLoadTakesItsBlocks : Prop :=
∀ (d : Die) (f : FrameIn) (q : List Byte) (s : State), s.Inv → q = pktParams f.payload →
    (s.chip.takesRingWide d 0x60 f → s.chip.lifecycle d ≠ 4 → Chip.beginWellFormed (p32 q 0) (p16 q 8) (p16 q 10) = true →
      p16 q 10 ≠ s.chip.get d BOOT_LOAD BOOT_LOAD.LOADID → (∀ e ∈ (s.chip.die d).jnl.entries, e.st ≠ .executing) →
      ∃ t, exec (.loadBegin d (.ringWide f)) s = .next t ∧ t.chip.get d CMD_STAT CMD_STAT.FWSTATE = 1
        ∧ t.chip.get d BOOT_LOAD BOOT_LOAD.LOADID = p16 q 10 ∧ t.chip.get d BOOT_LOAD BOOT_LOAD.STATE = 1
        ∧ t.chip.get d BOOT_LOAD BOOT_LOAD.BLOCKS = 0
        ∧ t.chip.get d BOOT_IMAGE BOOT_IMAGE.LENGTH = p32 q 0 ∧ t.chip.reg d BOOT_LOADCRC = BitVec.ofNat 32 (p32 q 4)
        ∧ (t.chip.die d).boot.blocks = [] ∧ (t.chip.die d).boot.nblocks = p16 q 8
        ∧ s.chip.sameRegsBut t.chip d [CMD_STAT, BOOT_LOAD, BOOT_LOADCRC, BOOT_IMAGE, BOOT_MISS] ∧ s.chip.sameDiesBut t.chip d)
    ∧ (s.chip.takesRingWide d 0x61 f → p16 q 0 = s.chip.get d BOOT_LOAD BOOT_LOAD.LOADID → p16 q 2 < (s.chip.die d).boot.nblocks →
      p16 q 4 = blockLen (s.chip.get d BOOT_IMAGE BOOT_IMAGE.LENGTH) (s.chip.die d).boot.nblocks (p16 q 2) →
      p16 q 2 ∉ (s.chip.die d).boot.blocks →
      ∃ t, exec (.loadData d (.ringWide f)) s = .next t ∧ (t.chip.die d).boot.blocks = p16 q 2 :: (s.chip.die d).boot.blocks
        ∧ (t.chip.die d).boot.code = ramStore (s.chip.die d).boot.code (496 * p16 q 2) (q.drop 8)
        ∧ t.chip.get d BOOT_LOAD BOOT_LOAD.BLOCKS = min (s.chip.get d BOOT_LOAD BOOT_LOAD.BLOCKS + 1) (2 ^ BOOT_LOAD.BLOCKS.w - 1)
        ∧ s.chip.sameRegsBut t.chip d [CMD_STAT, BOOT_LOAD, BOOT_MISS] ∧ s.chip.sameDiesBut t.chip d)
    ∧ (s.chip.takesRingWide d 0x62 f → p16 q 0 = s.chip.get d BOOT_LOAD BOOT_LOAD.LOADID → p16 q 0 ≠ 0 →
      s.chip.get d BOOT_LOAD BOOT_LOAD.STATE = 1 → s.chip.allBlocks d = true → (s.chip.die d).jnl.due = [] →
      ∃ t, exec (.loadEnd d (.ringWide f)) s = .next t ∧ t.chip.bit d BOOT_LOAD BOOT_LOAD.ENDSEEN = true
        ∧ t.chip.get d BOOT_LOAD BOOT_LOAD.STATE = 2 ∧ s.chip.sameRegsBut t.chip d [CMD_STAT, BOOT_LOAD] ∧ s.chip.sameDiesBut t.chip d)

/-- R305, R306, R307: the check of a complete load starts once; when it ends, the load state and ERR take its verdict and a passed image
is ready with its version; LOAD_BOOT of that load starts the core, and the running image reaches its command loop.
R303, R304: the master tells of missing blocks 4 pages after the last time, and once of the result when every live die has a final
load state of that load; a snooping Ring Head's master that holds every block of the load and has copied the LOAD_MISSING sends the named
ones again, at most 8 times.
Rests on choices of the model: log entries 4, 98 and 99. -/
def Obligations.ImageStartAndLoadReports : Prop :=
  (
∀ (d : Die) (s : State), s.Inv →
    (s.chip.runsOn d 5 = true → s.chip.get d BOOT_LOAD BOOT_LOAD.STATE = 2 → (s.chip.die d).boot.checking = false →
      ∃ t, exec (.imageCheck d) s = .next t ∧ (t.chip.die d).boot.checking = true ∧ s.chip.sameRegs t.chip
        ∧ s.chip.sameDiesBut t.chip d)
    ∧ (s.chip.runsOn d 5 = true → (s.chip.die d).boot.checking = true → ∃ t, exec (.imageCheckComplete d) s = .next t
      ∧ t.chip.get d BOOT_LOAD BOOT_LOAD.STATE = (s.chip.imageVerdict d).1 ∧ t.chip.get d BOOT_LOAD BOOT_LOAD.ERR = (s.chip.imageVerdict d).2.1
      ∧ (t.chip.die d).boot.checking = false
      ∧ ((s.chip.imageVerdict d).1 = 3 → t.chip.get d CMD_STAT CMD_STAT.FWSTATE = 2
          ∧ t.chip.reg d BOOT_VERSION = BitVec.ofNat 32 (s.chip.imageField d 16 4))
      ∧ ((s.chip.imageVerdict d).1 ≠ 3 → t.chip.reg d CMD_STAT = s.chip.reg d CMD_STAT)
      ∧ s.chip.sameRegsBut t.chip d [BOOT_LOAD, BOOT_IMAGE, BOOT_VERSION, CMD_STAT] ∧ s.chip.sameDiesBut t.chip d)
    ∧ (∀ f : FrameIn, s.chip.takesRingWide d 0x64 f → p16 (pktParams f.payload) 0 = s.chip.get d BOOT_LOAD BOOT_LOAD.LOADID →
      s.chip.get d BOOT_LOAD BOOT_LOAD.STATE = 3 → s.chip.get d CMD_STAT CMD_STAT.FWSTATE = 2 → s.chip.lifecycle d ≠ 4 →
      ∃ t, exec (.loadBoot d (.ringWide f)) s = .next t ∧ t.chip.get d CMD_STAT CMD_STAT.FWSTATE = 3
        ∧ t.chip.bit d CMD_STAT CMD_STAT.LOOP = false ∧ s.chip.sameRegsBut t.chip d (CMD_STAT :: PWR_PAD :: (List.range 16).map CXS_BLEED) ∧ s.chip.sameDiesBut t.chip d)
    ∧ (s.chip.runsOn d 5 = true → s.chip.get d CMD_STAT CMD_STAT.FWSTATE = 3 → ∃ t, exec (.commandLoopReached d) s = .next t
      ∧ t.chip.bit d CMD_STAT CMD_STAT.LOOP = true ∧ s.chip.sameRegsBut t.chip d [CMD_STAT] ∧ t.chip.dies = s.chip.dies)
  ) ∧ (
∀ (d : Die) (s : State), s.chip.master d = d →
    (s.chip.runs d = true → s.chip.bit d BOOT_LOAD BOOT_LOAD.ENDSEEN = true → s.chip.diesMissing d ≠ [] → 4 ≤ (s.chip.die d).boot.missPages →
      s.chip.address d ≠ 0 → ∃ t, exec (.loadMissingSend d) s = .next t ∧ (t.chip.die d).boot.missPages = 0
        ∧ (t.chip.die d).ring.queue.length = (s.chip.die d).ring.queue.length + 1 ∧ s.chip.sameRegs t.chip ∧ s.chip.sameDiesBut t.chip d)
    ∧ (s.chip.runs d = true → s.chip.get d BOOT_LOAD BOOT_LOAD.LOADID ≠ 0 → (s.chip.die d).boot.resultSent = false →
      (∀ k, s.chip.fitted k = true → s.chip.on k 0 = true → s.chip.alive d k = true → 3 ≤ s.chip.get k BOOT_LOAD BOOT_LOAD.STATE
        ∧ s.chip.get k BOOT_LOAD BOOT_LOAD.LOADID = s.chip.get d BOOT_LOAD BOOT_LOAD.LOADID) →
      s.chip.address d ≠ 0 → ∃ t, exec (.loadResultSend d) s = .next t ∧ (t.chip.die d).boot.resultSent = true
        ∧ (t.chip.die d).ring.queue.length = (s.chip.die d).ring.queue.length + 1 ∧ s.chip.sameRegs t.chip ∧ s.chip.sameDiesBut t.chip d)
    ∧ (∀ (smod id : Nat) (bs named : List Nat), s.chip.runsOn d 6 = true → s.chip.isHead d = true →
      s.chip.bit d ULK_CFG ULK_CFG.SNOOP = true → s.chip.get d BOOT_LOAD BOOT_LOAD.LOADID = id → id ≠ 0 → s.chip.allBlocks d = true →
      named = (List.range (s.chip.die d).boot.nblocks).filter (fun b => bs.contains b) →
      (s.chip.die d).ring.missing.any (s.chip.blocksNamed d smod id named) = true →
      (if (s.chip.die d).boot.retxId = id then (s.chip.die d).boot.retxCount else 0) < 8 →
      ∃ t, exec (.firmwareRetransmit d smod id bs) s = .next t ∧ (t.chip.die d).boot.retxId = id
        ∧ (t.chip.die d).boot.retxCount = (if (s.chip.die d).boot.retxId = id then (s.chip.die d).boot.retxCount else 0) + 1
        ∧ (t.chip.die d).ring.queue.length = (s.chip.die d).ring.queue.length + named.length
        ∧ s.chip.sameRegs t.chip ∧ s.chip.sameDiesBut t.chip d)
  )

/-- R65, R69, R70: at every stroke the FINE sample of each channel is latched, and at the first stroke of a line its LINE sample. Where
nothing acts on a connected channel but its own stage (no correction, no Shared mode, no test or substitution, not shadow-only or
invalid), its FINE sample is the stage's output held to −0.3 V to +5.5 V.
Rests on choices of the model: log entries 43 and 44. -/
def Obligations.LatchTakesTheChannelsSamples : Prop :=
∀ (d : Die) (chans : List ChanIn) (s : State), s.Inv → s.chip.runsOn d 1 = true → (s.chip.die d).cfe.stopped = false →
    ∃ t, exec (.cfeLatch d chans) s = .next t
      ∧ (∀ c < 17, t.chip.get d (CFE_FINE c) CFE_FINE.SAMPLE
          = ofSigned (satSigned (((s.chip.sleepGap d).ageChannels d).latched d c (chans.getD c ⟨0, 0, 0⟩)).1.1 CFE_FINE.SAMPLE.w) CFE_FINE.SAMPLE.w)
      ∧ (s.chip.stroke d % 4 = 0 → ∀ c < 18, t.chip.get d (CFE_LINE c) CFE_LINE.SAMPLE
          = ofSigned (satSigned (((s.chip.sleepGap d).ageChannels d).latched d c (chans.getD c ⟨0, 0, 0⟩)).2.1.1 CFE_LINE.SAMPLE.w) CFE_LINE.SAMPLE.w)
      ∧ (s.chip.stroke d % 4 ≠ 0 → s.chip.sameRegsBut t.chip d (ULK_TX :: (List.range 17).map CFE_FINE) ∧ s.chip.sameDiesBut t.chip d)
      ∧ (∀ c < 16, c < s.chip.cells d → s.chip.fullCal d = false → s.chip.cellInvalid d c = false → s.chip.shadowed d c = false →
          s.chip.spareServes d c = false → (s.chip.die d).owd.shift = [] → s.chip.correction d c = (0, 0) →
          ((s.chip.sleepGap d).ageChannels d).stageCorr d c 0 (s.chip.die d).cfe.fineNow = 0 →
          t.chip.get d (CFE_FINE c) CFE_FINE.SAMPLE
            = ofSigned (max (-300000) (min 5500000 (chans.getD c ⟨0, 0, 0⟩).fine)) CFE_FINE.SAMPLE.w)

/-- R74, R75, R76: a shadow conversion gives the code of the slot's cell, and in slot 0 of the span; once D2 has warmed up the code of a
connected cell is compared with both thresholds, and the second one in a row beyond a threshold sets the cell's live bit.
R80, R81, R85, R87: an AUX conversion's two results wait, in the form chosen for each input, for the next stroke edge; on SD0 with
the pack current enabled the difference gives it by its gain and offset; and the stroke's FINE record of the selected cells opens a frame
of its class, or joins an open one with the same header. A line's LINE record does so by its decimation, and its eighth place ends the frame,
which is queued where it has room and no slice puts it off (R86); the first latch after a sleep queues the GAP record of the strokes missed
(R61, R89). The PAGE frame is at PAGE_BOUNDARY.
Rests on choices of the model: log entries 43, 50 and 51. -/
def Obligations.ShadowAuxAndFineRecords : Prop :=
  (
∀ (d : Die) (code span test : Nat) (ok : Bool) (s : State) (c : Nat), s.Inv → s.chip.runsOn d 2 = true → c = s.chip.stroke d % 16 →
    ∃ t, exec (.shdConversion d code span test ok) s = .next t
      ∧ t.chip.get d (SHD_SAMPLE c) SHD_SAMPLE.CODE = min code (2 ^ SHD_SAMPLE.CODE.w - 1)
      ∧ (c = 0 → t.chip.get d (SHD_SAMPLE 17) SHD_SAMPLE.CODE = min span (2 ^ SHD_SAMPLE.CODE.w - 1))
      ∧ (c < s.chip.cells d → 16 ≤ (s.chip.die d).pwr.shdWarm →
          t.chip.bit d (SHD_SAMPLE c) SHD_SAMPLE.OVV = decide (s.chip.get d SHD_OV SHD_OV.CODE < code)
          ∧ t.chip.bit d (SHD_SAMPLE c) SHD_SAMPLE.UVV = decide (code < s.chip.get d SHD_UV SHD_UV.CODE)
          ∧ (s.chip.get d SHD_OV SHD_OV.CODE < code → 1 ≤ (s.chip.die d).shd.ovRun.getD c 0 →
              (t.chip.get d SHD_STATUS SHD_STATUS.OV_LIVE).testBit c = true)
          ∧ (code < s.chip.get d SHD_UV SHD_UV.CODE → 1 ≤ (s.chip.die d).shd.uvRun.getD c 0 →
              (t.chip.get d SHD_STATUS SHD_STATUS.UV_LIVE).testBit c = true))
  ) ∧ (
∀ (d : Die) (s : State),
    (∀ (a b : Nat) (diff : Int), s.chip.runsOn d 7 = true →
      ((d.val ≠ 0 ∨ s.chip.bit d CFE_AUXCFG CFE_AUXCFG.PACKI = false) ∨ s.chip.stroke d % 4 ≠ 0 →
        ∃ t, exec (.auxConversion d a b diff) s = .next t ∧ (t.chip.die d).cfe.auxDue = (s.chip.die d).cfe.auxDue
          ++ (if d.val = 0 ∧ s.chip.bit d CFE_AUXCFG CFE_AUXCFG.PACKI = true then
            [(0, ofSigned (satSigned (s.chip.auxCorrected d diff) 16) 16, false), (1, 0, false)] else [])
          ++ [(2 * (s.chip.stroke d % 4), s.chip.auxForm d (2 * (s.chip.stroke d % 4)) (s.chip.auxCorrected d a).toNat,
                decide (52800 < (s.chip.auxCorrected d a).toNat)),
              (2 * (s.chip.stroke d % 4) + 1, s.chip.auxForm d (2 * (s.chip.stroke d % 4) + 1) (s.chip.auxCorrected d b).toNat,
                decide (52800 < (s.chip.auxCorrected d b).toNat))])
      ∧ (d.val = 0 → s.chip.bit d CFE_AUXCFG CFE_AUXCFG.PACKI = true →
        ∃ t, exec (.auxConversion d a b diff) s = .next t ∧ (t.chip.die d).cfe.packDue
          = some (max (-8388607) (min 8388607
              (roundDiv (satSigned (s.chip.auxCorrected d diff) 16 * s.chip.getI d CFE_PACKI_GAIN CFE_PACKI_GAIN.GAIN) 65536
                + s.chip.getI d CFE_PACKI_OFFSET CFE_PACKI_OFFSET.OFFSET)), s.chip.stroke d)
          ∧ (s.chip.stroke d % 4 = 0 → s.chip.sameRegs t.chip ∧ s.chip.sameDiesBut t.chip d)))
    ∧ (s.chip.runsOn d 6 = true → ∃ t, exec (.streamFrameAssemble d) s = .next t ∧ (t.chip.die d).cfe.fineRec = false
        ∧ (t.chip.die d).cfe.lineRec = false ∧ s.chip.sameRegsBut t.chip d [ULK_TX] ∧ s.chip.sameDiesBut t.chip d)
    ∧ (∀ r, s.chip.runsOn d 6 = true → CFE_STREAMCFG.FINE_EN.read (s.chip.die d).cfe.streamNow = 1 →
      CFE_STREAMCFG.LINE_EN.read (s.chip.die d).cfe.streamNow = 0 → (s.chip.die d).cfe.lineOpen = none → s.chip.fineMask d ≠ 0 →
      (s.chip.die d).cfe.fineRec = true → s.chip.stroke d % 8 ≠ 7 →
      r = Chip.recordOf (s.chip.fineMask d) (fun c => s.chip.get d (CFE_FINE c) CFE_FINE.SAMPLE)
        (fun c => s.chip.get d (CFE_FINE c) CFE_FINE.FLAGS) →
      ((s.chip.die d).cfe.fineOpen = none → ∃ t, exec (.streamFrameAssemble d) s = .next t
        ∧ (t.chip.die d).cfe.fineOpen = some ⟨s.chip.stroke d, s.chip.dieFlags d, s.chip.fineMask d, 0,
            ringCode (CFE_STREAMCFG.FINE_RING.read (s.chip.die d).cfe.streamNow), [r]⟩
        ∧ s.chip.sameRegs t.chip ∧ s.chip.sameDiesBut t.chip d)
      ∧ (∀ g, (s.chip.die d).cfe.fineOpen = some g → g.dieflags = s.chip.dieFlags d → g.cellmask = s.chip.fineMask d → g.sub = 0 →
        g.rings = ringCode (CFE_STREAMCFG.FINE_RING.read (s.chip.die d).cfe.streamNow) → ∃ t, exec (.streamFrameAssemble d) s = .next t
        ∧ (t.chip.die d).cfe.fineOpen = some { g with recs := g.recs ++ [r] }
        ∧ s.chip.sameRegs t.chip ∧ s.chip.sameDiesBut t.chip d))
    ∧ (∀ (r : StreamRec) (w : Word) (n flags rings : Nat), s.chip.runsOn d 6 = true → w = (s.chip.die d).cfe.streamNow →
      n = min 8 (CFE_STREAMCFG.LINE_DIV.read w) → flags = s.chip.dieFlags d + 16 * CFE_STREAMCFG.LINE_SPAN.read w →
      rings = ringCode (CFE_STREAMCFG.LINE_RING.read w) → CFE_STREAMCFG.FINE_EN.read w = 0 → (s.chip.die d).cfe.fineOpen = none →
      CFE_STREAMCFG.LINE_EN.read w = 1 → (s.chip.die d).cfe.lineRec = true → s.chip.stroke d / 4 % 2 ^ n = 0 →
      r = Chip.recordOf (s.chip.cellMask d) (fun c => s.chip.get d (CFE_LINE c) CFE_LINE.SAMPLE)
          (fun c => s.chip.get d (CFE_LINE c) CFE_LINE.FLAGS)
        ++ (if CFE_STREAMCFG.LINE_SPAN.read w = 1 then
          [(17, s.chip.get d (CFE_LINE 17) CFE_LINE.SAMPLE, s.chip.get d (CFE_LINE 17) CFE_LINE.FLAGS)] else []) →
      (s.chip.stroke d / 4 / 2 ^ n % 8 ≠ 7 → (s.chip.die d).cfe.lineOpen = none → ∃ t, exec (.streamFrameAssemble d) s = .next t
        ∧ (t.chip.die d).cfe.lineOpen = some ⟨s.chip.stroke d, flags, s.chip.cellMask d, n, rings, [r]⟩
        ∧ s.chip.sameRegs t.chip ∧ s.chip.sameDiesBut t.chip d)
      ∧ (∀ g, (s.chip.die d).cfe.lineOpen = some g → g.dieflags = flags → g.cellmask = s.chip.cellMask d → g.sub = n → g.rings = rings →
        (s.chip.stroke d / 4 / 2 ^ n % 8 ≠ 7 → ∃ t, exec (.streamFrameAssemble d) s = .next t
          ∧ (t.chip.die d).cfe.lineOpen = some { g with recs := g.recs ++ [r] } ∧ s.chip.sameRegs t.chip ∧ s.chip.sameDiesBut t.chip d)
        ∧ (s.chip.stroke d / 4 / 2 ^ n % 8 = 7 → s.chip.bit d ULK_STROKE_HI ULK_STROKE_HI.VALID = true → s.chip.slicing d ≠ some 6 →
          s.chip.streamLevel d + (Chip.openPayload { g with recs := g.recs ++ [r] } 2).length + 16 ≤ 1980 →
          ∃ t, exec (.streamFrameAssemble d) s = .next t ∧ (t.chip.die d).cfe.lineOpen = none
            ∧ (∃ q, (t.chip.die d).ring.queue = (s.chip.die d).ring.queue ++ [q] ∧ q.ftype = 4
              ∧ q.payload = Chip.openPayload { g with recs := g.recs ++ [r] } 2)
            ∧ s.chip.sameRegsBut t.chip d [ULK_TX] ∧ s.chip.sameDiesBut t.chip d)))
    ∧ (∀ (chans : List ChanIn) (first count m : Nat), s.chip.runsOn d 1 = true → (s.chip.die d).cfe.stopped = false →
      (s.chip.die d).time.gapMask ≠ 0 → first = (s.chip.die d).time.gapFrom.toNat → count = s.chip.stroke d - first → 0 < count →
      m = Chip.gapClasses first count &&& ((s.chip.die d).time.gapMask ||| (s.chip.die d).cfe.streamNow.toNat % 8) → m ≠ 0 →
      s.chip.bit d ULK_STROKE_HI ULK_STROKE_HI.VALID = true → s.chip.streamLevel d + 34 ≤ 2048 →
      ∃ t, exec (.cfeLatch d chans) s = .next t ∧ (t.chip.die d).time.gapMask = 0
        ∧ ∃ f, (t.chip.die d).ring.queue = (s.chip.die d).ring.queue ++ [f] ∧ f.ftype = 4
          ∧ f.payload = Chip.streamHeader 4 0 (s.chip.dieFlags d) first 0 0 0 ++ leBytes 4 (min count 0xFFFFFFFF)
            ++ leBytes 1 1 ++ leBytes 1 m)
  )

/-- R104, R105: a request for a single-wire test of a wire that the die has, or for an all-wire test, waits when no other one does, and is
dropped and marked otherwise.
An all-wire test waits with OD_CUR as it stands at the request, which is the model's choice (log entry 127).
Rests on choices of the model: log entries 47 and 127. -/
def Obligations.OpenWireRequestsWaitOrAreDropped : Prop :=
∀ (d : Die) (s : State), s.Inv → s.chip.on d 1 = true →
    (∀ (i : Instr) (t0 : OwdTest), (∃ k cur pol, i = .owdSingleWireRequest d k cur pol ∧ k ≤ s.chip.cells d
          ∧ t0 = ⟨false, false, false, k, cur, pol, 0, false⟩)
        ∨ (i = .owdAllWireRequest d ∧ t0 = ⟨true, false, false, 0, s.chip.bit d OWD_CONFIG OWD_CONFIG.OD_CUR, false, 0, false⟩) →
      ((s.chip.die d).owd.queue = [] → ∃ t, exec i s = .next t ∧ (t.chip.die d).owd.queue = [t0]
        ∧ t.chip.bit d OWD_STATUS OWD_STATUS.QUEUED = true ∧ s.chip.sameRegsBut t.chip d [OWD_STATUS] ∧ s.chip.sameDiesBut t.chip d)
      ∧ ((s.chip.die d).owd.queue ≠ [] → ∃ t, exec i s = .next t ∧ t.chip.bit d OWD_STATUS OWD_STATUS.DROPPED = true
        ∧ s.chip.sameRegsBut t.chip d [OWD_STATUS] ∧ t.chip.dies = s.chip.dies))

/-- R99, R102, R103, R94, R100: at a line boundary the test that comes next starts with this line as its line L; a page whose background
test has not started by line 192 skips it and counts; two lines after L the current goes on with its stage shown, and the shift it causes
is taken off; a spoilt test is abandoned, and waits for the next page to be retried unless it is the background's; a spoilt step stage ends
the test (R112).
Rests on choices of the model: log entries 45 and 47. -/
def Obligations.OpenWireTestsStartAndAreAbandoned : Prop :=
∀ (d : Die) (s : State), s.Inv → s.chip.runsOn d 1 = true → s.chip.stroke d % 4 = 0 →
    (∀ t0, s.chip.stepAsked d 5 = false → (s.chip.die d).cfe.stopped = false → (s.chip.die d).owd.test = none →
      (s.chip.die d).owd.step = none → s.chip.nextTest d = some t0 → (t0.all = true ∨ s.chip.spareFreeFor d = true) →
      ∃ t, exec (.openWireTestStart d) s = .next t ∧ (t.chip.die d).owd.test = some { t0 with line := s.chip.stroke d / 4 }
        ∧ t.chip.bit d OWD_STATUS OWD_STATUS.BUSY = true ∧ t.chip.get d OWD_STATUS OWD_STATUS.STAGE = (if t0.all then 6 else 1)
        ∧ s.chip.sameRegsBut t.chip d [OWD_STATUS, CFE_SPARE] ∧ s.chip.sameDiesBut t.chip d)
    ∧ (192 ≤ s.chip.stroke d / 4 % 256 → (s.chip.die d).owd.pageDone = false → s.chip.mode d FOL_MODENOW.OWD = false →
      s.chip.bit d OWD_CONFIG OWD_CONFIG.BG_EN = true → ∃ t, exec (.openWireSkipPage d) s = .next t
        ∧ t.chip.get d OWD_STATUS OWD_STATUS.SKIPCNT
          = min (s.chip.get d OWD_STATUS OWD_STATUS.SKIPCNT + 1) (2 ^ OWD_STATUS.SKIPCNT.w - 1)
        ∧ (t.chip.die d).owd.pageDone = true ∧ s.chip.sameRegsBut t.chip d [OWD_STATUS] ∧ s.chip.sameDiesBut t.chip d)
    ∧ (∀ t0, (s.chip.die d).owd.test = some t0 → t0.all = false → t0.judged = false → (s.chip.die d).owd.shift = [] →
      s.chip.stroke d / 4 = t0.line + 2 → ∃ t, exec (.openWireCurrentOn d) s = .next t
        ∧ t.chip.get d OWD_STATUS OWD_STATUS.STAGE = 3 ∧ (t.chip.die d).owd.shift = s.chip.wireShift d t0
        ∧ s.chip.sameRegsBut t.chip d [OWD_STATUS] ∧ s.chip.sameDiesBut t.chip d)
    ∧ (∀ t0, (s.chip.die d).owd.test = some t0 → (s.chip.die d).owd.spoilt = true → (s.chip.die d).owd.step = none →
      ∃ t, exec (.openWireAbandon d) s = .next t
      ∧ (t.chip.die d).owd.test = none ∧ (t.chip.die d).owd.shift = [] ∧ t.chip.bit d OWD_STATUS OWD_STATUS.BUSY = false
      ∧ (t0.bg = false → (t.chip.die d).owd.retryAt = some (s.chip.stroke d / 1024 + 1))
      ∧ s.chip.sameRegsBut t.chip d [OWD_STATUS, CFE_SPARE] ∧ s.chip.sameDiesBut t.chip d)
    ∧ ((s.chip.die d).owd.spoilt = true → (s.chip.die d).owd.step ≠ none → ∃ t, exec (.openWireAbandon d) s = .next t
      ∧ (t.chip.die d).owd.test = none ∧ (t.chip.die d).owd.step = none ∧ (t.chip.die d).owd.shift = []
      ∧ t.chip.bit d CXS_STATUS CXS_STATUS.STEPHOLD = false ∧ t.chip.bit d OWD_STATUS OWD_STATUS.BUSY = false
      ∧ s.chip.sameRegsBut t.chip d [OWD_STATUS, CXS_STATUS] ∧ s.chip.sameDiesBut t.chip d)

/-- R96, R101: a single-wire test is judged from line L + 6 on: OPEN where the ramp of its test value, of readings with their
corrections (R339), exceeds the limit or a cell of it is out of range, else HIGH where the path's resistance is above its limit, else GOOD; the current goes off, and the wire of an OPEN verdict
is marked.
R105, R108, R112: an all-wire test gives every wire its verdict from line L + 8 on and ends; a step stage ends after 8 lines, the
converters' hold with it, and gives the wire its resistance where no line of it was degraded and the bleed's
on-current, the mean of four on lines (log entry 158), was 100 mA or more; a deviating cell whose two wires have
their verdicts is classified by them and its pair test.
Rests on choices of the model: log entries 46, 128 and 158. -/
def Obligations.WireVerdictsAndClasses : Prop :=
  (
∀ (d : Die) (r : RampIn) (t0 : OwdTest) (s : State) (n : Nat) (x1 x4 : Int) (v : Nat), s.Inv → s.chip.runsOn d 1 = true →
    s.chip.stroke d % 4 = 0 → (s.chip.die d).owd.test = some t0 → t0.all = false → t0.judged = false → (s.chip.die d).owd.spoilt = false →
    t0.wire ≤ 16 →
    t0.line + 6 ≤ s.chip.stroke d / 4 → n = s.chip.cells d →
    x1 = Chip.testValue n t0.wire t0.down (fun c => s.chip.changeOf d c (at' r.base c) (at' r.l1 c)) →
    x4 = Chip.testValue n t0.wire t0.down (fun c => s.chip.changeOf d c (at' r.base c) (at' r.l4 c)) →
    v = (if (s.chip.get d OWD_THRESH OWD_THRESH.RAMP_TH : Int) * 1600000000 < x4 - x1 ∨ (∃ c ∈ Chip.testCells n t0.wire, r.range.getD c false = true) then 2
      else if 8000000 * (if t0.cur then 400 else 50) * (s.chip.get d OWD_THRESH OWD_THRESH.RPATH_MAX : Int) < 5 * x4 then 3 else 1) →
    ∃ t, exec (.openWireVerdict d r) s = .next t ∧ t.chip.get d (OWD_WIRE t0.wire) OWD_WIRE.VERDICT = v
      ∧ t.chip.get d (OWD_WIRE t0.wire) OWD_WIRE.AGE = 0 ∧ (t.chip.die d).owd.shift = []
      ∧ (t.chip.die d).owd.test = some { t0 with judged := true } ∧ t.chip.get d OWD_STATUS OWD_STATUS.STAGE = 4
      ∧ (v = 2 → t0.wire ∈ (t.chip.die d).owd.marked)
      ∧ s.chip.sameRegsBut t.chip d [OWD_WIRE t0.wire, OWD_LAST, OWD_STATUS, CFE_SPARE] ∧ s.chip.sameDiesBut t.chip d
  ) ∧ (
∀ (d : Die) (s : State), s.Inv → s.chip.runsOn d 1 = true →
    (∀ (r : RampIn) (t0 : OwdTest), s.chip.stroke d % 4 = 0 → (s.chip.die d).owd.test = some t0 → t0.all = true →
      (s.chip.die d).owd.spoilt = false → t0.line + 8 ≤ s.chip.stroke d / 4 → ∃ t, exec (.allWireVerdict d r) s = .next t
        ∧ (∀ k ≤ s.chip.cells d, t.chip.get d (OWD_WIRE k) OWD_WIRE.VERDICT
            = if k ∈ s.chip.openWires d ((s.chip.get d OWD_THRESH OWD_THRESH.RAMP_TH : Int) * (if t0.cur then 800 else 100)) r then 2 else 1)
        ∧ (t.chip.die d).owd.test = none ∧ t.chip.bit d OWD_STATUS OWD_STATUS.BUSY = false
        ∧ s.chip.sameRegsBut t.chip d (OWD_STATUS :: (List.range (s.chip.cells d + 1)).map OWD_WIRE) ∧ s.chip.sameDiesBut t.chip d)
    ∧ (∀ (p0 p1 p2 p3 : StepPair) (ion k c l : Nat), ion = (s.chip.die d).owd.stepIon → s.chip.stroke d % 4 = 0 → (s.chip.die d).owd.step = some (k, c, l) → k ≤ 16 →
      l + 8 ≤ s.chip.stroke d / 4 → ∃ t, exec (.stepStageEnd d p0 p1 p2 p3) s = .next t
        ∧ t.chip.bit d CXS_STATUS CXS_STATUS.STEPHOLD = false ∧ (t.chip.die d).owd.step = none ∧ (t.chip.die d).owd.test = none
        ∧ ((s.chip.die d).owd.spoilt = false → 400 ≤ ion → t.chip.get d (OWD_RWIRE k) OWD_RWIRE.RWIRE
            = (max 0 (min 65535 (s.chip.stepResult d k [p0, p1, p2, p3] ion))).toNat
          ∧ t.chip.bit d (OWD_RWIRE k) OWD_RWIRE.VALID = true
          ∧ (5000 < s.chip.stepResult d k [p0, p1, p2, p3] ion → t.chip.bit d (OWD_RWIRE k) OWD_RWIRE.LIMIT = true
              ∧ 49 + k ∈ (t.chip.die d).fcol.reports))
        ∧ ((s.chip.die d).owd.spoilt = true ∨ ion < 400 → t.chip.reg d (OWD_RWIRE k) = s.chip.reg d (OWD_RWIRE k))
        ∧ s.chip.sameRegsBut t.chip d [OWD_STATUS, CXS_STATUS, OWD_RWIRE k] ∧ s.chip.sameDiesBut t.chip d)
    ∧ (∀ (c : Fin 16) (holds : Bool) (a b : Nat), (s.chip.die d).owd.pairs.find? (fun p => p.1 == c.val) = some (c.val, holds, some a, some b) →
      ∃ t, exec (.deviationClassify d c) s = .next t
        ∧ t.chip.get d (if c.val < 8 then OWD_CLASS_LO else OWD_CLASS_HI) ⟨4 * (c.val % 8), 4⟩
          = (if holds then (if a = 2 ∨ b = 2 then 2 else 3) else (if a = 2 ∨ b = 2 then 4 else 1))
        ∧ (holds = true → a ≠ 2 → b ≠ 2 → 108 ∈ (t.chip.die d).fcol.reports)
        ∧ s.chip.sameRegsBut t.chip d [if c.val < 8 then OWD_CLASS_LO else OWD_CLASS_HI] ∧ s.chip.sameDiesBut t.chip d)
  )

/-- R173, R176, R180, R183, R187, R196: the stroke program ends with LAST not above PEAK and with each LIMERR bit telling whether the
output limits of its slot cross; a slot that is disabled leaves output 0 and no flags under the standard program; an enabled slot, neither
at rest nor frozen, whose RUN a custom program never executes (here one that begins with END) overruns: the output applied stays, its OVR
flags are set, its overrun counter counts, and its source is reported.
Rests on choices of the model: log entries 64 and 65. -/
def Obligations.StrokeProgramReportsItsSlots : Prop :=
∀ (d : Die) (stalls : List Stall) (s : State), s.Inv → s.chip.runsOn d 4 = true → (s.chip.die d).eng.cap.pos < 4096 →
    ∃ t, exec (.bceStrokeProgram d stalls) s = .next t
      ∧ t.chip.get d BCE_CYCLES BCE_CYCLES.LAST ≤ t.chip.get d BCE_CYCLES BCE_CYCLES.PEAK
      ∧ (∀ n < 4, t.chip.bit d BCE_STATUS ⟨BCE_STATUS.LIMERR.lo + n, 1⟩ = s.chip.limErr d n)
      ∧ (s.chip.nowGet d BCE_CTRL BCE_CTRL.PROG_EN = 0 → s.chip.entering d = false → (s.chip.die d).pwr.restart = [] →
          (∀ n < 4, s.chip.nowGet d (BCE_SLOT n) BCE_SLOT.EN = 0) →
          (∀ n < 4, (t.chip.slot d n).out = 0 ∧ t.chip.reg d (BCE_U n) = 0))
      ∧ (s.chip.nowGet d BCE_CTRL BCE_CTRL.PROG_EN = 1 → s.chip.engineRests d = false → (s.chip.now d (BCE_PROG 0)).toNat / 2 ^ 28 = 0 →
          ∀ n < 4, s.chip.slotKind d n = .active → (t.chip.slot d n).out = (s.chip.slot d n).applied
            ∧ t.chip.bit d BCE_STATUS ⟨BCE_STATUS.OVR.lo + n, 1⟩ = true ∧ s.chip.counted t.chip d BCE_OVRCNT ⟨8 * n, 8⟩
            ∧ t.chip.bit d (BCE_U n) BCE_U.OVR = true ∧ 120 + n ∈ (t.chip.die d).fcol.reports)
      ∧ s.chip.sameDiesBut t.chip d

/-- R190, R192: a profile generator that follows a current target takes one step of the S-curve toward the clamped target and shows its
rounded current as the set-point of the next stroke; one that runs a stop ramp moves toward zero by the larger of its acceleration limit
and a 32nd of the current it had; an idle one only clears its limit flag.
R198, R200, R201, R193: GO written to a generator of the host starts it and STOP stops it at the next stroke edge, STOP before GO and the last
write for both, and ARM starts a capture there, with the old settings in force until then; while the engine rests GO and ARM start
nothing (R394).
Rests on choices of the model: log entries 6 and 46. -/
def Obligations.ProfilesInjectionAndCapture : Prop :=
  (
∀ (d : Die) (n : Pair) (s : State) (x : PgenX) (amax jerk ilim want : Int), s.Inv → s.chip.runsOn d 4 = true → x = s.chip.pgen d n.val →
    n.val < (s.chip.die d).cxs.pgen.length →
    amax = max 1 (s.chip.nowGet d (PGEN_LIM n.val) PGEN_LIM.DIDT) * 163840 → jerk = s.chip.nowGet d (PGEN_LIM n.val) PGEN_LIM.JERK * 512000 →
    ilim = s.chip.get d (CXS_STATE n.val) CXS_STATE.ILIM_NOW * 65536 → want = s.chip.pgenTarget d n.val amax jerk →
    (s.chip.get d (PGEN_STAT n.val) PGEN_STAT.MODE = 1 → s.chip.bit d CXS_STATUS CXS_STATUS.STEPHOLD = false →
      ∃ t, exec (.pgenStep d) s = .next t
        ∧ ((t.chip.pgen d n.val).i, (t.chip.pgen d n.val).a) = Chip.pgenCurve x.i x.a (max (-ilim) (min want ilim)) amax jerk
        ∧ (t.chip.pgen d n.val).next = sat16 (roundDiv (t.chip.pgen d n.val).i 65536)
        ∧ t.chip.bit d (PGEN_STAT n.val) PGEN_STAT.ILIMIT = decide (max (-ilim) (min want ilim) ≠ want)
        ∧ s.chip.sameRegsBut t.chip d [PGEN_STAT 0, PGEN_STAT 1, PGEN_ACC 0, PGEN_ACC 1] ∧ s.chip.sameDiesBut t.chip d)
    ∧ (s.chip.get d (PGEN_STAT n.val) PGEN_STAT.MODE = 3 → 0 < x.i → ∃ t, exec (.pgenStep d) s = .next t
        ∧ (t.chip.pgen d n.val).i = max 0 (x.i - max amax (x.i0.natAbs / 32 : Nat)) ∧ (t.chip.pgen d n.val).a = 0)
    ∧ (s.chip.get d (PGEN_STAT n.val) PGEN_STAT.MODE = 0 → ∃ t, exec (.pgenStep d) s = .next t ∧ t.chip.pgen d n.val = x
        ∧ t.chip.bit d (PGEN_STAT n.val) PGEN_STAT.ILIMIT = false)
  ) ∧ (
∀ (d : Die) (s : State), s.Inv → s.chip.on d 4 = true →
    (∀ (n : Fin 4) (w : Word), s.chip.bit d (INJ_STAT n.val) INJ_STAT.OWNER = false →
      (s.chip.engineRests d = false → ∃ t, exec (.injGo d n w) s = .next t ∧ (∃ g, (t.chip.die d).eng.gens = (s.chip.die d).eng.gens.set n.val g
          ∧ g.go = (INJ_CFG.STOP.read w == 0) ∧ g.stop = (INJ_CFG.STOP.read w == 1))
        ∧ (INJ_CFG.MODE.read w < 4 → t.chip.get d (INJ_CFG n.val) INJ_CFG.MODE = INJ_CFG.MODE.read w)
        ∧ t.chip.now d (INJ_CFG n.val) = s.chip.now d (INJ_CFG n.val)
        ∧ s.chip.sameRegsBut t.chip d [INJ_CFG n.val] ∧ s.chip.sameDiesBut t.chip d)
      ∧ (∃ t, exec (.injStop d n w) s = .next t ∧ (∃ g, (t.chip.die d).eng.gens = (s.chip.die d).eng.gens.set n.val g
        ∧ g.go = false ∧ g.stop = true) ∧ s.chip.sameRegsBut t.chip d [INJ_CFG n.val] ∧ s.chip.sameDiesBut t.chip d))
    ∧ (∀ (n : Fin 4) (w : Word) (g : GenX), s.chip.bit d (INJ_STAT n.val) INJ_STAT.OWNER = false → s.chip.engineRests d = true →
      INJ_CFG.STOP.read w = 0 → (s.chip.die d).eng.gens[n.val]? = some g → ∃ t, exec (.injGo d n w) s = .next t
        ∧ (t.chip.die d).eng.gens[n.val]? = some g)
    ∧ (∀ w : Word, ∃ t, exec (.captureArm d w) s = .next t ∧ t.chip.reg d INJ_CAPCFG = w &&& 0x0FFFFFFF
      ∧ t.chip.now d INJ_CAPCFG = s.chip.now d INJ_CAPCFG
      ∧ (t.chip.die d).eng.cap = { (s.chip.die d).eng.cap with start := (s.chip.die d).eng.cap.start || !(s.chip.engineRests d) }
      ∧ s.chip.sameRegsBut t.chip d [INJ_CAPCFG] ∧ s.chip.sameDiesBut t.chip d)
  )

/-- R153, R154: at a line boundary a free channel that wants a cell takes it, or is refused with the reason that R154 gives; only the
registers of the selection change. A channel that may take none, or wants a cell that is not connected, waits.
Rests on a choice of the model: log entry 62. -/
def Obligations.SelectionTakesOrRefusesTheWantedCell : Prop :=
∀ (d : Die) (n : Pair) (k owner dir : Nat) (s : State), s.Inv → (s.chip.chan d n.val).want = some (k, owner, dir) → k < 16 → owner < 4 → dir < 2 →
    s.chip.runsOn d 3 = true → s.chip.stroke d % 4 = 0 →
    (s.chip.mayTake d n.val = false ∨ s.chip.cells d ≤ k → exec (.selectionChange d n) s = .next s)
    ∧ (s.chip.selected d n.val = none → s.chip.chanFree d n.val = true → s.chip.noAssign d = false → s.chip.stepHeld d = false →
      s.chip.senseHolds d n.val = false → s.chip.bit d (CXS_CFG n.val) CXS_CFG.EN = true → k < s.chip.cells d →
      (s.chip.refusal d n.val k = none → ∃ t, exec (.selectionChange d n) s = .next t ∧ t.chip.selected d n.val = some k
        ∧ t.chip.get d (CXS_SEL n.val) CXS_SEL.OWNER = owner ∧ t.chip.bit d (CXS_SEL n.val) CXS_SEL.PENDING = true
        ∧ t.chip.get d (CXS_STATE n.val) CXS_STATE.DUTY = 0
        ∧ s.chip.sameRegsBut t.chip d [CXS_SEL n.val, CXS_STATE n.val, PGEN_STAT n.val, PGEN_ACC n.val, CXS_QSTAT k]
        ∧ s.chip.sameDiesBut t.chip d)
      ∧ (∀ why, s.chip.refusal d n.val k = some why → ∃ t, exec (.selectionChange d n) s = .next t
        ∧ t.chip.get d (CXS_SEL n.val) CXS_SEL.REFUSE = why ∧ t.chip.selected d n.val = none ∧ (t.chip.chan d n.val).want = none
        ∧ s.chip.sameRegsBut t.chip d [CXS_SEL n.val] ∧ s.chip.sameDiesBut t.chip d))

/-- R167, R150, R157: a channel whose stop ramp has come to rest is deselected at the line boundary; the peak comparator is noted for the
stroke while the channel switches; an overcurrent of a bleed switch that conducts turns it off for the line, sets OC and reports source 116.
R163, R168, R192: a write of a connected cell's remaining charge waits for the next stroke edge; EN = 0 written to an enabled channel
that has a cell starts its stop ramp with STOPCAUSE 1, except where the converters are held at zero; EN = 1 is taken and leaves STOPCAUSE;
in a die whose balancing is retired EN stays 0.
Rests on a choice of the model: log entry 60. -/
def Obligations.StageRampsBleedsAndWrites : Prop :=
  (
∀ (d : Die) (s : State), s.Inv → s.chip.runsOn d 3 = true →
    (∀ n : Pair, s.chip.stroke d % 4 = 0 → (s.chip.chan d n.val).stopping = true → s.chip.chanFree d n.val = true →
      ∃ t, exec (.stopRampComplete d n) s = .next t ∧ t.chip.selected d n.val = none ∧ t.chip.get d (CXS_STATE n.val) CXS_STATE.DUTY = 0
        ∧ t.chip.get d (PGEN_STAT n.val) PGEN_STAT.MODE = 0 ∧ s.chip.sameDiesBut t.chip d)
    ∧ (∀ n : Pair, s.chip.get d (CXS_STATE n.val) CXS_STATE.DUTY ≠ 0 → ∃ t, exec (.peakLimit d n) s = .next t
      ∧ (t.chip.die d).cxs.chans = (s.chip.die d).cxs.chans.set n.val { s.chip.chan d n.val with peak := true }
      ∧ s.chip.sameRegs t.chip ∧ s.chip.sameDiesBut t.chip d)
    ∧ (∀ c : Fin 16, (s.chip.die d).cxs.applied.getD c.val 0 ≠ 0 → ((s.chip.die d).cxs.cutAt.any (·.1 == c.val)) = false →
      ∃ t, exec (.bleedOvercurrent d c) s = .next t ∧ t.chip.bit d (CXS_BLEED c.val) CXS_BLEED.OC = true
        ∧ 116 ∈ (t.chip.die d).fcol.reports ∧ c.val ∈ (t.chip.die d).cxs.ocHeld
        ∧ (t.chip.die d).cxs.cutAt.any (·.1 == c.val) = true
        ∧ s.chip.sameRegsBut t.chip d [CXS_BLEED c.val] ∧ s.chip.sameDiesBut t.chip d)
  ) ∧ (
∀ (d : Die) (w : Word) (s : State), s.Inv → s.chip.on d 3 = true →
    (∀ c : Fin 16, c.val < s.chip.cells d → ∃ t, exec (.cxsQtgtWrite d c w) s = .next t
      ∧ (t.chip.die d).cxs.qPend = (s.chip.die d).cxs.qPend.filter (fun p => p.1 != c.val) ++ [(c.val, toSigned w.toNat 32)]
      ∧ s.chip.sameRegs t.chip ∧ s.chip.sameDiesBut t.chip d)
    ∧ (∀ n : Pair, s.chip.bit d CXS_STATUS CXS_STATUS.RETIRED = false → CXS_CFG.EN.read w = 0 →
      s.chip.bit d (CXS_CFG n.val) CXS_CFG.EN = true → s.chip.selected d n.val ≠ none → s.chip.heldAtZero d = false →
      (s.chip.chan d n.val).stopping = false → s.chip.get d (CXS_STATE n.val) CXS_STATE.STOPCAUSE ≠ 6 → ∃ t, exec (.cxsEnWrite d n w) s = .next t
        ∧ t.chip.bit d (CXS_CFG n.val) CXS_CFG.EN = false ∧ t.chip.get d (CXS_CFG n.val) CXS_CFG.ILIM = CXS_CFG.ILIM.read w
        ∧ t.chip.get d (CXS_STATE n.val) CXS_STATE.STOPCAUSE = 1 ∧ t.chip.bit d (CXS_SEL n.val) CXS_SEL.RAMP = true
        ∧ t.chip.get d (PGEN_STAT n.val) PGEN_STAT.MODE = 3
        ∧ s.chip.sameRegsBut t.chip d [CXS_CFG n.val, CXS_STATE n.val, CXS_SEL n.val, PGEN_STAT n.val] ∧ s.chip.sameDiesBut t.chip d)
    ∧ (∀ n : Pair, s.chip.bit d CXS_STATUS CXS_STATUS.RETIRED = false → CXS_CFG.EN.read w = 1 →
      ∃ t, exec (.cxsEnWrite d n w) s = .next t ∧ t.chip.bit d (CXS_CFG n.val) CXS_CFG.EN = true
        ∧ t.chip.get d (CXS_CFG n.val) CXS_CFG.ILIM = CXS_CFG.ILIM.read w
        ∧ s.chip.sameRegsBut t.chip d [CXS_CFG n.val] ∧ t.chip.dies = s.chip.dies)
    ∧ (∀ n : Pair, s.chip.bit d CXS_STATUS CXS_STATUS.RETIRED = true → ∃ t, exec (.cxsEnWrite d n w) s = .next t
        ∧ t.chip.bit d (CXS_CFG n.val) CXS_CFG.EN = false ∧ s.chip.sameRegsBut t.chip d [CXS_CFG n.val] ∧ t.chip.dies = s.chip.dies)
  )

/-- R123, R142: GO that nothing refuses makes the sweeper wait for its channel with the plan, the cell (0 for the passive sweeper) and bin 0,
and its passes counted from PASSES (0 without end); a refused one leaves its reason in LASTERR, and in REFUSE where the selection rules
are the reason (R154); STOP marks a running sweeper to end at the
next stroke edge.
Rests on choices of the model: log entries 53 and 56. -/
def Obligations.SweepersStartAreRefusedAndStop : Prop :=
∀ (d : Die) (sw : Nat) (s : State), s.Inv → s.chip.on d 1 = true → sw < 3 →
    (∀ p k q : Nat, p < 4 → k < 16 → q < 256 →
      (s.chip.sweepRefusal d sw p k = none → ∃ t, exec (.eisCmdGo d sw p k q) s = .next t
        ∧ t.chip.get d (EIS_STATUS sw) EIS_STATUS.STATE = 1 ∧ t.chip.get d (EIS_STATUS sw) EIS_STATUS.PLAN = p
        ∧ t.chip.get d (EIS_STATUS sw) EIS_STATUS.CELL = (if sw = 2 then 0 else k) ∧ t.chip.get d (EIS_STATUS sw) EIS_STATUS.BIN = 0
        ∧ (t.chip.die d).eis.sweeps
          = (s.chip.die d).eis.sweeps.set sw { SweepX.reset with passes := if q = 0 then none else some q }
        ∧ (sw = 2 → s.chip.sameRegsBut t.chip d [EIS_STATUS sw])
        ∧ (sw < 2 → s.chip.sameRegsBut t.chip d [EIS_STATUS sw, CXS_SEL sw, PGEN_STAT sw]) ∧ s.chip.sameDiesBut t.chip d)
      ∧ (∀ st e, s.chip.sweepRefusal d sw p k = some (st, e) → ∃ t, exec (.eisCmdGo d sw p k q) s = .next t
        ∧ t.chip.get d (EIS_STATUS sw) EIS_STATUS.LASTERR = e ∧ (e = 5 → t.chip.get d (CXS_SEL sw) CXS_SEL.REFUSE = 3)
        ∧ (e = 4 → t.chip.get d (CXS_SEL sw) CXS_SEL.REFUSE = (if s.chip.selected d (1 - sw) = some k then 2 else 1))
        ∧ s.chip.sameRegsBut t.chip d [EIS_STATUS sw, CXS_SEL sw] ∧ t.chip.dies = s.chip.dies))
    ∧ (s.chip.swState d sw ≠ 0 → ∃ t, exec (.eisCmdStop d sw) s = .next t
      ∧ (t.chip.die d).eis.sweeps = (s.chip.die d).eis.sweeps.set sw { s.chip.sweep d sw with stopDue := true }
      ∧ s.chip.sameRegs t.chip ∧ s.chip.sameDiesBut t.chip d)

/-- R139, R199, R126: at a line boundary a waiting active sweeper whose channel is free takes it with its cell and the injection
generator, whose RUNNING shows the sine (R202), and starts its first bin, in SETTLE, or in REST where the bin exceeds the current limit or the di/dt limit; a selection that
the rules refuse leaves its reason (R154).
R125, R129, R130: a bin's window opens at its stroke, the passive sweeper's first one at a line boundary; at its end an active bin's
sine stops and the sweeper rests; then the next bin follows, in SETTLE, in REST or in the
thermal pause as the first, or the sweep ends with LASTERR 0 after the last one of the last pass.
Rests on a choice of the model: log entry 56. -/
def Obligations.SweepsAreGrantedAndRunTheirBins : Prop :=
  (
∀ (d : Die) (n : Pair) (s : State) (k p b : Nat), s.Inv → k = s.chip.swCell d n.val → p = s.chip.swPlan d n.val →
    b = s.chip.swBin d n.val → s.chip.runsOn d 3 = true → s.chip.stroke d % 4 = 0 → s.chip.swState d n.val = 1 →
    s.chip.selected d n.val = none → s.chip.chanFree d n.val = true → s.chip.bit d (CXS_CFG n.val) CXS_CFG.EN = true →
    s.chip.noAssign d = false → s.chip.stepHeld d = false → s.chip.senseHolds d n.val = false → s.chip.bit d THM_STAT THM_STAT.SWPAUSE = false →
    (s.chip.bit d EIS_SCHED ⟨n.val, 1⟩ = true ∨ (s.chip.chan d n.val).want = none) →
    (s.chip.refusal d n.val k = none →
      ∃ t, exec (.eisChannelGrant d n) s = .next t ∧ t.chip.selected d n.val = some k ∧ t.chip.get d (CXS_SEL n.val) CXS_SEL.OWNER = 3
        ∧ t.chip.bit d (INJ_STAT n.val) INJ_STAT.OWNER = true
        ∧ t.chip.swState d n.val = (if s.chip.presentLimit d n.val < 8 * s.chip.binAmp d p b ∨ s.chip.tooSteep d n.val p b = true then 4 else 2)
        ∧ (t.chip.swState d n.val = 2 → t.chip.bit d (INJ_STAT n.val) INJ_STAT.RUNNING = true)
        ∧ s.chip.sameDiesBut t.chip d)
    ∧ (∀ why, s.chip.refusal d n.val k = some why → ∃ t, exec (.eisChannelGrant d n) s = .next t
        ∧ t.chip.get d (CXS_SEL n.val) CXS_SEL.REFUSE = why ∧ t.chip.swState d n.val = 1
        ∧ s.chip.sameRegsBut t.chip d [CXS_SEL n.val] ∧ t.chip.dies = s.chip.dies)
  ) ∧ (
∀ (d : Die) (s : State), s.Inv → s.chip.runsOn d 1 = true →
    (∀ sw : Fin 3, s.chip.degraded d = false →
      (sw.val = 2 ∧ s.chip.swState d 2 = 1 ∧ s.chip.stroke d % 4 = 0)
        ∨ (sw.val < 2 ∧ s.chip.swState d sw.val = 2 ∧ (s.chip.sweep d sw.val).opens ≤ s.chip.stroke d) →
      ∃ t, exec (.eisWindowOpen d sw) s = .next t ∧ t.chip.swState d sw.val = 3
        ∧ (t.chip.die d).eis.wins.length = (s.chip.die d).eis.wins.length + 1
        ∧ s.chip.sameRegsBut t.chip d [EIS_STATUS sw.val] ∧ s.chip.sameDiesBut t.chip d)
    ∧ (∀ n : Pair, s.chip.runsOn d 3 = true → s.chip.swState d n.val = 3 → (s.chip.sweep d n.val).ends ≤ s.chip.stroke d →
      ∃ t, exec (.eisInjectionEnd d n) s = .next t ∧ t.chip.swState d n.val = 4 ∧ t.chip.get d (INJ_STAT n.val) INJ_STAT.OUT = 0
        ∧ s.chip.sameRegsBut t.chip d [EIS_STATUS n.val, INJ_STAT n.val] ∧ s.chip.sameDiesBut t.chip d)
    ∧ (∀ sw : Fin 3, s.chip.stroke d % 4 = 0 → s.chip.degraded d = false → (s.chip.sweep d sw.val).restAt ≤ s.chip.stroke d →
      s.chip.swState d sw.val = 4 →
      ((s.chip.nextBin d sw.val).1 = none → ∃ t, exec (.eisNextBin d sw) s = .next t ∧ t.chip.swState d sw.val = 0
        ∧ t.chip.get d (EIS_STATUS sw.val) EIS_STATUS.LASTERR = 0 ∧ s.chip.sameDiesBut t.chip d)
      ∧ (∀ b < 32, (s.chip.nextBin d sw.val).1 = some b → sw.val = 2 → ∃ t, exec (.eisNextBin d sw) s = .next t
        ∧ t.chip.swBin d 2 = b ∧ t.chip.swState d 2 = 3 ∧ s.chip.sameRegsBut t.chip d [EIS_STATUS 2] ∧ s.chip.sameDiesBut t.chip d)
      ∧ (∀ b < 32, (s.chip.nextBin d sw.val).1 = some b → sw.val < 2 → (s.chip.chan d sw.val).want = none →
        s.chip.bit d THM_STAT THM_STAT.SWPAUSE = true → ∃ t, exec (.eisNextBin d sw) s = .next t ∧ t.chip.swBin d sw.val = b
          ∧ t.chip.swState d sw.val = 5 ∧ s.chip.sameRegsBut t.chip d [EIS_STATUS sw.val] ∧ s.chip.sameDiesBut t.chip d)
      ∧ (∀ b c p, b < 32 → (s.chip.nextBin d sw.val).1 = some b → sw.val < 2 → c = s.chip.swCell d sw.val → p = s.chip.swPlan d sw.val →
        (s.chip.bit d EIS_SCHED ⟨sw.val, 1⟩ = true ∨ (s.chip.chan d sw.val).want = none) → s.chip.bit d THM_STAT THM_STAT.SWPAUSE = false →
        ∃ t, exec (.eisNextBin d sw) s = .next t ∧ t.chip.swBin d sw.val = b
          ∧ t.chip.swState d sw.val = (if s.chip.presentLimit d sw.val < 8 * s.chip.binAmp d p b ∨ s.chip.tooSteep d sw.val p b = true then 4 else 2)
          ∧ (t.chip.swState d sw.val = 2 → t.chip.bit d (INJ_STAT sw.val) INJ_STAT.RUNNING = true
              ∧ t.chip.get d (INJ_AMP sw.val) INJ_AMP.AMP = 8 * s.chip.binAmp d p b)
          ∧ s.chip.sameRegsBut t.chip d [EIS_STATUS sw.val, INJ_STAT sw.val, INJ_AMP sw.val, EIS_RES_R c p b, EIS_RES_X c p b,
              EIS_RES_INFO c p b, EIS_RES_END c p b]
          ∧ s.chip.sameDiesBut t.chip d))
  )

/-- R130, R132, R135, R137, R139: the stroke three before is correlated; with no window open nothing but the history changes; where the
engine did not finish, the overrun is shown and source 125 reported; a window of one cell that ends takes its result with the status that
R135 gives, R and X in their range or no value, and the stroke where it ended; and a sweeper that waits longer than WAIT pages for its channel ends with LASTERR 6.
Rests on choices of the model: log entries 7, 54 and 57. -/
def Obligations.CorrelationResultsAndWaits : Prop :=
∀ (d : Die) (s : State), s.Inv → s.chip.runsOn d 1 = true →
    (3 ≤ s.chip.stroke d → (s.chip.die d).eis.wins = [] → ∃ t, exec (.eisCorrelate d true) s = .next t ∧ s.chip.sameRegs t.chip
      ∧ (t.chip.die d).eis.wins = [] ∧ s.chip.sameDiesBut t.chip d)
    ∧ (3 ≤ s.chip.stroke d → ∃ t, exec (.eisCorrelate d false) s = .next t ∧ t.chip.bit d EIS_OVR EIS_OVR.OVR = true
      ∧ 125 ∈ (t.chip.die d).fcol.reports)
    ∧ (∀ (w v : WinX) (c : Nat), 3 ≤ s.chip.stroke d → (s.chip.die d).eis.wins = [w] → w.cells = [c] → c < 16 → w.plan < 4 → w.bin < 32 →
      w.opens ≤ s.chip.stroke d - 3 → w.ends = s.chip.stroke d - 2 → w.next = s.chip.stroke d - 3 →
      s.chip.bit d EIS_ZT_CFG EIS_ZT_CFG.EN = false →
      v = s.chip.correlate d (s.chip.stroke d - 3) ((s.chip.die d).eis.hist.take 3 |>.find? fun h => h.stroke == s.chip.stroke d - 3) w →
      ∃ t, exec (.eisCorrelate d true) s = .next t ∧ (t.chip.die d).eis.wins = []
        ∧ (∀ st cur z, cur = Chip.windowCurrent v →
            st = s.chip.windowStatus d v (v.flags.getD c 0) (eisZero cur w.n) →
            z = eisParts w.host (v.volts.getD 0 EisSum.zero) cur
              (s.chip.fineResponse d w.k w.n) w.k w.n →
          t.chip.get d (EIS_RES_INFO c w.plan w.bin) EIS_RES_INFO.STATUS = st
            ∧ t.chip.reg d (EIS_RES_R c w.plan w.bin)
              = (if st = 1 ∨ st = 0xC then BitVec.ofInt 32 (max (-0x7FFFFFFF) (min 0x7FFFFFFF z.1)) else 0x80000000#32)
            ∧ t.chip.reg d (EIS_RES_X c w.plan w.bin)
              = (if st = 1 ∨ st = 0xC then BitVec.ofInt 32 (max (-0x7FFFFFFF) (min 0x7FFFFFFF z.2)) else 0x80000000#32))
        ∧ t.chip.reg d (EIS_RES_END c w.plan w.bin) = BitVec.ofNat 32 (s.chip.stroke d - 3)
        ∧ s.chip.sameRegsBut t.chip d
          [EIS_RES_R c w.plan w.bin, EIS_RES_X c w.plan w.bin, EIS_RES_INFO c w.plan w.bin, EIS_RES_END c w.plan w.bin])
    ∧ (∀ n : Pair, s.chip.swState d n.val = 1 → s.chip.get d EIS_SCHED EIS_SCHED.WAIT ≠ 0 →
      s.chip.get d EIS_SCHED EIS_SCHED.WAIT < (s.chip.sweep d n.val).waited → ∃ t, exec (.eisWaitTimeout d n) s = .next t
        ∧ t.chip.swState d n.val = 0 ∧ t.chip.get d (EIS_STATUS n.val) EIS_STATUS.LASTERR = 6)

/-- R318, R322, R324: the evaluation of a line takes the five readings and makes the governing temperature the largest value in use; the
level is the one that R324's confirmation gives from it.
Rests on choices of the model: log entries 66 and 67. -/
def Obligations.ThermalEvaluationGivesLevel : Prop :=
∀ (d : Die) (rs : List Int) (mw : Nat) (s : State), s.Inv → s.chip.runs d = true → s.chip.stroke d % 4 = 3 →
    ∃ t, exec (.thmEvaluation d rs mw) s = .next t
      ∧ (∀ i < 5, t.chip.get d (THM_SENS i) THM_SENS.READING = ofSigned (satSigned (rs.getD i 0) THM_SENS.READING.w) THM_SENS.READING.w)
      ∧ (∀ i < 5, t.chip.getI d (THM_SENS i) THM_SENS.INUSE ≤ t.chip.getI d THM_STAT THM_STAT.TG)
      ∧ (∃ i < 5, t.chip.getI d (THM_SENS i) THM_SENS.INUSE = t.chip.getI d THM_STAT THM_STAT.TG)
      ∧ t.chip.get d THM_STAT THM_STAT.LEVEL
        = (LevelEval.step ⟨s.chip.get d THM_STAT THM_STAT.LEVEL, (s.chip.die d).thm.dir, (s.chip.die d).thm.run, (s.chip.die d).thm.ext⟩
            (t.chip.getI d THM_STAT THM_STAT.TG)).cur % 8

/-- R329, R331, R325: an orderly stop reaches HOLD, with every bleed off, once both channels are deselected; a comparator that trips
unmasked cuts at once, with the record of where and when; the release of the last one ends CUT alone.
R330, R321, R325: HOLDCLR is accepted while HOLD stands and nothing blocks it; EXCL written to an EXCLUDED sensor readmits it at the
next line boundary; a write of THM_CFG that masks the comparator of a sensor that is not EXCLUDED changes nothing, another one is taken.
Rests on choices of the model: log entries 63 and 68. -/
def Obligations.HoldsCutsAndThermalWrites : Prop :=
  (
∀ (d : Die) (s : State), s.Inv →
    (s.chip.runs d = true → s.chip.stroke d % 4 = 0 → s.chip.bit d CXS_STATUS CXS_STATUS.THOLD = true →
      s.chip.bit d THM_STAT THM_STAT.HOLD = false → s.chip.selected d 0 = none → s.chip.selected d 1 = none →
      ∃ t, exec (.thermalHoldSet d) s = .next t ∧ t.chip.bit d THM_STAT THM_STAT.HOLD = true
        ∧ t.chip.get d CXS_STATUS CXS_STATUS.BLEEDING = 0 ∧ (t.chip.die d).cxs.applied = List.replicate 16 0
        ∧ s.chip.sameRegsBut t.chip d (THM_STAT :: CXS_STATUS :: (List.range 16).map CXS_BLEED) ∧ s.chip.sameDiesBut t.chip d)
    ∧ (∀ i : Fin 5, s.chip.fitted d = true → s.chip.on d 0 = true → i.val ∉ (s.chip.die d).thm.cuts →
      (s.chip.get d THM_CFG THM_CFG.CUTMASK).testBit i.val = false → s.chip.bit d THM_STAT THM_STAT.CUT = false →
      ∃ t, exec (.cutTrip d i) s = .next t ∧ t.chip.bit d THM_STAT THM_STAT.CUT = true ∧ t.chip.bit d THM_STAT THM_STAT.CUTSEEN = true
        ∧ t.chip.bit d CXS_STATUS CXS_STATUS.CUT = true ∧ t.chip.get d THM_STOPAT THM_STOPAT.AT = s.chip.stroke d % 2 ^ 32
        ∧ t.chip.bit d THM_STOPREC THM_STOPREC.CUT = true ∧ i.val ∈ (t.chip.die d).thm.cuts ∧ (t.chip.die d).cxs.holdDue = true)
    ∧ (∀ i : Fin 5, s.chip.fitted d = true → s.chip.on d 0 = true → (∀ k ∈ (s.chip.die d).thm.cuts, k = i.val) →
      ∃ t, exec (.cutRelease d i) s = .next t ∧ t.chip.bit d THM_STAT THM_STAT.CUT = false ∧ (t.chip.die d).thm.cuts = []
        ∧ s.chip.sameRegsBut t.chip d [THM_STAT] ∧ s.chip.sameDiesBut t.chip d)
  ) ∧ (
∀ (d : Die) (s : State), s.Inv → s.chip.on d 0 = true →
    (s.chip.bit d THM_STAT THM_STAT.HOLD = true → s.chip.holdBlocker d = none → ∃ t, exec (.holdclr d) s = .next t
      ∧ (t.chip.die d).cxs.holdClr = true ∧ s.chip.sameRegs t.chip ∧ s.chip.sameDiesBut t.chip d)
    ∧ (∀ i : Fin 5, s.chip.get d (THM_SEST i.val) THM_SEST.STATE = 2 → ∃ t, exec (.sensorExclClear d i) s = .next t
      ∧ i.val ∈ (t.chip.die d).thm.exclClr ∧ s.chip.sameRegs t.chip ∧ s.chip.sameDiesBut t.chip d)
    ∧ (∀ w : Word, (∀ i < 5, (THM_CFG.CUTMASK.read w).testBit i = true → s.chip.get d (THM_SEST i) THM_SEST.STATE = 2) →
      ∃ t, exec (.cutmaskWrite d w) s = .next t ∧ t.chip.reg d THM_CFG = w &&& 0x001F0FFF)
    ∧ (∀ (w : Word) (i : Nat), i < 5 → (THM_CFG.CUTMASK.read w).testBit i = true → s.chip.get d (THM_SEST i) THM_SEST.STATE ≠ 2 →
      exec (.cutmaskWrite d w) s = .next s)
  )

/-- R353, R352, R344: a pending pass starts at a line boundary with its cause, W of CAL_CFG and T_die, and brings CAL_CFG into force
(R355); CAL_GO makes a pass pending with
cause 3, or is merged; CAL_ABORT abandons the pass that runs and the pending one; FBCLR clears FALLBACK while |DIS| ≤ 300.
Rests on choices of the model: log entries 69 and 71. -/
def Obligations.CalibrationPassesStartMergeAndAbort : Prop :=
∀ (d : Die) (s : State), s.Inv →
    (s.chip.runsOn d 8 = true → s.chip.stroke d % 4 = 0 → s.chip.entering d = false → (s.chip.die d).cal.service = false →
      (s.chip.die d).cal.pass = none → s.chip.get d CAL_STAT CAL_STAT.STATE ≠ 4 → s.chip.bit d CAL_STAT CAL_STAT.PENDING = true →
      s.chip.isolated d 160 = false → ∃ t, exec (.calPassStart d) s = .next t
        ∧ t.chip.bit d CAL_STAT CAL_STAT.PENDING = false ∧ t.chip.get d CAL_STAT CAL_STAT.STATE = 1
        ∧ t.chip.get d CAL_STAT CAL_STAT.ITEM = 31
        ∧ (∃ p, (t.chip.die d).cal.pass = some p ∧ p.cause = (s.chip.die d).cal.pendCause
            ∧ p.window = windowLines (s.chip.get d CAL_CFG CAL_CFG.WIN) ∧ p.tref = s.chip.get d THM_TDIE THM_TDIE.TDIE
            ∧ p.running = [] ∧ p.accepted = [] ∧ (t.chip.die d).cal.cfgNow = s.chip.reg d CAL_CFG
            ∧ p.items = (16 :: List.range (min 16 (s.chip.cells d)) ++ [17]).filter fun c => !(s.chip.calSkips d c))
        ∧ s.chip.sameRegsBut t.chip d [CAL_STAT] ∧ s.chip.sameDiesBut t.chip d)
    ∧ (s.chip.on d 8 = true →
      (s.chip.bit d CAL_STAT CAL_STAT.PENDING = false → ∃ t, exec (.calGo d) s = .next t
        ∧ t.chip.bit d CAL_STAT CAL_STAT.PENDING = true ∧ (t.chip.die d).cal.pendCause = 3
        ∧ s.chip.sameRegsBut t.chip d [CAL_STAT] ∧ s.chip.sameDiesBut t.chip d)
      ∧ (s.chip.bit d CAL_STAT CAL_STAT.PENDING = true → ∃ t, exec (.calGo d) s = .next t
        ∧ t.chip.get d CAL_STAT CAL_STAT.MERGED = min (s.chip.get d CAL_STAT CAL_STAT.MERGED + 1) 255
        ∧ s.chip.sameRegsBut t.chip d [CAL_STAT] ∧ t.chip.dies = s.chip.dies)
      ∧ ((s.chip.die d).cal.pass = none → ∃ t, exec (.calAbort d) s = .next t
        ∧ t.chip.bit d CAL_STAT CAL_STAT.PENDING = false
        ∧ s.chip.sameRegsBut t.chip d [CAL_STAT] ∧ t.chip.dies = s.chip.dies)
      ∧ (∀ p, (s.chip.die d).cal.pass = some p → ∃ t, exec (.calAbort d) s = .next t
        ∧ t.chip.bit d CAL_STAT CAL_STAT.PENDING = false ∧ t.chip.get d CAL_STAT CAL_STAT.STATE = 0
        ∧ t.chip.get d CAL_STAT CAL_STAT.ITEM = 31 ∧ t.chip.bit d CAL_LASTT CAL_LASTT.ABANDONED = true
        ∧ (t.chip.die d).cal.pass = none
        ∧ (∀ c < 18, t.chip.getI d (CAL_CH c) CAL_CH.OFFSET = s.chip.getI d (CAL_CH c) CAL_CH.OFFSET
            ∧ t.chip.getI d (CAL_CH c) CAL_CH.GAIN = s.chip.getI d (CAL_CH c) CAL_CH.GAIN)
        ∧ s.chip.sameDiesBut t.chip d)
      ∧ (s.chip.bit d CAL_REF CAL_REF.FALLBACK = true → (s.chip.getI d CAL_REF CAL_REF.DIS).natAbs ≤ 300 →
        ∃ t, exec (.fbclr d) s = .next t ∧ t.chip.bit d CAL_REF CAL_REF.FALLBACK = false
        ∧ t.chip.get d CAL_REF CAL_REF.SUSPECT = s.chip.get d CAL_REF CAL_REF.SUSPECT ∧ t.chip.bit d CAL_STAT CAL_STAT.PENDING = true
        ∧ s.chip.sameRegsBut t.chip d [CAL_REF, CAL_STAT] ∧ s.chip.sameDiesBut t.chip d))

/-- R348, R349, R350, R346, R351: an item takes the idle spare; a candidate in range waits for its repeat, one out of range with two
more element combinations tried ends the item OUT OF RANGE with source 159; the repeat accepts it or reports source 160; a current
sense is measured against R_CAL; at the pass's end, in a line after that of its last item, the
accepted residuals come into force.
Rests on choices of the model: log entries 70, 72, 73 and 75. -/
def Obligations.CalibrationItemsAreMeasuredAndApplied : Prop :=
∀ (d : Die) (s : State) (p : CalPass), s.Inv → s.chip.runsOn d 8 = true → s.chip.stroke d % 4 = 0 → (s.chip.die d).cal.pass = some p →
    (∀ code rest, p.items = code :: rest → code < 18 → p.running = [] → p.calmAt ≤ s.chip.line d + 7 → s.chip.spareState d = 0 →
      (s.chip.die d).cfe.repair = none → s.chip.owdWaits d = false → s.chip.calState d ≠ 4 →
      ∃ t, exec (.calItemGrant d) s = .next t ∧ t.chip.get d CAL_STAT CAL_STAT.STATE = 1 ∧ t.chip.get d CAL_STAT CAL_STAT.ITEM = code
        ∧ t.chip.spareTarget d = code ∧ t.chip.spareOwner d = 2
        ∧ (t.chip.die d).cal.pass = some { p with items := rest, running := [⟨code, s.chip.line d + (if code = 16 then 2 else 3)
            + 2 * p.window, none, s.chip.get d (CAL_CHST code) CAL_CHST.ELEM, [], false,
            s.chip.line d + (if code = 16 then 1 else 2), false⟩] }
        ∧ s.chip.sameRegsBut t.chip d [CAL_STAT, CFE_SPARE] ∧ s.chip.sameDiesBut t.chip d)
    ∧ (∀ w i, s.chip.itemDue d false = some (p, i) → i.code < 18 → i.spoilt = false →
      (i.elem &&& s.chip.get d (BIST_ELEM i.code) BIST_ELEM.MARKED = 0 → (s.chip.candidate d i.code w.zero w.vcal).1 = true →
        ∃ t, exec (.calCandidate d w) s = .next t ∧ (t.chip.die d).cal.pass = some { p with running := p.running.map fun j =>
            if j.code = i.code then { j with
              cand := some ((s.chip.candidate d i.code w.zero w.vcal).2.1, (s.chip.candidate d i.code w.zero w.vcal).2.2, j.elem)
              begun := j.due + 1, due := j.due + 2 + 2 * p.window } else j }
          ∧ s.chip.sameRegs t.chip ∧ s.chip.sameDiesBut t.chip d)
      ∧ ((s.chip.candidate d i.code w.zero w.vcal).1 = false → 2 ≤ i.tried.length →
        ∃ t, exec (.calCandidate d w) s = .next t ∧ t.chip.get d (CAL_CHST i.code) CAL_CHST.STATUS = 3
          ∧ t.chip.get d (BIST_ELEM i.code) BIST_ELEM.RANGES = min 7 (s.chip.get d (BIST_ELEM i.code) BIST_ELEM.RANGES + 1)
          ∧ 159 ∈ (t.chip.die d).fcol.reports ∧ t.chip.get d CAL_STAT CAL_STAT.ITEM = 31))
    ∧ (∀ w i c, s.chip.itemDue d true = some (p, i) → i.cand = some c → i.code < 18 → i.spoilt = false →
      s.chip.bit d CAL_REF CAL_REF.DEGRADED = false →
      (w.zero.natAbs ≤ 160 → (w.vcal - w.zero - calVolts i.code).natAbs * 1000000 ≤ 30 * (calVolts i.code).natAbs →
        ∃ t, exec (.calItemVerdict d w) s = .next t ∧ t.chip.get d (CAL_CHST i.code) CAL_CHST.STATUS = 1
          ∧ t.chip.get d (BIST_ELEM i.code) BIST_ELEM.RANGES = 0 ∧ t.chip.get d (BIST_ELEM i.code) BIST_ELEM.REPEATS = 0
          ∧ (t.chip.die d).cal.pass = some { p with
              running := p.running.filter (·.code != i.code)
              accepted := (i.code, c.1, c.2.1, c.2.2) :: p.accepted, endAt := s.chip.line d }
          ∧ s.chip.sameRegsBut t.chip d [CAL_CHST i.code, BIST_ELEM i.code, CAL_STAT, CFE_SPARE])
      ∧ (160 < w.zero.natAbs → ∃ t, exec (.calItemVerdict d w) s = .next t ∧ t.chip.get d (CAL_CHST i.code) CAL_CHST.STATUS = 2
          ∧ t.chip.get d (BIST_ELEM i.code) BIST_ELEM.REPEATS = min 7 (s.chip.get d (BIST_ELEM i.code) BIST_ELEM.REPEATS + 1)
          ∧ 160 ∈ (t.chip.die d).fcol.reports))
    ∧ (∀ (n : Fin 4) (r : RcalIn), n.val ∈ p.senses → (s.chip.die d).cal.sense = none → s.chip.senseFree d (n.val / 2) = true →
      0 ≤ r.rcalUV → r.rcalUV ≤ 300000 → ∃ t, exec (.currentSenseItem d n r) s = .next t
        ∧ (t.chip.get d CAL_RCAL CAL_RCAL.IT : Int) = roundDiv r.rcalUV 5
        ∧ (t.chip.die d).cal.sense = some (n.val, s.chip.line d + 10)
        ∧ (r.rcalUV < 112500 ∨ 137500 < r.rcalUV → t.chip.bit d CAL_REF CAL_REF.RCALBAD = true ∧ 158 ∈ (t.chip.die d).fcol.reports
            ∧ (t.chip.die d).cal.pass = some { p with
              senses := p.senses.filter (· != n.val), failed := (19 + n.val) :: p.failed, endAt := s.chip.line d + 10 })
        ∧ s.chip.sameRegsBut t.chip d [CAL_RCAL, CAL_REF] ∧ s.chip.sameDiesBut t.chip d)
    ∧ (p.items = [] → p.running = [] → p.senses = [] → p.calmAt < s.chip.line d → p.endAt < s.chip.line d →
      (∀ a ∈ p.accepted, a.1 < 23 ∧ a.1 ≠ 18) → (p.accepted.map (·.1)).Nodup →
      ∃ t, exec (.calPassEnd d) s = .next t ∧ t.chip.get d CAL_STAT CAL_STAT.STATE = 0 ∧ t.chip.get d CAL_STAT CAL_STAT.ITEM = 31
        ∧ t.chip.get d CAL_STAT CAL_STAT.PASSES = min (s.chip.get d CAL_STAT CAL_STAT.PASSES + 1) 255
        ∧ t.chip.get d CAL_LAST CAL_LAST.AT = s.chip.stroke d % 2 ^ 32 ∧ t.chip.reg d CAL_LASTT = BitVec.ofNat 32 (p.tref + 65536 * p.cause)
        ∧ (t.chip.die d).cal.pass = none ∧ (t.chip.die d).cal.since = p.age
        ∧ (∀ a ∈ p.accepted, a.1 < 18 → t.chip.getI d (CAL_CH a.1) CAL_CH.OFFSET = satSigned a.2.1 CAL_CH.OFFSET.w
            ∧ t.chip.getI d (CAL_CH a.1) CAL_CH.GAIN = satSigned a.2.2.1 CAL_CH.GAIN.w)
        ∧ s.chip.sameDiesBut t.chip d)

/-- R413 to R416, R419, R421, R422: in its BIST window a slice moves the pointer on and takes its response into the MISR, from the vendor's
seed in slice 0 and continued after it; the last slice records PASS where the MISR holds the vendor's signature, or FAIL with source
84 + p; a
slice cut short is INCOMPLETE with source 161 and restarts the partition; a row that fails takes a spare row with source 162. BIST_ABORT
ends a programmed run (R419).
Rests on choices of the model: log entries 109 and 154. -/
def Obligations.LogicAndMemorySelfTest : Prop :=
∀ (d : Die) (response : Word) (ok : Bool) (p k : Nat) (s : State), s.Inv →
    (s.chip.runsOn d 8 = true → s.chip.stroke d % 32 = 2 → s.chip.get d PWR_STATE PWR_STATE.STATE = 0 →
      (s.chip.die d).bist.run = none → s.chip.bit d BIST_CFG BIST_CFG.PERIODIC = true →
      s.chip.get d BIST_STAT BIST_STAT.PART = p → s.chip.get d BIST_STAT BIST_STAT.SLICE = k → p < 24 →
      ok = (Config.misrNext p (s.chip.die d).bist.lfsr (s.chip.die d).bist.misr response == Config.vendorSig p) →
      (s.chip.degraded d = false → k < 7 → ∃ t, exec (.bistSlice d true response []) s = .next t
        ∧ t.chip.get d BIST_STAT BIST_STAT.SLICE = k + 1 ∧ t.chip.get d BIST_STAT BIST_STAT.PART = p
        ∧ (t.chip.die d).bist.misr = some (Config.misrNext p (if k = 0 then Config.vendorSeed p else (s.chip.die d).bist.lfsr)
            (if k = 0 then none else (s.chip.die d).bist.misr) response)
        ∧ (t.chip.die d).bist.window = ((s.chip.die d).bist.window + 1) % 192
        ∧ s.chip.sameRegsBut t.chip d [BIST_STAT] ∧ s.chip.sameDiesBut t.chip d)
      ∧ (s.chip.degraded d = false → k = 7 → ∃ t, exec (.bistSlice d true response []) s = .next t
        ∧ t.chip.get d BIST_STAT BIST_STAT.SLICE = 0 ∧ t.chip.get d BIST_STAT BIST_STAT.PART = (p + 1) % 24
        ∧ t.chip.get d (BIST_PART p) BIST_PART.RESULT = (if ok then 1 else 2) ∧ t.chip.get d (BIST_PART p) BIST_PART.AGE = 0
        ∧ (t.chip.die d).fcol.reports = (s.chip.die d).fcol.reports ++ (if ok then [] else [84 + p])
        ∧ s.chip.sameRegsBut t.chip d [BIST_STAT, BIST_PART p] ∧ s.chip.sameDiesBut t.chip d)
      ∧ (∃ t, exec (.bistSlice d false response []) s = .next t ∧ t.chip.get d BIST_STAT BIST_STAT.SLICE = 0
        ∧ t.chip.get d BIST_STAT BIST_STAT.PART = p ∧ t.chip.get d (BIST_PART p) BIST_PART.RESULT = 3
        ∧ (t.chip.die d).fcol.reports = (s.chip.die d).fcol.reports ++ [161]
        ∧ s.chip.sameRegsBut t.chip d [BIST_STAT, BIST_PART p] ∧ s.chip.sameDiesBut t.chip d)
      ∧ (∀ m r, m < 18 → (s.chip.die d).bist.window / 3 = r → m / 6 = (s.chip.die d).bist.window % 3 → r < 64 →
        ((s.chip.die d).bist.rows.filter (·.1 == m)).length < 2 → ∃ t, exec (.bistSlice d true response [(m, r, none)]) s = .next t
        ∧ (m, r) ∈ (t.chip.die d).bist.rows ∧ 162 ∈ (t.chip.die d).fcol.reports ∧ t.chip.get d (BIST_MAC m) BIST_MAC.ROW = r
        ∧ t.chip.get d (BIST_MAC m) BIST_MAC.SPROWS = ((s.chip.die d).bist.rows.filter (·.1 == m)).length + 1
        ∧ s.chip.sameDiesBut t.chip d))
    ∧ (s.chip.fitted d = true → s.chip.on d 0 = true → s.chip.get d LCY_STATE LCY_STATE.STATE ≠ 4 → (s.chip.die d).bist.run ≠ none →
      ∃ t, exec (.bistAbort d) s = .next t ∧ t.chip.get d BIST_RUN BIST_RUN.STATE = 4
        ∧ t.chip.bit d BIST_STAT BIST_STAT.RUNNING = false ∧ (t.chip.die d).bist.run = none ∧ (t.chip.die d).bist.held = []
        ∧ s.chip.sameRegsBut t.chip d [BIST_RUN, BIST_STAT] ∧ s.chip.sameDiesBut t.chip d)

/-- R425, R428, R431: the rotation's channel takes the idle spare for its element test, whose verdict marks the units that differ from
the median; a failed channel's repair takes the spare; in SERVICE BIST_FUSE.GO starts the pump, whose end records what self-test has
repaired.
Rests on choices of the model: log entries 49, 109 and 110. -/
def Obligations.ElementTestsRepairsAndRepairFuses : Prop :=
∀ (d : Die) (s : State), s.Inv →
    (∀ c, s.chip.runsOn d 8 = true → s.chip.stroke d % 4 = 0 → s.chip.entering d = false → s.chip.bit d BIST_CFG BIST_CFG.ELEM_EN = true →
      32 ≤ s.chip.line d % 256 → s.chip.line d % 256 < 200 → (s.chip.die d).bist.pageDone = false → (s.chip.die d).bist.elem = none →
      s.chip.spareState d = 0 → (s.chip.die d).cfe.repair = none → s.chip.owdWaits d = false → s.chip.calWaits d = false →
      s.chip.nextElemChannel d = some c → ∃ t, exec (.elementTestStart d) s = .next t
        ∧ (t.chip.die d).bist.elem = some (c, s.chip.line d) ∧ (t.chip.die d).bist.elemNext = (c + 1) % 18
        ∧ t.chip.spareTarget d = c ∧ t.chip.spareOwner d = 3 ∧ t.chip.spareState d = (if c = 16 then 2 else 1)
        ∧ s.chip.sameRegsBut t.chip d [CFE_SPARE] ∧ s.chip.sameDiesBut t.chip d)
    ∧ (∀ c l readings, s.chip.runsOn d 8 = true → s.chip.stroke d % 4 = 0 → (s.chip.die d).bist.elem = some (c, l) → c < 18 →
      l + 9 ≤ s.chip.line d → ∃ t, exec (.elementTestVerdict d readings) s = .next t
        ∧ t.chip.get d (BIST_ELEM c) BIST_ELEM.MARKED = s.chip.get d (BIST_ELEM c) BIST_ELEM.MARKED ||| Chip.badUnits readings
        ∧ t.chip.get d (BIST_ELEM c) BIST_ELEM.AGE = 0 ∧ (t.chip.die d).bist.elem = none ∧ s.chip.sameDiesBut t.chip d)
    ∧ (∀ c, s.chip.runsOn d 1 = true → s.chip.stroke d % 4 = 0 → (s.chip.die d).cfe.repair = some c → c < 18 → s.chip.spareOwner d = 0 →
      ∃ t, exec (.channelRepair d c) s = .next t ∧ t.chip.spareTarget d = c ∧ t.chip.spareOwner d = 4
        ∧ (t.chip.die d).cfe.repair = none ∧ s.chip.sameRegsBut t.chip d [CFE_SPARE] ∧ s.chip.sameDiesBut t.chip d)
    ∧ (s.chip.fitted d = true → s.chip.on d 0 = true → s.chip.get d LCY_STATE LCY_STATE.STATE = 3 →
      s.chip.bit d LCY_STATE LCY_STATE.PUMP = false → ∃ t, exec (.bistFuseGo d) s = .next t
        ∧ t.chip.bit d BIST_FUSE BIST_FUSE.BUSY = true ∧ t.chip.bit d LCY_STATE LCY_STATE.PUMP = true ∧ (t.chip.die d).bist.pump = true
        ∧ s.chip.sameRegsBut t.chip d [BIST_FUSE, LCY_STATE] ∧ s.chip.sameDiesBut t.chip d)
    ∧ (s.chip.runs d = true → (s.chip.die d).bist.pump = true → ∃ t, exec (.fuseProgrammingDone d true) s = .next t
        ∧ t.chip.bit d BIST_FUSE BIST_FUSE.BUSY = false ∧ t.chip.bit d BIST_FUSE BIST_FUSE.DONE = true
        ∧ t.chip.bit d LCY_STATE LCY_STATE.PUMP = false ∧ (t.chip.die d).bist.pump = false
        ∧ (t.chip.die d).lcy.fuses = s.chip.repairRecord d
        ∧ t.chip.bit d BIST_REPAIR BIST_REPAIR.FUSED = (s.chip.repairRecord d).target.isSome
        ∧ s.chip.sameRegsBut t.chip d ([BIST_FUSE, LCY_STATE, BIST_REPAIR] ++ (List.range 18).map BIST_MAC) ∧ s.chip.sameDiesBut t.chip d)

/-- R226, R229, R227, R223, R211: a lane start makes the lane's ACTIVE entries LOST, a census leaves them; where no nib answers the search,
and where one is found, a lane whose reset before STREAM is answered streams with the windows of its entries, and one whose is not sets
NOPRES and stays idle; on a die with an empty roster a nib that is found, and admitted at once, becomes the ACTIVE entry 384·d in slot 0 of
its lane; in host-assisted search the lane is left to the host. While the governor's account is above AMAX the reset waits (R205).
Rests on choices of the model: log entries 78 and 82. That NWIN of 256 windows reads 255, and that the edge waits for its row, are the
model's choice as well (log entry 139). -/
def Obligations.LanesStartAndSearch : Prop :=
∀ (d : Die) (q : Pair) (s : State), s.Inv → s.chip.runsOn d 7 = true → s.chip.bit d (QLN_CFG q.val) QLN_CFG.EN = true →
    (s.chip.lane d q.val).stopped = false → s.chip.bit d (QLN_STAT q.val) QLN_STAT.SHORT = false → (s.chip.lane d q.val).rawWin = none →
    (s.chip.edgeFree d q.val = false → ∀ walks echoes clear stream,
      exec (.laneStart d q ⟨walks, clear, stream⟩) s = .next s ∧ exec (.census d q ⟨walks, stream⟩ echoes) s = .next s)
    ∧ (s.chip.edgeFree d q.val = true →
      ((s.chip.lane d q.val).start = true → s.chip.mode d FOL_MODENOW.NSRCH = true → ∀ walks clear stream,
        ∃ t, exec (.laneStart d q ⟨walks, clear, stream⟩) s = .next t
        ∧ t.chip.laneMode d q.val = 5 ∧ s.chip.sameRegsBut t.chip d [QLN_STAT q.val] ∧ s.chip.sameDiesBut t.chip d)
      ∧ (s.chip.mode d FOL_MODENOW.NSRCH = false → ∀ (w : WalkIn) (clear stream : Bool),
        (w.rollCall = false → (s.chip.lane d q.val).start = true → ∃ t, exec (.laneStart d q ⟨[w], clear, stream⟩) s = .next t
          ∧ t.chip.bit d (QLN_STAT q.val) QLN_STAT.NOPRES = !stream
          ∧ (∀ e ∈ s.chip.laneEntries d q.val, t.chip.eState d e = 3)
          ∧ (stream = true → t.chip.get d (QLN_STAT q.val) QLN_STAT.NWIN = min (s.chip.windowsOf d q.val) 255)
          ∧ t.chip.laneMode d q.val = (if stream = true ∧ s.chip.windowsOf d q.val ≠ 0 then 3 else 1) ∧ s.chip.sameDiesBut t.chip d)
        ∧ (w.rollCall = false → (s.chip.lane d q.val).census = true → s.chip.laneMode d q.val = 3 →
          ∃ t, exec (.census d q ⟨[w], stream⟩ []) s = .next t ∧ t.chip.bit d (QLN_STAT q.val) QLN_STAT.NOPRES = !stream
          ∧ (∀ e ∈ s.chip.laneEntries d q.val, t.chip.eState d e = s.chip.eState d e)
          ∧ (stream = true → t.chip.get d (QLN_STAT q.val) QLN_STAT.NWIN = min (s.chip.windowsOf d q.val) 255)
          ∧ t.chip.laneMode d q.val = (if stream = true ∧ s.chip.windowsOf d q.val ≠ 0 then 3 else 1) ∧ s.chip.sameDiesBut t.chip d)
        ∧ (w.rollCall = true → w.tallies.length = 32 → (∀ m ∈ w.tallies, m % 16 ≠ 0) →
          idOk (idOfDigits (w.tallies.map fun m => lowDigit (m % 16))) = true → w.echo = 0 → s.chip.ownEntries d = [] →
          s.chip.bit d (QLN_CFG q.val) QLN_CFG.AUTOADMIT = true → s.chip.bit d (QLN_CFG q.val) QLN_CFG.KINDFILT = false →
          ∀ c, c = Instr.laneStart d q ⟨[w], clear, stream⟩ ∧ (s.chip.lane d q.val).start = true
              ∨ c = Instr.census d q ⟨[w], stream⟩ [] ∧ (s.chip.lane d q.val).census = true ∧ s.chip.laneMode d q.val = 1 →
            ∃ t, exec c s = .next t ∧ t.chip.eId d (384 * d.val) = idOfDigits (w.tallies.map fun m => lowDigit (m % 16))
              ∧ t.chip.eState d (384 * d.val) = 2 ∧ t.chip.eSlot d (384 * d.val) = 0 ∧ t.chip.eLane d (384 * d.val) = q.val
              ∧ (stream = true → t.chip.get d (QLN_STAT q.val) QLN_STAT.NWIN = 1)
              ∧ t.chip.laneMode d q.val = (if stream = true then 3 else 1)
              ∧ t.chip.bit d (QLN_STAT q.val) QLN_STAT.NOPRES = !stream)))

/-- R222, R223, R207, R205, R233, Table 08.14: a stream cycle starts with its windows, or waits while the governor's account is above AMAX,
and shows the length of the one that ended; none starts once an entry has asked the lanes to stop (Table 15.4);
a window's frame is absent, damaged or valid; a short stops the lane; the account follows the line's low and high time, and the edge that
waits starts where the account has fallen to AMAX; the commands RESTART, CENSUS and STOP set what the lane does next, and in host-assisted
search CENSUS sets nothing.
Rests on choices of the model: log entries 80 and 83. That NWIN of 256 windows reads 255, and that the waiting edge starts in the row in
which the account falls to AMAX, are the model's choice as well (log entry 139). -/
def Obligations.LanesStreamAndAreCommanded : Prop :=
∀ (d : Die) (q : Pair) (s : State), s.Inv → q.val < (s.chip.die d).nib.lanes.length →
    (s.chip.runsOn d 7 = true → s.chip.bit d (QLN_CFG q.val) QLN_CFG.EN = true →
      (∀ hold held, (s.chip.lane d q.val).stopped = false → (s.chip.lane d q.val).start = false → (s.chip.lane d q.val).census = false →
        (s.chip.lane d q.val).edge = false → s.chip.bit d (QLN_STAT q.val) QLN_STAT.SHORT = false →
        s.chip.bit d (QLN_STAT q.val) QLN_STAT.NOPRES = false → s.chip.laneMode d q.val = 3 →
        ∃ t, exec (.streamCycleStart d q hold held) s = .next t
        ∧ t.chip.get d (QLN_CYCLE q.val) QLN_CYCLE.LAST = min (80 + 352 * s.chip.cycleWindows d q.val + hold) (2 ^ 20 - 1)
        ∧ t.chip.bit d (QLN_CYCLE q.val) QLN_CYCLE.HELD = (held || hold != 0 || (s.chip.lane d q.val).heldCyc)
        ∧ (s.chip.stepAsked d 2 = true → t.chip.laneMode d q.val = (if (s.chip.lane d q.val).rawWin.isSome = true then 5 else 1)
          ∧ (t.chip.lane d q.val).edge = false)
        ∧ (s.chip.stepAsked d 2 = false → 0 < s.chip.windowsOf d q.val →
          (t.chip.lane d q.val).edge = !(s.chip.edgeFree d q.val) ∧ t.chip.laneMode d q.val = 3
          ∧ (s.chip.edgeFree d q.val = true → t.chip.get d (QLN_STAT q.val) QLN_STAT.NWIN = min (s.chip.windowsOf d q.val) 255)
          ∧ (s.chip.edgeFree d q.val = false → s.chip.sameRegsBut t.chip d [QLN_CYCLE q.val]))
        ∧ s.chip.sameRegsBut t.chip d [QLN_CYCLE q.val, QLN_STAT q.val] ∧ s.chip.sameDiesBut t.chip d)
      ∧ (∃ t, exec (.laneShort d q) s = .next t ∧ t.chip.bit d (QLN_STAT q.val) QLN_STAT.SHORT = true ∧ t.chip.laneMode d q.val = 1
        ∧ (t.chip.lane d q.val).edge = false ∧ (t.chip.lane d q.val).rawWin = none
        ∧ s.chip.sameRegsBut t.chip d [QLN_STAT q.val] ∧ s.chip.sameDiesBut t.chip d)
      ∧ (∀ lo hi acc : Nat, acc = (s.chip.lane d q.val).account + 4 * lo - hi → ∃ t, exec (.dutyGovernorRelease d q lo hi) s = .next t
        ∧ (t.chip.lane d q.val).account = acc
        ∧ (t.chip.lane d q.val).edge = ((s.chip.lane d q.val).edge && decide (4 * s.chip.get d QLN_GOV QLN_GOV.AMAX < acc))
        ∧ (t.chip.lane d q.val).heldCyc = (s.chip.lane d q.val).heldCyc
        ∧ s.chip.sameRegsBut t.chip d [QLN_STAT q.val] ∧ s.chip.sameDiesBut t.chip d))
    ∧ (s.chip.runsOn d 7 = true → s.chip.laneMode d q.val = 3 → (s.chip.lane d q.val).edge = false →
      ∀ (slot e f : Nat) (wire : BitVec 40), f = (~~~ wire).toNat →
      slot < (s.chip.lane d q.val).rawWin.getD (s.chip.get d (QLN_STAT q.val) QLN_STAT.NWIN) →
      (s.chip.laneEntries d q.val).find? (fun e => s.chip.eSlot d e == slot) = some e →
      s.chip.injected d (3 + q.val) = false →
      (f = 0 → ∃ t, exec (.nibWindowDecision d q slot wire) s = .next t
        ∧ (s.chip.eState d e = 2 → t.chip.get d (QLN_ERR q.val) QLN_ERR.ABSENT
            = min (s.chip.get d (QLN_ERR q.val) QLN_ERR.ABSENT + 1) 255)
        ∧ (2 ≤ runOf (s.chip.die d).nib.missed e → t.chip.eState d e = 3) ∧ s.chip.sameDiesBut t.chip d)
      ∧ (f ≠ 0 → frameOk f = false → ∃ t, exec (.nibWindowDecision d q slot wire) s = .next t
        ∧ t.chip.get d (QLN_ERR q.val) QLN_ERR.CRCCNT = min (s.chip.get d (QLN_ERR q.val) QLN_ERR.CRCCNT + 1) 255
        ∧ t.chip.get d (MOD_NIB_ENTRY e) MOD_NIB_ENTRY.FERR = min 63 (s.chip.get d (MOD_NIB_ENTRY e) MOD_NIB_ENTRY.FERR + 1)
        ∧ 132 + q.val ∈ (t.chip.die d).fcol.reports ∧ t.chip.reg d (MOD_NIB_VALUE e) = s.chip.reg d (MOD_NIB_VALUE e)
        ∧ s.chip.sameDiesBut t.chip d)
      ∧ (f ≠ 0 → frameOk f = true → f.testBit 27 = true → f.testBit 24 = false → ∃ t, exec (.nibWindowDecision d q slot wire) s = .next t
        ∧ t.chip.get d (MOD_NIB_VALUE e) MOD_NIB_VALUE.TEMP = f % 65536 ∧ t.chip.get d (MOD_NIB_VALUE e) MOD_NIB_VALUE.AUX = f / 65536 % 256
        ∧ t.chip.get d (MOD_NIB_VALUE e) MOD_NIB_VALUE.AGE = 0
        ∧ t.chip.get d (MOD_NIB_ENTRY e) MOD_NIB_ENTRY.NSTAT = f / 2 ^ 24 % 16 ∧ t.chip.eState d e = 2))
    ∧ (s.chip.on d 7 = true →
      (s.chip.bit d (QLN_CFG q.val) QLN_CFG.EN = true → ∃ t, exec (.qlnRestart d q) s = .next t ∧ t.chip.laneMode d q.val = 2
        ∧ (t.chip.lane d q.val).start = true ∧ s.chip.sameRegsBut t.chip d [QLN_STAT q.val] ∧ s.chip.sameDiesBut t.chip d)
      ∧ (∃ t, exec (.qlnCensus d q) s = .next t ∧ (t.chip.lane d q.val).census
          = (if s.chip.mode d FOL_MODENOW.NSRCH = true then (s.chip.lane d q.val).census else !(s.chip.lane d q.val).start)
        ∧ s.chip.sameRegs t.chip ∧ s.chip.sameDiesBut t.chip d)
      ∧ (∃ t, exec (.qlnStop d q) s = .next t ∧ (t.chip.lane d q.val).stopped = true ∧ (t.chip.lane d q.val).start = false
        ∧ t.chip.laneMode d q.val = s.chip.get d (QLN_CFG q.val) QLN_CFG.EN
        ∧ s.chip.sameRegsBut t.chip d [QLN_STAT q.val] ∧ s.chip.sameDiesBut t.chip d))

/-- R233, R211, Tables 08.16 and 08.17, R228, R224, R21: raw operations answer in QLN_RAWRES, a lane where no nib answered the roll-call
reading high, and are refused outside host-assisted search; RAW RESET also ends a stream cycle, while the others are refused as long as the
lane streams; a disabled or shorted lane stays as it is, and a lane that rests for an entry takes none (R394); an allowed write of an entry changes the copy of every live die, and the
owner's is to be sent; the transfer hands the owner's changes to the other live dies, a stroke later
where a self-test slice takes the roster's (R412).
Rests on choices of the model: log entries 77, 81 and 168. That STREAM with 255 shows NWIN 255 for 256 windows is the model's choice as
well (log entry 139). -/
def Obligations.RawOperationsAndRosterWrites : Prop :=
∀ (d : Die) (s : State), s.Inv →
    (∀ q : Pair, s.chip.on d 7 = true → s.chip.resting d 7 = false → s.chip.mode d FOL_MODENOW.NSRCH = true →
      s.chip.laneDead d q.val = false →
      (∀ present : Bool, ∃ t, exec (.rawReset d q present) s = .next t
        ∧ t.chip.reg d (QLN_RAWRES q.val) = BitVec.ofNat 32 (1 + 2 * present.toNat)
        ∧ t.chip.bit d (QLN_STAT q.val) QLN_STAT.NOPRES = !present ∧ t.chip.laneMode d q.val = 5
        ∧ s.chip.sameRegsBut t.chip d [QLN_RAWRES q.val, QLN_STAT q.val] ∧ s.chip.sameDiesBut t.chip d)
      ∧ (s.chip.laneMode d q.val ≠ 3 → ∀ n data, ∃ t, exec (.rawWrite d q n data) s = .next t ∧ t.chip.reg d (QLN_RAWRES q.val) = 1
        ∧ s.chip.sameRegsBut t.chip d [QLN_RAWRES q.val] ∧ s.chip.sameDiesBut t.chip d)
      ∧ (s.chip.laneMode d q.val ≠ 3 → ∀ n bits, 1 ≤ n → n ≤ 8 → ∃ t, exec (.rawRead d q n bits) s = .next t
        ∧ t.chip.reg d (QLN_RAWRES q.val) = BitVec.ofNat 32 (1 + 256 *
            (if s.chip.bit d (QLN_STAT q.val) QLN_STAT.NOPRES = true then 2 ^ n - 1 else bits % 2 ^ n))
        ∧ s.chip.sameRegsBut t.chip d [QLN_RAWRES q.val] ∧ s.chip.sameDiesBut t.chip d)
      ∧ (s.chip.laneMode d q.val ≠ 3 → ∀ data tally, data < 4 → tally < 16 → ∃ t, exec (.rawStep d q data tally) s = .next t
        ∧ (s.chip.bit d (QLN_STAT q.val) QLN_STAT.NOPRES = true → t.chip.reg d (QLN_RAWRES q.val) = 1)
        ∧ (s.chip.bit d (QLN_STAT q.val) QLN_STAT.NOPRES = false → t.chip.reg d (QLN_RAWRES q.val) = BitVec.ofNat 32 (1 + 8 * tally + 65536 *
            (if tally = 0 then 0 else if tally.testBit data then data else lowDigit tally)))
        ∧ s.chip.sameRegsBut t.chip d [QLN_RAWRES q.val] ∧ s.chip.sameDiesBut t.chip d)
      ∧ (s.chip.laneMode d q.val ≠ 3 → ∀ data, data < 256 → ∃ t, exec (.rawStream d q data) s = .next t ∧ t.chip.reg d (QLN_RAWRES q.val) = 1
        ∧ t.chip.laneMode d q.val = (if s.chip.bit d (QLN_STAT q.val) QLN_STAT.NOPRES = true then 5 else 3)
        ∧ t.chip.get d (QLN_STAT q.val) QLN_STAT.NWIN = min (data + 1) 255
        ∧ s.chip.sameRegsBut t.chip d [QLN_RAWRES q.val, QLN_STAT q.val] ∧ s.chip.sameDiesBut t.chip d))
    ∧ (∀ (q : Pair) c, s.chip.on d 7 = true → s.chip.resting d 7 = false →
      ((∃ b, c = Instr.rawReset d q b) ∧ s.chip.mode d FOL_MODENOW.NSRCH = false)
        ∨ ((∃ n x, c = Instr.rawWrite d q n x) ∨ (∃ n x, c = Instr.rawRead d q n x) ∨ (∃ n x, c = Instr.rawStep d q n x)
            ∨ (∃ x, c = Instr.rawStream d q x)) ∧ (s.chip.mode d FOL_MODENOW.NSRCH = false ∨ s.chip.laneMode d q.val = 3) →
      ∃ t, exec c s = .next t ∧ t.chip.reg d (QLN_RAWRES q.val) = 4
        ∧ s.chip.sameRegsBut t.chip d [QLN_RAWRES q.val] ∧ t.chip.dies = s.chip.dies)
    ∧ (∀ (q : Pair) c, s.chip.on d 7 = true →
      (∃ b, c = Instr.rawReset d q b) ∨ (∃ n x, c = Instr.rawWrite d q n x) ∨ (∃ n x, c = Instr.rawRead d q n x)
        ∨ (∃ n x, c = Instr.rawStep d q n x) ∨ (∃ x, c = Instr.rawStream d q x) →
      (s.chip.resting d 7 = true → exec c s = .next s)
      ∧ (s.chip.resting d 7 = false → s.chip.laneDead d q.val = true → ∃ t, exec c s = .next t
        ∧ s.chip.sameRegsBut t.chip d [QLN_RAWRES q.val] ∧ t.chip.dies = s.chip.dies))
    ∧ (∀ (o : Die) (e : Nat) (w : Word), e < 3072 → o = ownerDie e → s.chip.fitted d = true → s.chip.on d 0 = true →
      s.chip.fitted o = true → s.chip.on o 0 = true →
      (s.chip.mode o FOL_MODENOW.NSRCH = true → ∃ t, exec (.modNibEntryWrite d e 0 w) s = .next t
        ∧ (∀ k ∈ s.chip.liveDies, t.chip.reg k (MOD_NIB_ID_LO e) = w) ∧ (o ∈ s.chip.liveDies → e ∈ (t.chip.die o).nib.dirty)
        ∧ (∀ (k : Die) (a : Nat), (∀ j : Die, fullAddr k a ≠ fullAddr j (MOD_NIB_ID_LO e)) → t.chip.reg k a = s.chip.reg k a)
        ∧ s.chip.sameDiesBut t.chip o)
      ∧ (s.chip.entryWriteOk e 2 w = true → MOD_NIB_ENTRY.STATE.read w = s.chip.eState o e → s.chip.eState o e ≠ 0 → o ∈ s.chip.liveDies →
        ∃ t, exec (.modNibEntryWrite d e 2 w) s = .next t ∧ t.chip.eAssoc o e = MOD_NIB_ENTRY.ASSOC.read w
        ∧ t.chip.eState o e = s.chip.eState o e ∧ e ∈ (t.chip.die o).nib.dirty))
    ∧ (s.chip.slicing d = some 5 → ∀ x, exec (.nibRosterTransfer d x) s = .next s)
    ∧ (s.chip.runs d = true → s.chip.injected d 0x0C = false → s.chip.slicing d ≠ some 5 → ∃ t, exec (.nibRosterTransfer d none) s = .next t
        ∧ (t.chip.die d).nib.dirty = []
        ∧ (∀ e ∈ (s.chip.die d).nib.dirty, ∀ o : Die, o ≠ d → o ∈ s.chip.liveDies → ∃ m, (e, m) ∈ (t.chip.die d).nib.sent ∧ m.testBit o.val)
        ∧ s.chip.sameRegs t.chip ∧ s.chip.sameDiesBut t.chip d)

/-- R295, R17, R296, R286, R387, R401, R57: a cold start with good checks powers every domain, takes the cell count from the straps and
calibrates; a ROM or fuse failure or a wrong strap (a position other than the die's own, a TOP strap with a live die above) keeps D1 to D8
off, with source 167 or 166; a die reset keeps its domains, counts its
strokes from 0 (R62) and reports source 156, and a die held in the boot ROM stays held; a wake from
NIGHTCAP restarts every domain with an estimated count.
Rests on choices of the model: log entries 20, 98, 102, 103 and 104. -/
def Obligations.DiesStartResetAndWake : Prop :=
∀ (d : Die) (b : BootFacts) (s : State), s.Inv → s.chip.fitted d = true →
    (s.chip.on d 0 = false → (s.chip.die d).pwr.off = false →
      (b.romOk = true → b.fuseOk = true → b.pos = d.val →
        (b.top = true → ∀ k : Die, d < k → (s.chip.fitted k && s.chip.on k 0) = false) → b.cst ≤ 8 → b.rowFails = [] →
        (∀ x ∈ (s.chip.die d).lcy.fuses.marked, x.1 < 18) →
        (∀ x ∈ (s.chip.die d).lcy.fuses.factory, fullAddr d x.1 ∉ [fullAddr d BOOT_STAT, fullAddr d LCY_STATE]) →
        ∃ t, exec (.coldStart d b) s = .next t ∧ (∀ k, t.chip.on d k = true) ∧ (t.chip.die d).boot.done = true
        ∧ t.chip.cells d = 16 - b.cst ∧ t.chip.bit d BOOT_STAT BOOT_STAT.STRAPOK = true ∧ t.chip.get d CAL_STAT CAL_STAT.STATE = 4
        ∧ t.chip.stroke d = 0 ∧ t.chip.get d LCY_STATE LCY_STATE.STATE = (s.chip.die d).lcy.state % 8)
      ∧ (b.romOk = false ∨ b.fuseOk = false → ∃ t, exec (.coldStart d b) s = .next t
        ∧ (∀ k, t.chip.on d k = decide (k = 0)) ∧ (t.chip.die d).boot.stuck = true ∧ 167 ∈ (t.chip.die d).fcol.reports
        ∧ t.chip.get d FCOL_STATE FCOL_STATE.STATE = 3 ∧ t.chip.mod.faultLow = true)
      ∧ (b.romOk = true → b.fuseOk = true →
        (b.pos ≠ d.val ∨ b.top = true ∧ ∃ k : Die, d < k ∧ s.chip.fitted k = true ∧ s.chip.on k 0 = true) →
        ∃ t, exec (.coldStart d b) s = .next t
        ∧ (∀ k, t.chip.on d k = decide (k = 0)) ∧ (t.chip.die d).boot.stuck = true ∧ 166 ∈ (t.chip.die d).fcol.reports
        ∧ t.chip.mod.faultLow = true))
    ∧ (s.chip.on d 0 = true → ∃ t, exec (.dieReset d b) s = .next t ∧ (∀ k, t.chip.on d k = s.chip.on d k)
        ∧ 156 ∈ (t.chip.die d).fcol.reports ∧ t.chip.get d BOOT_STAT BOOT_STAT.START = 1 ∧ t.chip.stroke d = 0
        ∧ ((s.chip.die d).boot.stuck = false → b.cst ≤ 8 → t.chip.cells d = 16 - b.cst)
        ∧ ((s.chip.die d).boot.stuck = true → (t.chip.die d).boot.stuck = true ∧ t.chip.get d FCOL_STATE FCOL_STATE.STATE = 3)
        ∧ (t.chip.die d).lcy.prog = (s.chip.die d).lcy.prog ∧ (t.chip.die d).lcy.revoked = (s.chip.die d).lcy.revoked)
    ∧ (∀ ticks, s.chip.on d 0 = true → (s.chip.die d).pwr.wakeDue = true → (s.chip.die d).pwr.mclk = false →
      s.chip.get d PWR_ENTRY PWR_ENTRY.TARGET = 2 → ticks < 2 ^ 40 - 1 →
      s.chip.get d PWR_SLEEP_TICKS_LO PWR_SLEEP_TICKS_LO.TICKS
        + 2 ^ 32 * s.chip.get d PWR_SLEEP_TICKS_HI PWR_SLEEP_TICKS_HI.TICKS_HI < 2 ^ 40 - 1 →
      ∃ t, exec (.wakeFromSleep d ticks b) s = .next t ∧ (∀ k, t.chip.on d k = true) ∧ (t.chip.die d).pwr.mclk = true
        ∧ t.chip.get d PWR_STATE PWR_STATE.STATE = 0 ∧ t.chip.get d BOOT_STAT BOOT_STAT.START = 2
        ∧ t.chip.bit d ULK_STROKE_HI ULK_STROKE_HI.VALID = true ∧ t.chip.bit d ULK_STROKE_HI ULK_STROKE_HI.ESTIMATED = true
        ∧ t.chip.get d PWR_SLEEP_TICKS_LO PWR_SLEEP_TICKS_LO.TICKS = ticks % 2 ^ 32
        ∧ t.chip.get d PWR_SLEEP_TICKS_HI PWR_SLEEP_TICKS_HI.TICKS_HI = ticks / 2 ^ 32)

/-- R311 to R315: a word written to FOL_DATA goes to the inactive copy and clears its seal; a seal that passes makes the copy valid and
the switch pending; the switch, and the re-application after a start, apply the copy's records; the modes come into force at the switch
and not before.
Rests on choices of the model: log entries 94 and 100. -/
def Obligations.FolioCopiesAreWrittenSealedAndApplied : Prop :=
∀ (d : Die) (s : State), s.Inv → s.chip.on d 0 = true →
    (∀ n w, n < 1024 → s.chip.bit d FOL_STAT FOL_STAT.PENDING = false → ∃ t, exec (.folDataWrite d n w) s = .next t
      ∧ t.chip.copyWord d (s.chip.inactiveB d) n = w
      ∧ (∀ m, m ≠ n → t.chip.copyWord d (s.chip.inactiveB d) m = s.chip.copyWord d (s.chip.inactiveB d) m)
      ∧ (∀ m, t.chip.copyWord d (!s.chip.inactiveB d) m = s.chip.copyWord d (!s.chip.inactiveB d) m)
      ∧ t.chip.copyValid d (s.chip.inactiveB d) = false
      ∧ s.chip.sameRegsBut t.chip d [FOL_STAT] ∧ s.chip.sameDiesBut t.chip d)
    ∧ (∀ w : Word, (s.chip.sealError d (s.chip.reg d FOL_SEALSEQ).toNat w.toNat).1 = 0 → ∃ t, exec (.folSealcrcWrite d w) s = .next t
      ∧ t.chip.copyValid d (s.chip.inactiveB d) = true ∧ t.chip.bit d FOL_STAT FOL_STAT.PENDING = true
      ∧ t.chip.copySeq d (s.chip.inactiveB d) = (s.chip.reg d FOL_SEALSEQ).toNat
      ∧ s.chip.sameRegsBut t.chip d [FOL_STAT, FOL_SEQA, FOL_SEQB] ∧ s.chip.sameDiesBut t.chip d)
    ∧ (∀ w : Word, ∃ t, exec (.folModeselWrite d w) s = .next t ∧ (t.chip.reg d FOL_MODESEL) &&& 0x1FF = w &&& 0x1FF
      ∧ t.chip.reg d FOL_MODENOW = s.chip.reg d FOL_MODENOW
      ∧ s.chip.sameRegsBut t.chip d [FOL_MODESEL, FOL_STAT] ∧ t.chip.dies = s.chip.dies)
    ∧ (s.chip.coreLoops d = true → s.chip.stroke d % 4 = 0 → s.chip.bit d FOL_STAT FOL_STAT.PENDING = true →
      ∃ t, exec (.folioSwitch d) s = .next t ∧ t.chip.get d FOL_STAT FOL_STAT.ACTIVE = (s.chip.inactiveB d).toNat
        ∧ t.chip.bit d FOL_STAT FOL_STAT.PENDING = false
        ∧ t.chip.get d FOL_STAT FOL_STAT.NAPPLIED = (s.chip.applyRecords d (s.chip.inactiveB d)).2 % 2 ^ FOL_STAT.NAPPLIED.w
        ∧ t.chip.reg d FOL_MODENOW = (((s.chip.applyRecords d (s.chip.inactiveB d)).1).reg d FOL_MODESEL) &&& 0x1FF)
    ∧ (∀ c, (s.chip.die d).boot.reapply = some c → s.chip.runs d = true → s.chip.on d 1 = true → s.chip.stroke d % 4 = 0 →
      s.chip.get d FOL_STAT FOL_STAT.ACTIVE < 2 → ∃ t, exec (.folioReapply d) s = .next t ∧ (t.chip.die d).boot.reapply = none
        ∧ t.chip.get d FOL_STAT FOL_STAT.NAPPLIED
          = (s.chip.applyRecords d (s.chip.get d FOL_STAT FOL_STAT.ACTIVE == 1)).2 % 2 ^ FOL_STAT.NAPPLIED.w
        ∧ t.chip.reg d FOL_MODENOW = ((s.chip.applyRecords d (s.chip.get d FOL_STAT FOL_STAT.ACTIVE == 1)).1).reg d FOL_MODENOW)

/-- R393 to R395, R397: a block's ACK ends its step, a DELAY is counted for its block, its refusal, too many DELAYs or a ring that is not released
abandon the entry; the abandonment records its cause and restarts the stopped domains in order, one a stroke.
Rests on a choice of the model: log entry 105. -/
def Obligations.EntryHandshakeAndAbandonment : Prop :=
∀ (d : Die) (n : Nat) (s : State), s.Inv → s.chip.runs d = true → s.chip.entering d = true → s.chip.pwrStep d = n →
    ((s.chip.die d).pwr.abandon = none → (s.chip.die d).pwr.commitDue = false → n ≠ 0 → d ∈ s.chip.liveDies →
      ((s.chip.die d).pwr.acked = false →
        (n ≠ 3 → s.chip.stepAnswer d n = .ack → ∃ t, exec (.pwrHandshakeStep d) s = .next t ∧ (t.chip.die d).pwr.acked = true
          ∧ (t.chip.die d).pwr.ackAt = s.chip.stroke d ∧ s.chip.sameRegs t.chip ∧ s.chip.sameDiesBut t.chip d)
        ∧ (∀ l, s.chip.stepAnswer d n = .delay l → ∃ t, exec (.pwrHandshakeStep d) s = .next t
          ∧ (∀ b, runOf (t.chip.die d).pwr.delays b = runOf (s.chip.die d).pwr.delays b + l.count b)
          ∧ (t.chip.die d).pwr.acked = false ∧ s.chip.sameRegs t.chip ∧ s.chip.sameDiesBut t.chip d)
        ∧ (∀ b r, s.chip.stepAnswer d n = .refuse b r → ∃ t, exec (.pwrHandshakeStep d) s = .next t ∧ t.chip.abandons d 2 b r
          ∧ s.chip.sameRegs t.chip)
        ∧ (∀ b k before after, (s.chip.die d).pwr.delays = before ++ (b, k) :: after → b ≠ 0x07 →
          max 1 (s.chip.get d PWR_CFG PWR_CFG.DLYMAX) < k →
          (∀ x ∈ before, x.1 = 0x07 ∨ x.2 ≤ max 1 (s.chip.get d PWR_CFG PWR_CFG.DLYMAX)) →
          ∃ t, exec (.entryDelayLimit d) s = .next t ∧ t.chip.abandons d 2 b 0x0F ∧ s.chip.sameRegs t.chip)
        ∧ (s.chip.get d PWR_STATE PWR_STATE.STATE = 3 → s.chip.quietRing d = false →
          s.chip.get d PWR_CFG PWR_CFG.RELTO * 1024 ≤ (s.chip.die d).pwr.relStrokes →
          ∃ t, exec (.ringReleaseTimeout d) s = .next t ∧ t.chip.abandons d 2 0x07 0x10 ∧ s.chip.sameRegs t.chip))
      ∧ ((s.chip.die d).pwr.acked = true → s.chip.stepEnds d = true →
        (∀ m, nextStep (s.chip.pwrTarget d) n = some m → ∃ t, exec (.pwrHandshakeStep d) s = .next t
          ∧ (t.chip.die d).pwr.passed = n ∧ t.chip.pwrStep d = m)
        ∧ (nextStep (s.chip.pwrTarget d) n = none → n ≠ 5 → ∃ t, exec (.pwrHandshakeStep d) s = .next t
          ∧ (t.chip.die d).pwr.passed = n ∧ (t.chip.die d).pwr.commitDue = true ∧ s.chip.sameRegs t.chip ∧ s.chip.sameDiesBut t.chip d)))
    ∧ (∀ out block reason die, out < 4 → block < 64 → reason < 32 → die < 8 →
      (s.chip.die d).pwr.abandon = some (out, block, reason, die) → ∃ t, exec (.entryAbandon d) s = .next t
        ∧ t.chip.get d PWR_STATE PWR_STATE.STATE = 0 ∧ t.chip.get d PWR_STATE PWR_STATE.TARGET = 0 ∧ t.chip.pwrStep d = 0
        ∧ t.chip.get d PWR_ENTRY PWR_ENTRY.OUTCOME = out ∧ t.chip.get d PWR_ENTRY PWR_ENTRY.BLOCK = block
        ∧ t.chip.get d PWR_ENTRY PWR_ENTRY.REASON = reason ∧ t.chip.get d PWR_ENTRY PWR_ENTRY.DIE = die
        ∧ t.chip.get d PWR_ENTRY PWR_ENTRY.AP = min 6 (s.chip.die d).pwr.passed
        ∧ (t.chip.die d).pwr.restart = restartOrder (s.chip.pwrTarget d) (min 6 (s.chip.die d).pwr.passed)
        ∧ (t.chip.die d).pwr.abandon = none
        ∧ s.chip.sameRegsBut t.chip d [PWR_ENTRY, PWR_ABORTAT, PWR_STATE] ∧ s.chip.sameDiesBut t.chip d)

/-- R397, R391, R398, R400, R266, R30, R389, R399, R402: the domains of an abandoned entry restart one a stroke; a wake event wakes a die in
DOZE or asleep and drives the wake line; the level of a transition is applied; WOCLR and PADREL.
Rests on choices of the model: log entries 104, 105 and 106. -/
def Obligations.WakesLevelsAndPads : Prop :=
∀ (d : Die) (s : State), s.Inv →
    (∀ k rest, s.chip.runs d = true → (s.chip.die d).pwr.restart = k :: rest → (s.chip.die d).pwr.ackAt < s.chip.stroke d →
      (k = 1 → s.chip.stroke d % 4 = 0) → ∃ t, exec (.domainRestart d) s = .next t ∧ (t.chip.die d).pwr.restart = rest
        ∧ (t.chip.die d).pwr.ackAt = s.chip.stroke d ∧ (k = 3 → (t.chip.die d).cxs.asleep = false)
        ∧ (k = 1 → (t.chip.die d).pwr.stopStroke = none) ∧ s.chip.sameDiesBut t.chip d)
    ∧ ((s.chip.die d).pwr.off = false → s.chip.runs d = true → s.chip.get d PWR_STATE PWR_STATE.STATE = 1 →
      (∃ t, exec (.pwrWake d) s = .next t ∧ s.chip.wokenBy t.chip d 7 ∧ s.chip.sameRegsBut t.chip d [PWR_STATE, PWR_WAKESRC])
      ∧ ((∃ e ∈ (s.chip.die d).jnl.entries, s.chip.isTurn d e = true ∧ kindH (pktOpcode e.packet) = false
          ∧ s.chip.frontCheck d e = (none, false)) → ∃ t, exec (.dozeCommandWake d) s = .next t ∧ s.chip.wokenBy t.chip d 6
          ∧ s.chip.sameRegsBut t.chip d [PWR_STATE, PWR_WAKESRC]))
    ∧ ((s.chip.die d).pwr.off = false → s.chip.asleep d = true →
      (d.val = 0 → s.chip.bit d PWR_WAKECFG PWR_WAKECFG.W0EN = true → ∀ ticks, s.chip.get d PWR_WAKECFG PWR_WAKECFG.W0FILT + 1 ≤ ticks →
        ∃ t, exec (.wakePin d 0 (s.chip.get d PWR_WAKECFG PWR_WAKECFG.W0POL == 0) ticks) s = .next t ∧ s.chip.wokenBy t.chip d 0
        ∧ s.chip.sameRegsBut t.chip d [PWR_STATE, PWR_WAKESRC])
      ∧ (∀ p : Port, (p = .a → d.val = 0) → (p = .b → s.chip.isTop d = true) → s.chip.on d 6 = false →
        ∃ t, exec (.wakeBurstDetected d p) s = .next t ∧ s.chip.wokenBy t.chip d (2 + Chip.portNo p)
        ∧ t.chip.bit d ULK_RING ULK_RING.WAKE_SEEN = true ∧ t.chip.get d ULK_RING ULK_RING.WAKE_PORT = Chip.portNo p
        ∧ s.chip.sameRegsBut t.chip d [PWR_STATE, PWR_WAKESRC, ULK_RING])
      ∧ ((s.chip.die d).pwr.lineDue = true → ∃ t, exec (.wakeLineAsserted d) s = .next t
        ∧ t.chip.get d PWR_STATE PWR_STATE.STATE = 4 ∧ t.chip.bit d PWR_WAKESRC ⟨4, 1⟩ = true ∧ (t.chip.die d).pwr.wakeDue = true
        ∧ (t.chip.die d).pwr.lineDue = false ∧ s.chip.sameRegsBut t.chip d [PWR_STATE, PWR_WAKESRC] ∧ s.chip.sameDiesBut t.chip d))
    ∧ (s.chip.runs d = true →
      (∀ w, (s.chip.die d).pwr.plNext = some w → s.chip.wantedLevel d = w → w < 4 → ∃ t, exec (.perfLevelTransitionEnd d) s = .next t
        ∧ t.chip.get d PWR_STATE PWR_STATE.PLAPP = w ∧ t.chip.bit d PWR_STATE PWR_STATE.PLBUSY = false
        ∧ (t.chip.die d).pwr.plNext = none ∧ s.chip.sameRegsBut t.chip d [PWR_STATE] ∧ s.chip.sameDiesBut t.chip d)
      ∧ (∃ t, exec (.woclr d) s = .next t ∧ t.chip.bit d PWR_STATE PWR_STATE.WOUT = false
        ∧ s.chip.sameRegsBut t.chip d [PWR_STATE] ∧ t.chip.dies = s.chip.dies)
      ∧ (∀ mask, ∃ t, exec (.padrel d mask) s = .next t
        ∧ (∀ g < 6, (t.chip.get d PWR_PAD PWR_PAD.HELD).testBit g = ((s.chip.get d PWR_PAD PWR_PAD.HELD).testBit g
            && !(mask.testBit g && s.chip.on d (([3, 3, 7, 7, 1, 6] : List (Fin 9)).getD g 0))))
        ∧ (∀ k < 16, t.chip.get d (CXS_BLEED k) CXS_BLEED.ION = s.chip.get d (CXS_BLEED k) CXS_BLEED.ION
            ∧ t.chip.bit d (CXS_BLEED k) CXS_BLEED.OC = s.chip.bit d (CXS_BLEED k) CXS_BLEED.OC)
        ∧ s.chip.sameRegsBut t.chip d (PWR_PAD :: (List.range 16).map CXS_BLEED) ∧ t.chip.dies = s.chip.dies))

/-- R386, R396, R60, R403, R404: a commit enters the state that was asked for, with the domains of Table 15.1, and is recorded for a
sleep (of DOZE no outcome is recorded); the sleep ticks saturate; a
nightcap check that finds nothing is counted, one that fails records its cause and wakes the module, and one with VREG5 below warning is
run once more.
Rests on choices of the model: log entries 104, 106 and 107. -/
def Obligations.CommitSleepAndNightcap : Prop :=
∀ (d : Die) (s : State), s.Inv →
    (∀ ratio phase draw, s.chip.runs d = true → s.chip.entering d = true → (s.chip.die d).pwr.commitDue = true →
      (s.chip.die d).pwr.abandon = none → (s.chip.die d).pwr.ackAt < s.chip.stroke d → s.chip.liveDies.any s.chip.degraded = false →
      (s.chip.pwrTarget d = 1 → ∃ t, exec (.sleepCommit d ratio ⟨phase, draw⟩) s = .next t ∧ t.chip.get d PWR_STATE PWR_STATE.STATE = 1
        ∧ (∀ k, t.chip.on d k = (s.chip.on d k && !(k = 8 || k = 4 || k = 3 || k = 5))) ∧ (t.chip.die d).pwr.mclk = true
        ∧ t.chip.reg d PWR_ENTRY = s.chip.reg d PWR_ENTRY
        ∧ t.chip.get d PWR_PAD PWR_PAD.HELD = (s.chip.get d PWR_PAD PWR_PAD.HELD ||| 3))
      ∧ (s.chip.pwrTarget d = 2 ∨ s.chip.pwrTarget d = 3 → ∃ t, exec (.sleepCommit d ratio ⟨phase, draw⟩) s = .next t
        ∧ t.chip.get d PWR_STATE PWR_STATE.STATE = 3 ∧ (∀ k, t.chip.on d k = decide (k = 0)) ∧ (t.chip.die d).pwr.mclk = false
        ∧ t.chip.get d PWR_ENTRY PWR_ENTRY.OUTCOME = 1 ∧ t.chip.get d PWR_ENTRY PWR_ENTRY.TARGET = s.chip.pwrTarget d
        ∧ t.chip.get d PWR_SLEEP_TICKS_LO PWR_SLEEP_TICKS_LO.TICKS = 0 ∧ t.chip.get d PWR_PAD PWR_PAD.HELD = 63
        ∧ (t.chip.die d).time.strokeAtE = (s.chip.die d).time.stroke)
      ∧ (s.chip.pwrTarget d = 4 → ∃ t, exec (.sleepCommit d ratio ⟨phase, draw⟩) s = .next t ∧ (t.chip.die d).pwr.off = true
        ∧ (∀ k, t.chip.on d k = false) ∧ (t.chip.die d).lcy.prog = (s.chip.die d).lcy.prog))
    ∧ (s.chip.asleep d = true →
      (∃ t, exec (.sleepTickSaturate d) s = .next t ∧ t.chip.bit d PWR_SLEEP_TICKS_HI PWR_SLEEP_TICKS_HI.OVF = true
        ∧ t.chip.get d PWR_SLEEP_TICKS_LO PWR_SLEEP_TICKS_LO.TICKS = 2 ^ 32 - 1
        ∧ t.chip.get d PWR_SLEEP_TICKS_HI PWR_SLEEP_TICKS_HI.TICKS_HI = 255
        ∧ s.chip.sameRegsBut t.chip d [PWR_SLEEP_TICKS_LO, PWR_SLEEP_TICKS_HI] ∧ t.chip.dies = s.chip.dies)
      ∧ (∀ c1 c2 sp1 sp2 te1 te2 rd draw, s.chip.get d PWR_ENTRY PWR_ENTRY.TARGET = 2 → s.chip.mode d FOL_MODENOW.SLCHK = false →
        (s.chip.die d).pwr.wakeDue = false → (s.chip.die d).pwr.off = false →
        (∀ i, (i = Instr.nightcapCheck d c1 c2 sp1 sp2 te1 te2 rd ⟨false, draw⟩ ∧ (s.chip.die d).pwr.ncAgain = false
            ∨ i = Instr.nightcapRecheck d c1 c2 sp1 sp2 te1 te2 rd ⟨false, draw⟩ ∧ (s.chip.die d).pwr.ncAgain = true) → ∃ t, exec i s = .next t
          ∧ t.chip.get d PWR_NSTAT PWR_NSTAT.CHECKS = min (s.chip.get d PWR_NSTAT PWR_NSTAT.CHECKS + 1) 65535
          ∧ (s.chip.nightcapSources d c1 c2 sp1 sp2 te1 te2 = [] →
              t.chip.get d PWR_NSTAT PWR_NSTAT.FAIL = s.chip.get d PWR_NSTAT PWR_NSTAT.FAIL
              ∧ t.chip.reg d PWR_STATE = s.chip.reg d PWR_STATE ∧ t.chip.reg d PWR_WAKESRC = s.chip.reg d PWR_WAKESRC)
          ∧ (s.chip.nightcapSources d c1 c2 sp1 sp2 te1 te2 ≠ [] → t.chip.bit d PWR_NSTAT PWR_NSTAT.FAIL = true
              ∧ t.chip.get d PWR_NSTAT PWR_NSTAT.CAUSE = (Chip.nightcapCause (s.chip.nightcapSources d c1 c2 sp1 sp2 te1 te2)).1
              ∧ t.chip.get d PWR_NSTAT PWR_NSTAT.CELL = (Chip.nightcapCause (s.chip.nightcapSources d c1 c2 sp1 sp2 te1 te2)).2
              ∧ s.chip.wokenBy t.chip d 5))
        ∧ ((s.chip.die d).pwr.ncAgain = false → ∃ t, exec (.nightcapCheck d c1 c2 sp1 sp2 te1 te2 rd ⟨true, draw⟩) s = .next t
          ∧ (t.chip.die d).pwr.ncAgain = true ∧ t.chip.reg d PWR_STATE = s.chip.reg d PWR_STATE)
        ∧ ((s.chip.die d).pwr.ncAgain = true → ∃ t, exec (.nightcapRecheck d c1 c2 sp1 sp2 te1 te2 rd ⟨true, draw⟩) s = .next t
          ∧ t.chip.get d PWR_NSTAT PWR_NSTAT.CAUSE = 5 ∧ s.chip.wokenBy t.chip d 5)))

/-- R406 to R408, R251: a supply dip is counted and reported, and ends after 16 good strokes; a supply loss stops the measurement, the
stage and the core's speed, sends LASTGASP and ends in power-on reset; an overvoltage is reported up to the absolute maximum rating,
beyond which the model stops.
Rests on choices of the model: log entries 11, 104 and 108. -/
def Obligations.SupplyDipsLossAndOvervoltage : Prop :=
∀ (d : Die) (v : Nat) (s : State), s.Inv →
    (s.chip.runs d = true → s.chip.bit d PWR_DIP PWR_DIP.LIVE = false → 2100 ≤ v → v < 2275 → s.chip.degraded d = false →
      (s.chip.die d).pwr.dipDue = false → ∃ t, exec (.supplyDip d v) s = .next t
        ∧ t.chip.get d PWR_SUPPLY PWR_SUPPLY.VREG5 = v ∧ t.chip.bit d PWR_DIP PWR_DIP.LIVE = true
        ∧ t.chip.get d PWR_DIP PWR_DIP.DIPS = min (s.chip.get d PWR_DIP PWR_DIP.DIPS + 1) 255 ∧ 118 ∈ (t.chip.die d).fcol.reports
        ∧ (t.chip.die d).pwr.dipDue = true ∧ s.chip.sameRegsBut t.chip d [PWR_SUPPLY, PWR_DIP] ∧ s.chip.sameDiesBut t.chip d)
    ∧ (s.chip.runs d = true → s.chip.degraded d = true → 16 ≤ (s.chip.die d).pwr.dipGood → 2300 < v → v < 4096 →
      ∃ t, exec (.supplyDipEnd d v) s = .next t ∧ t.chip.degraded d = false ∧ t.chip.bit d PWR_DIP PWR_DIP.LIVE = false
        ∧ t.chip.bit d CXS_STATUS CXS_STATUS.DIP = false ∧ t.chip.get d PWR_DIP PWR_DIP.LAST = min (s.chip.die d).pwr.dipLen 65535
        ∧ s.chip.sameRegsBut t.chip d [PWR_SUPPLY, PWR_DIP, PWR_STATE, CXS_STATUS] ∧ s.chip.sameDiesBut t.chip d)
    ∧ (∀ a b, s.chip.fitted d = true → s.chip.on d 0 = true → (s.chip.die d).pwr.gasp = none → (a || b) = true →
      ∃ t, exec (.supplyLoss d a b) s = .next t ∧ (t.chip.die d).pwr.gasp = some (a.toNat + 2 * b.toNat, s.chip.stroke d)
        ∧ (t.chip.die d).pwr.gaspSent = false
        ∧ (∀ k, t.chip.on d k = (s.chip.on d k && !(k = 3 || k = 1 || k = 4 || k = 7 || k = 8)))
        ∧ t.chip.get d PWR_STATE PWR_STATE.PLAPP = 0 ∧ s.chip.sameDiesBut t.chip d)
    ∧ (∀ g, (s.chip.die d).pwr.gasp = some g →
      ((s.chip.die d).pwr.gaspSent = false → s.chip.on d 6 = true → s.chip.address d ≠ 0 → ∃ t, exec (.lastgaspSend d) s = .next t
        ∧ (∃ f ∈ (t.chip.die d).ring.queue, f.ftype = 6 ∧ f.payload.take 7 = leBytes 6 g.2 ++ leBytes 1 g.1)
        ∧ (t.chip.die d).pwr.gaspSent = true ∧ s.chip.sameRegs t.chip ∧ s.chip.sameDiesBut t.chip d)
      ∧ (s.chip.fitted d = true → ∃ t, exec (.powerOnReset d) s = .next t ∧ (∀ k, t.chip.on d k = false)
        ∧ (t.chip.die d).pwr.gasp = none ∧ (t.chip.die d).lcy.prog = (s.chip.die d).lcy.prog
        ∧ (t.chip.die d).lcy.keyHash = (s.chip.die d).lcy.keyHash ∧ s.chip.sameDiesBut t.chip d))
    ∧ (50000 < v → exec (.vstkOvervoltage d v) s = .fault .outsideAbsoluteMaximum)
    ∧ (s.chip.fitted d = true → s.chip.on d 0 = true →
      (47000 < v → v ≤ 50000 → s.chip.bit d PWR_SUPPLY PWR_SUPPLY.OVLIVE = false → ∃ t, exec (.vstkOvervoltage d v) s = .next t
        ∧ t.chip.bit d PWR_SUPPLY PWR_SUPPLY.OVLIVE = true ∧ t.chip.get d PWR_SUPPLY PWR_SUPPLY.VSTK = v
        ∧ 119 ∈ (t.chip.die d).fcol.reports ∧ s.chip.sameRegsBut t.chip d [PWR_SUPPLY] ∧ s.chip.sameDiesBut t.chip d)
      ∧ (v < 46000 → s.chip.bit d PWR_SUPPLY PWR_SUPPLY.OVLIVE = true → ∃ t, exec (.vstkOvervoltageClear d v) s = .next t
        ∧ t.chip.bit d PWR_SUPPLY PWR_SUPPLY.OVLIVE = false ∧ t.chip.get d PWR_SUPPLY PWR_SUPPLY.VSTK = v
        ∧ s.chip.sameRegsBut t.chip d [PWR_SUPPLY] ∧ t.chip.dies = s.chip.dies))

/-- R30, R382 to R384: an enabled edge at BLOT_IN, the blot line (which no ring BLOT drives) and FIRE set the trigger; the latch
copies every snapshot word and marks it unread, or counts a missed trigger while a snapshot is held; re-arming is due at every die; a
read of the header marks it read (that every powered die of the module shows it so in the same step is the model's choice, log entry 14).
R445: the level of the pin is followed while the die's clock stands, and triggers nothing then.
Rests on choices of the model: log entries 14, 39, 40, 41 and 152. -/
def Obligations.SnapshotsTriggerLatchAndRearm : Prop :=
∀ (d : Die) (s : State), s.Inv →
    (∀ cycle, d.val = 0 → s.chip.runs d = true → s.chip.bit d MOD_SNAP_CFG MOD_SNAP_CFG.PIN_EN = true →
      (s.chip.die d).snap.pin = !(s.chip.get d MOD_SNAP_CFG MOD_SNAP_CFG.PIN_POL == 0) →
      ∃ t, exec (.blotInEdge d (s.chip.get d MOD_SNAP_CFG MOD_SNAP_CFG.PIN_POL == 0) cycle) s = .next t
        ∧ (t.chip.die d).snap.trig = (s.chip.die d).snap.trig ||| 2 ∧ (t.chip.die d).snap.pin = !(s.chip.die d).snap.pin
        ∧ s.chip.sameRegs t.chip ∧ s.chip.sameDiesBut t.chip d)
    ∧ (∀ level cycle, d.val = 0 → s.chip.fitted d = true → s.chip.on d 0 = true → s.chip.runs d = false →
      ∃ t, exec (.blotInEdge d level cycle) s = .next t ∧ (t.chip.die d).snap.pin = level
        ∧ (t.chip.die d).snap.trig = (s.chip.die d).snap.trig ∧ s.chip.sameRegs t.chip ∧ s.chip.sameDiesBut t.chip d)
    ∧ (∀ (src : Die) at_, (s.chip.die src).snap.trig < 2 → exec (.blotLineEdge d src at_) s = .next s)
    ∧ (∀ (src : Die) cycle last, src ≠ d → s.chip.runs d = true → s.chip.fitted src = true → 2 ≤ (s.chip.die src).snap.trig →
      ∃ t, exec (.blotLineEdge d src ⟨cycle, last⟩) s = .next t
        ∧ (t.chip.die d).snap.trig = (s.chip.die d).snap.trig ||| (s.chip.die src).snap.trig
        ∧ ((s.chip.die d).snap.trig = 0 → (t.chip.die d).snap.cycle = cycle
            ∧ (last = false → (t.chip.die d).snap.stroke = s.chip.stroke d)
            ∧ (last = true → ((t.chip.die d).snap.stroke + 1) % 2 ^ 48 = s.chip.stroke d)) ∧ s.chip.sameRegs t.chip ∧ s.chip.sameDiesBut t.chip d)
    ∧ (s.chip.runs d = true → (s.chip.die d).snap.trig ≠ 0 →
      (s.chip.bit d SNAP_HDR0 SNAP_HDR0.HELD = false → ∃ t, exec (.snapshotLatch d) s = .next t
        ∧ t.chip.bit d SNAP_HDR0 SNAP_HDR0.HELD = true ∧ t.chip.get d SNAP_HDR0 SNAP_HDR0.TRIG = (s.chip.die d).snap.trig % 32
        ∧ t.chip.get d MOD_SNAP_STAT MOD_SNAP_STAT.STATE = 1 ∧ (t.chip.die d).snap.trig = 0
        ∧ (s.chip.on d 0 = true → (t.chip.get d MOD_SNAP_STAT MOD_SNAP_STAT.UNREAD).testBit d.val = true)
        ∧ (∀ b ∈ snapBlocks, ∀ r ∈ snapRuns b, ∀ i, (h : i < r.2.length) →
            t.chip.reg d (SNAP_WORD b (r.1 + i)) = s.chip.snapCopy d b (r.1 + i) r.2[i]) ∧ s.chip.sameDiesBut t.chip d)
      ∧ (s.chip.bit d SNAP_HDR0 SNAP_HDR0.HELD = true → ∃ t, exec (.snapshotLatch d) s = .next t ∧ (t.chip.die d).snap.trig = 0
        ∧ t.chip.get d MOD_SNAP_STAT MOD_SNAP_STAT.MISSED = min (s.chip.get d MOD_SNAP_STAT MOD_SNAP_STAT.MISSED + 1) 255
        ∧ s.chip.sameRegsBut t.chip d [ MOD_SNAP_STAT] ∧ s.chip.sameDiesBut t.chip d))
    ∧ (∀ force, s.chip.runs d = true → s.chip.armRefused d force = none → ∃ t, exec (.snapCtrlArm d force) s = .next t
        ∧ (∀ k, s.chip.on k 0 = true → (t.chip.die k).snap.armDue = true) ∧ s.chip.sameRegs t.chip)
    ∧ (s.chip.runs d = true → ∃ t, exec (.fire d) s = .next t ∧ (t.chip.die d).snap.trig = (s.chip.die d).snap.trig ||| 16
        ∧ s.chip.sameRegs t.chip ∧ s.chip.sameDiesBut t.chip d)
    ∧ (∀ latched, s.chip.on d 0 = true → s.chip.bit d SNAP_HDR0 SNAP_HDR0.HELD = true → ∃ t, exec (.snapHdr0Read d latched) s = .next t
        ∧ t.chip.bit d SNAP_HDR0 SNAP_HDR0.READ = true
        ∧ (∀ k, s.chip.on k 0 = true → (t.chip.get k MOD_SNAP_STAT MOD_SNAP_STAT.UNREAD).testBit d.val = false)
        ∧ t.chip.dies = s.chip.dies)

/-- R433, R434, R436, R291 to R293, R377: a transition held in fuses is in force when they are programmed, and uses up the authority; a key
fuse operation that no rule refuses takes the pump, and a good read-back sets its mark; a check-value run starts, waits while the unit is
busy, gives the result of its parameters, ends with ERR where a word of its range is not to be had, and can be ended.
Rests on choices of the model: log entries 3, 111 and 112. -/
def Obligations.LifecycleFusesAndCheckValues : Prop :=
∀ (d : Die) (s : State), s.Inv →
    (∀ st dst seq, s.chip.runs d = true → (s.chip.die d).lcy.target = some (st, dst, seq) → 1 ≤ st → st ≤ 4 →
      ∃ t, exec (.lifecycleTransitionDone d) s = .next t ∧ t.chip.get d LCY_STATE LCY_STATE.STATE = st
        ∧ t.chip.bit d LCY_STATE LCY_STATE.PUMP = false ∧ t.chip.bit d LCY_STATE LCY_STATE.AUTH = false
        ∧ (t.chip.die d).lcy.target = none ∧ (t.chip.die d).lcy.state = (if st = 3 then 2 else st)
        ∧ (st = 4 → t.chip.bit d CXS_STATUS CXS_STATUS.RETIRED = true ∧ t.chip.get d CMD_STAT CMD_STAT.FWSTATE = 4))
    ∧ (∀ (slot : Fin 4) op i, i = Instr.programSlot d slot ∧ op = 1 ∨ i = Instr.revokeSlot d slot ∧ op = 2
        ∨ i = Instr.programServiceKey d ∧ op = 3 ∧ slot = 0 → s.chip.fitted d = true → s.chip.on d 0 = true →
      s.chip.keyOpRefusal d op slot.val = none → ∃ t, exec i s = .next t ∧ t.chip.bit d LCY_FUSECMD LCY_FUSECMD.BUSY = true
        ∧ t.chip.bit d LCY_STATE LCY_STATE.PUMP = true
        ∧ (t.chip.die d).lcy.keyOp = some (op, slot.val,
            ((List.range 16).map fun n => leBytes 4 (s.chip.reg d (LCY_FUSEDATA n)).toNat).flatten)
        ∧ s.chip.sameRegsBut t.chip d [LCY_FUSECMD, LCY_STATE] ∧ s.chip.sameDiesBut t.chip d)
    ∧ (∀ op slot bytes, slot < 4 → s.chip.runs d = true → (s.chip.die d).lcy.keyOp = some (op, slot, bytes) →
      ∃ t, exec (.keyFuseProgrammingDone d true) s = .next t ∧ t.chip.bit d LCY_FUSECMD LCY_FUSECMD.BUSY = false
        ∧ t.chip.bit d LCY_STATE LCY_STATE.PUMP = false ∧ (t.chip.die d).lcy.keyOp = none
        ∧ (op = 1 → (t.chip.get d LCY_KEYS LCY_KEYS.PROG).testBit slot = true
            ∧ (t.chip.die d).lcy.keyHash = (s.chip.die d).lcy.keyHash.set slot (beValue (bytes.take 32)))
        ∧ (op = 2 → (t.chip.get d LCY_KEYS LCY_KEYS.REVOKED).testBit slot = true)
        ∧ (op = 3 → t.chip.bit d LCY_KEYS LCY_KEYS.SKEY = true ∧ (t.chip.die d).lcy.serviceKey = bytes)
        ∧ s.chip.sameRegsBut t.chip d [LCY_FUSECMD, LCY_STATE, LCY_KEYS] ∧ s.chip.sameDiesBut t.chip d)
    ∧ (s.chip.runsOn d 5 = true →
      (∀ fw, s.chip.bit d CHK_STAT CHK_STAT.BUSY = false → s.chip.chkParamsOk d = true →
        rangeOk (s.chip.reg d CHK_ADDR).toNat (s.chip.get d CHK_LEN CHK_LEN.LEN) = true → ∃ t, exec (.chkGo d fw) s = .next t
          ∧ t.chip.bit d CHK_STAT CHK_STAT.BUSY = true ∧ t.chip.bit d CHK_STAT CHK_STAT.OWNER = fw
          ∧ (t.chip.die d).chk.addr = (s.chip.reg d CHK_ADDR).toNat ∧ (t.chip.die d).chk.len = s.chip.get d CHK_LEN CHK_LEN.LEN
          ∧ s.chip.sameRegsBut t.chip d [CHK_STAT] ∧ s.chip.sameDiesBut t.chip d)
      ∧ (s.chip.bit d CHK_STAT CHK_STAT.BUSY = true →
        (∀ fw, ∃ t, exec (.chkGo d fw) s = .next t ∧ (t.chip.die d).chk.waiting = (s.chip.die d).chk.waiting ++ [fw]
          ∧ s.chip.sameRegs t.chip ∧ s.chip.sameDiesBut t.chip d)
        ∧ ((s.chip.die d).chk.serves = none → (s.chip.die d).chk.waiting = [] → ∀ ram, ram = (s.chip.die d).chk.addr / 0x100000 →
          (∃ t, exec (.chkAbort d) s = .next t ∧ t.chip.bit d CHK_STAT CHK_STAT.BUSY = false
            ∧ s.chip.sameRegsBut t.chip d [CHK_STAT] ∧ s.chip.sameDiesBut t.chip d)
          ∧ (∀ l, (s.chip.die d).chk.payload = some l → ∃ t, exec (.chkRunDone d none) s = .next t
            ∧ t.chip.reg d CHK_RES_LO = BitVec.ofNat 32 (s.chip.chkResult d l)
            ∧ t.chip.reg d CHK_RES_HI = BitVec.ofNat 32 (s.chip.chkResult d l / 2 ^ 32)
            ∧ t.chip.bit d CHK_STAT CHK_STAT.DONE = true ∧ t.chip.bit d CHK_STAT CHK_STAT.BUSY = false
            ∧ s.chip.sameRegsBut t.chip d [CHK_STAT, CHK_RES_LO, CHK_RES_HI] ∧ s.chip.sameDiesBut t.chip d)
          ∧ ((s.chip.die d).chk.payload = none →
            (s.chip.injected d (6 + 2 * ram) = false → s.chip.injected d (7 + 2 * ram) = false → ∃ t, exec (.chkRunDone d none) s = .next t
              ∧ t.chip.reg d CHK_RES_LO = BitVec.ofNat 32 (s.chip.chkResult d
                  ((List.range (s.chip.die d).chk.len).map fun i => s.chip.memByte d ((s.chip.die d).chk.addr + i)))
              ∧ t.chip.bit d CHK_STAT CHK_STAT.DONE = true ∧ t.chip.bit d CHK_STAT CHK_STAT.BUSY = false)
            ∧ (s.chip.injected d (6 + 2 * ram) = true → ∃ t, exec (.chkRunDone d none) s = .next t
              ∧ 147 + ram ∈ (t.chip.die d).fcol.reports ∧ t.chip.bit d CHK_STAT CHK_STAT.BUSY = false)
            ∧ (∀ ecc : Option EccTarget, ecc.isSome = true ∨ s.chip.injected d (7 + 2 * ram) = true →
              ∃ t, exec (.chkRunDone d ecc) s = .next t ∧ t.chip.bit d CHK_STAT CHK_STAT.ERR = true
                ∧ t.chip.bit d CHK_STAT CHK_STAT.BUSY = false ∧ 150 + ram ∈ (t.chip.die d).fcol.reports)))))

/-- R278 to R281, R284: a command of the session is journalled in its order, a copy of an answered one is answered DUPLICATE; the
guardian takes the mirror and the commit record; its acknowledgements accept the command, release its effects and send its answer, of a
write that every die takes once the master has done it; a gap that has lasted GAPTO pages is reported. That the activity of CAL_RUN
begins at the guardian's acknowledgement of the commit, not at the next stroke edge, is the model's choice (log entry 96).
Rests on choices of the model: log entries 88, 96 and 119. -/
def Obligations.JournalTakesMirrorsAndReleases : Prop :=
∀ (d : Die) (s : State), s.Inv →
    (∀ f : FrameIn, s.chip.fitted d = true → s.chip.on d 0 = true → s.chip.linked d = true → s.chip.address d ≠ 0 →
      s.chip.address d < 127 → Chip.validCmd f = true → (s.chip.die d).pwr.gasp = none → f.dmod = s.chip.address d → f.ddie = d.val →
      s.chip.frameLinkOk d f = true → pktOpcode f.payload ≠ 0x01 → pktOpcode f.payload ≠ 0x04 → (s.chip.die d).boot.stuck = false →
      (pktSession f.payload = s.chip.get d MOD_SESSION MOD_SESSION.SESSION →
        (s.chip.entry? d f.seq = none → f.seq = s.chip.expect d → (s.chip.die d).jnl.entries.length < 64 →
          (s.chip.guardianOf d).isSome = true → ∃ t, exec (.cmdFrameArrival d f) s = .next t
          ∧ (t.chip.die d).jnl.entries = (s.chip.die d).jnl.entries ++ [⟨pktSession f.payload, f.seq, f.tag, f.smod, f.payload, .accepted,
              false, 0, 0, [], false, [], false, 0, 0, false, true, none, 0⟩]
          ∧ t.chip.expect d = s.chip.expect d ∧ s.chip.sameRegsBut t.chip d [JNL_STAT] ∧ s.chip.sameDiesBut t.chip d)
        ∧ (∀ e, s.chip.entry? d f.seq = some e → e.st = .answered → ∃ t, exec (.cmdFrameArrival d f) s = .next t
          ∧ t.chip.answers d f.tag f.seq (pktOpcode f.payload) 0x02
          ∧ t.chip.get d JNL_CNT JNL_CNT.DUPS = min (s.chip.get d JNL_CNT JNL_CNT.DUPS + 1) (2 ^ JNL_CNT.DUPS.w - 1)
          ∧ (t.chip.die d).jnl = (s.chip.die d).jnl ∧ s.chip.sameRegsBut t.chip d [JNL_CNT] ∧ s.chip.sameDiesBut t.chip d)))
    ∧ (∀ (ward : Die) seq e, s.chip.entry? ward seq = some e → s.chip.guardianOf ward = some d →
      (s.chip.on d 0 = true → ∃ t, exec (.journalMirrorReceived d ward seq) s = .next t ∧ (ward, e) ∈ (t.chip.die d).jnl.mirrors
        ∧ s.chip.sameRegsBut t.chip d [JNL_GUARD, JNL_STAT] ∧ s.chip.sameDiesBut t.chip d)
      ∧ (e.st = .committed → ∃ t, exec (.commitRecordReceived d ward seq) s = .next t
        ∧ (t.chip.die d).jnl.mirrors = (s.chip.die d).jnl.mirrors.map (fun m => if m.1 == ward && m.2.seq == seq then (ward, e) else m)
        ∧ s.chip.sameRegs t.chip ∧ s.chip.sameDiesBut t.chip d))
    ∧ (∀ (g : Die) seq e m, s.chip.guardianOf d = some g → s.chip.entry? d seq = some e → (d, m) ∈ (s.chip.die g).jnl.mirrors →
      m.seq = seq →
      (e.st = .accepted → seq = s.chip.expect d → (s.chip.die d).jnl.entries = [e] → ∃ t, exec (.mirrorAckReceived d seq) s = .next t
        ∧ (t.chip.die d).jnl.entries = [{ e with mirrored := true }] ∧ t.chip.expect d = (seq + 1) % 65536
        ∧ s.chip.sameRegsBut t.chip d [JNL_STAT] ∧ s.chip.sameDiesBut t.chip d)
      ∧ (e.st = .committed → m.st = .committed → commonEntry e = true →
        (((s.chip.die d).jnl.due ++ e.effects).all fun x => !Chip.beginsActivity x) = true → ∃ t, exec (.commitAckReceived d seq) s = .next t
          ∧ (t.chip.die d).ring.queue = (s.chip.die d).ring.queue ∧ (∃ e', t.chip.entry? d seq = some e' ∧ e'.released = true)
          ∧ (s.chip.master d = d → (t.chip.die d).jnl.due = (s.chip.die d).jnl.due ++ e.effects)
          ∧ (s.chip.masterDone d e = false → s.chip.master d ≠ d → (t.chip.die d).jnl.due = (s.chip.die d).jnl.due)
          ∧ s.chip.sameRegs t.chip ∧ s.chip.sameDiesBut t.chip d)
      ∧ (e.st = .committed → m.st = .committed → e.relay = false → s.chip.address d ≠ 0 →
        (((s.chip.die d).jnl.due ++ e.effects).all (fun x => !Chip.beginsActivity x) = true →
          ∃ t, exec (.commitAckReceived d seq) s = .next t ∧ (t.chip.die d).jnl.due = (s.chip.die d).jnl.due ++ e.effects
          ∧ t.chip.answers d e.tag seq (pktOpcode e.packet) e.status
          ∧ (∃ e', t.chip.entry? d seq = some e' ∧ e'.st = .answered)
          ∧ (∀ (k : Die) a, a < 0x20000000 → a ≠ JNL_STAT → a ≠ JNL_GUARD → t.chip.reg k a = s.chip.reg k a))
        ∧ (∀ q, e.effects = [.act 0xB0 q] → p8 q 0 = 0 → (s.chip.die d).jnl.due = [] → ∃ t, exec (.commitAckReceived d seq) s = .next t
          ∧ t.chip.bit d CAL_STAT CAL_STAT.PENDING = true ∧ (t.chip.die d).jnl.due = []
          ∧ t.chip.answers d e.tag seq (pktOpcode e.packet) e.status)))
    ∧ (s.chip.runs d = true → s.chip.bit d JNL_STAT JNL_STAT.GAPWAIT = true → s.chip.get d JNL_CFG JNL_CFG.GAPTO ≠ 0 →
      1024 * s.chip.get d JNL_CFG JNL_CFG.GAPTO ≤ (s.chip.die d).jnl.gapStrokes → s.chip.address d ≠ 0 → ∃ t, exec (.seqGapEvent d) s = .next t
        ∧ (∃ f ∈ (t.chip.die d).ring.queue, f.ftype = 5 ∧ f.payload.take 8 = leBytes 2 0x0140 ++ leBytes 6 (s.chip.stroke d))
        ∧ (t.chip.die d).jnl.gapStrokes = 0 ∧ s.chip.sameRegs t.chip ∧ s.chip.sameDiesBut t.chip d)

/-- R7, R9, R21, R74, R274, R263, R291: a write of any register of a powered domain that no rule refuses takes its fields by their type
codes: RW fields take the word, RO, WO and reserved bits stay, W1C and STK bits clear, an LCK field is taken once; a module-common one
takes it in every live die (registers whose write is an operation, or has a rule of its own, have their own statements). PING is answered
whatever its SEQ; ENUMERATE gives a module without an address its address and a new session; CHECK takes the check-value unit.
Rests on choices of the model: log entries 14, 86 and 93. -/
def Obligations.RegisterWritesPingEnumerateAndCheck : Prop :=
∀ (d : Die) (s : State), s.Inv → s.chip.fitted d = true → s.chip.on d 0 = true →
    (∀ a r w, a < 0x20000000 → addrBad a = false → regDesc a = some r → (placeOf a).plane ≠ 3 → s.chip.on d (domIx a) = true →
      s.chip.regRefusal d a w 0xFFFF = none → s.chip.actsOnWrite d a = false → ∃ t, exec (.registerWrite d (fullAddr d a) w) s = .next t
        ∧ s.chip.takesWord t.chip d a r w ∧ s.chip.sameDiesBut t.chip d
        ∧ (writesOthers a = false → s.chip.sameRegsBut t.chip d [a]))
    ∧ (∀ a r w, a < 0x20000000 → addrBad a = false → regDesc a = some r → (placeOf a).plane = 3 → s.chip.on d (domIx a) = true →
      s.chip.regRefusal d a w 0xFFFF = none → s.chip.actsOnWrite d a = false → ∃ t, exec (.registerWrite d (fullAddr d a) w) s = .next t
        ∧ (∀ k ∈ s.chip.liveDies, s.chip.takesWord t.chip k a r w) ∧ t.chip.dies = s.chip.dies)
    ∧ (∀ w, s.chip.on d 2 = true →
      (∃ t, exec (.registerWrite d (fullAddr d SHD_OV) w) s = .next t ∧ t.chip.get d SHD_OV SHD_OV.CODE = SHD_OV.CODE.read w
        ∧ s.chip.sameRegsBut t.chip d [SHD_OV] ∧ t.chip.dies = s.chip.dies)
      ∧ (∃ t, exec (.registerWrite d (fullAddr d SHD_STATUS) w) s = .next t ∧ s.chip.sameRegs t.chip ∧ t.chip.dies = s.chip.dies))
    ∧ (∀ w, ∃ t, exec (.registerWrite d (fullAddr d MOD_SNAP_CFG) w) s = .next t
      ∧ (∀ k ∈ s.chip.liveDies, t.chip.get k MOD_SNAP_CFG MOD_SNAP_CFG.PIN_EN = MOD_SNAP_CFG.PIN_EN.read w
          ∧ t.chip.get k MOD_SNAP_CFG MOD_SNAP_CFG.PIN_POL = MOD_SNAP_CFG.PIN_POL.read w) ∧ t.chip.dies = s.chip.dies)
    ∧ (∀ f : FrameIn, s.chip.linked d = true → s.chip.address d ≠ 0 → Chip.validCmd f = true → (s.chip.die d).pwr.gasp = none →
      s.chip.frameLinkOk d f = true → f.dmod = s.chip.address d → f.ddie = d.val → pktOpcode f.payload = 0x01 → packetFault f.payload = none →
      ∃ t, exec (.ping d f) s = .next t
        ∧ (∃ g ∈ (t.chip.die d).ring.queue, g.ftype = 3 ∧ g.tag = f.tag ∧ g.seq = f.seq ∧ g.dmod = f.smod
          ∧ g.payload.drop 8 = leBytes 2 (s.chip.get d MOD_SESSION MOD_SESSION.SESSION) ++ leBytes 1 (s.chip.address d)
            ++ leBytes 1 (s.chip.get d MOD_TOPOLOGY MOD_TOPOLOGY.ALIVE) ++ leBytes 1 (s.chip.lifecycle d)
            ++ leBytes 1 (s.chip.get d CMD_STAT CMD_STAT.FWSTATE) ++ leBytes 2 (s.chip.expect d))
        ∧ t.chip.get d CMD_STAT CMD_STAT.LASTOP = 1 ∧ s.chip.sameRegsBut t.chip d [CMD_STAT] ∧ s.chip.sameDiesBut t.chip d)
    ∧ (∀ f : FrameIn, s.chip.on d 6 = true → Chip.validCmd f = true → (s.chip.die d).pwr.gasp = none →
      s.chip.frameLinkOk d f = true → f.dmod = 0 → pktOpcode f.payload = 0x04 → s.chip.master d = d →
      s.chip.address d = 0 → packetFault f.payload = none → 1 ≤ p8 (pktParams f.payload) 0 → p8 (pktParams f.payload) 0 ≤ 126 →
      ∃ t, exec (.enumerate d f) s = .next t
        ∧ (∀ k, s.chip.on k 0 = true → t.chip.address k = p8 (pktParams f.payload) 0 ∧ t.chip.expect k = 0
          ∧ t.chip.get k MOD_SESSION MOD_SESSION.SESSION
            = (if (p16 (pktParams f.payload) 2 + 1) % 65536 = 0 then 1 else (p16 (pktParams f.payload) 2 + 1) % 65536)))
    ∧ (∀ seq e q, s.chip.ready d seq 0xC0 0x22 q e → e.st = .accepted → s.chip.bit d CHK_STAT CHK_STAT.BUSY = false → p8 q 0 ≤ 3 →
      p8 q 1 = 0 → rangeOk (p32 q 4) (p32 q 8) = true → (s.chip.loadSet d (p8 q 0)).chkParamsOk d = true →
      ∃ t, exec (.check d seq) s = .next t ∧ t.chip.bit d CHK_STAT CHK_STAT.BUSY = true ∧ t.chip.bit d CHK_STAT CHK_STAT.OWNER = false
        ∧ (t.chip.die d).chk.serves = some seq ∧ (t.chip.die d).chk.addr = p32 q 4 ∧ (t.chip.die d).chk.len = p32 q 8
        ∧ (∃ e', t.chip.entry? d seq = some e' ∧ e'.st = .executing)
        ∧ s.chip.sameRegsBut t.chip d [CHK_STAT, CHK_CFG, CHK_POLY_LO, CHK_POLY_HI, CHK_INIT_LO, CHK_INIT_HI, CHK_XOR_LO, CHK_XOR_HI]
        ∧ s.chip.sameDiesBut t.chip d)

/-- R272, R274, R281, R437, R303: at its turn a command that reads is committed with status OK and the words or bytes of Table 10.4 as its
results, and changes nothing else.
Rests on choices of the model: log entries 5 and 85. -/
def Obligations.ReadingCommandsCommitTheirResults : Prop :=
∀ (d : Die) (seq : Nat) (q : List Byte) (e : Entry) (s : State), s.Inv →
    (∀ i op block res, (i, op, block, res) ∈ [
        (Instr.ringStatus d seq, 0x51, 0x07,
          ([ULK_PORT 0, ULK_PORT 1, ULK_ERR 0, ULK_ERR 1, ULK_MISS 0, ULK_MISS 1, ULK_BDELAY, ULK_PLLSTAT].map fun a =>
            leBytes 4 (s.chip.reg d a).toNat).flatten),
        (.folioStatus d seq, 0x72, 0x24, leBytes 1 (s.chip.get d FOL_STAT FOL_STAT.ACTIVE)
          ++ leBytes 1 (s.chip.get d FOL_STAT FOL_STAT.AVALID + 2 * s.chip.get d FOL_STAT FOL_STAT.BVALID
            + 4 * s.chip.get d FOL_STAT FOL_STAT.PENDING) ++ [0, 0] ++ leBytes 4 (s.chip.reg d FOL_SEQA).toNat
          ++ leBytes 4 (s.chip.reg d FOL_SEQB).toNat),
        (.faultRead d seq, 0x80, 0x26, (((List.range 8).map FCOL_STK ++ (List.range 8).map FCOL_LIVE ++ [FCOL_STATE]).map fun a =>
          leBytes 4 (s.chip.reg d a).toNat).flatten),
        (.sleepAbortStatus d seq, 0x92, 0x28, leBytes 1 (s.chip.get d PWR_ENTRY PWR_ENTRY.OUTCOME)
          ++ leBytes 1 (s.chip.get d PWR_ENTRY PWR_ENTRY.BLOCK) ++ leBytes 1 (s.chip.get d PWR_ENTRY PWR_ENTRY.REASON)
          ++ leBytes 1 (s.chip.get d PWR_ENTRY PWR_ENTRY.AP) ++ leBytes 6 (s.chip.die d).pwr.abortAt.toNat),
        (.lcyStatus d seq, 0xE0, 0x2A,
          leBytes 1 (s.chip.reg d LCY_STATE).toNat ++ [0, 0, 0] ++ leBytes 4 (s.chip.reg d LCY_KEYS).toNat),
        (.loadStatus d seq, 0x63, 0x23, if p16 q 0 ≠ s.chip.get d BOOT_LOAD BOOT_LOAD.LOADID then [0, 0, 0, 0, 0xFF, 0xFF, 0, 0]
          else leBytes 1 (s.chip.get d BOOT_LOAD BOOT_LOAD.STATE) ++ [0] ++ leBytes 2 (s.chip.get d BOOT_LOAD BOOT_LOAD.BLOCKS)
            ++ leBytes 2 (s.chip.firstMissing d) ++ [0, 0])] →
      s.chip.ready d seq op block q e → ∃ t, exec i s = .next t ∧ s.chip.commits t.chip d seq 0 0 res [])
    ∧ (s.chip.ready d seq 0x02 (s.chip.addressed d seq) q e → Chip.routeFault d (p32 q 0) false = none → 1 ≤ p8 q 4 → p8 q 4 ≤ 126 →
      (placeOf (p32 q 0)).word + p8 q 4 ≤ 1024 → ∃ t, exec (.read d seq) s = .next t
        ∧ s.chip.commits t.chip d seq 0 0
          ((s.chip.readWords d (p32 q 0 % 0x20000000) (p8 q 4)).map fun w => leBytes 4 w.toNat).flatten
          (Chip.readEffects (p32 q 0 % 0x20000000) (p8 q 4)))
    ∧ (s.chip.ready d seq 0x32 0x04 q e → p8 q 0 ≤ 3 → p8 q 1 ≤ 15 → 1 ≤ p8 q 3 → p8 q 3 ≤ 31 → p8 q 2 + p8 q 3 ≤ 32 →
      ∃ t, exec (.eisResults d seq) s = .next t ∧ s.chip.commits t.chip d seq 0 0
        ((List.range (4 * p8 q 3)).map fun i => leBytes 4 (s.chip.reg d (EIS_RES_R (p8 q 1) (p8 q 0) (p8 q 2) + 4 * i)).toNat).flatten [])
    ∧ (s.chip.ready d seq 0x40 0x06 q e → 1 ≤ p16 q 2 → p16 q 2 ≤ 31 → p16 q 0 + p16 q 2 ≤ 3072 →
      ∃ t, exec (.nibRead d seq) s = .next t ∧ s.chip.commits t.chip d seq 0 0
        (((List.range (p16 q 2)).map fun i => [ MOD_NIB_ID_LO (p16 q 0 + i), MOD_NIB_ID_HI (p16 q 0 + i), MOD_NIB_ENTRY (p16 q 0 + i),
          MOD_NIB_VALUE (p16 q 0 + i)]).flatten.map fun a => leBytes 4 (s.chip.reg (s.chip.master d) a).toNat).flatten [])
    ∧ (s.chip.ready d seq 0xD0 0x27 q e → 1 ≤ p8 q 4 → p8 q 4 ≤ 126 → p16 q 2 + p8 q 4 ≤ 1024 →
      ∃ t, exec (.snapRead d seq) s = .next t ∧ s.chip.commits t.chip d seq 0 0
        ((s.chip.readWords d (SNAP_WORD (p8 q 0) (p16 q 2)) (p8 q 4)).map fun w => leBytes 4 w.toNat).flatten
        (Chip.readEffects (SNAP_WORD (p8 q 0) (p16 q 2)) (p8 q 4)))
    ∧ (s.chip.ready d seq 0xE1 0x2A q e → s.chip.get d LCY_STATE LCY_STATE.AUTHFAIL < 8 → s.chip.bit d LCY_KEYS LCY_KEYS.SKEY = true →
      ∃ t, exec (.lcyChallenge d seq) s = .next t ∧ s.chip.commits t.chip d seq 0 0 s.chip.newNonce [.act 0xE1 s.chip.newNonce])

/-- R20, R21, R281, Table 10.4: at its turn a command that writes registers is committed with the writes as its effects (of a module-common
register with the die's own outcome after them); they take place at the next stroke edge once it is released.
Rests on choices of the model: log entries 84, 85 and 92. -/
def Obligations.WritingCommandsCommitTheirWrites : Prop :=
∀ (d : Die) (seq : Nat) (q : List Byte) (e : Entry) (s : State), s.Inv →
    (∀ w : Nat → Word, (∀ i, w i = BitVec.ofNat 32 (p32 q (4 * i))) →
      (s.chip.ready d seq 0x10 0x01 q e → ∃ t, exec (.streamSet d seq) s = .next t ∧ s.chip.commits t.chip d seq 0 0 []
        (([0, 1, 2].filter fun i => (p8 q 12).testBit i).map fun i =>
          .write (fullAddr d ([CFE_STREAMCFG, CFE_FILTSEL, CFE_NOTCH].getD i 0)) (w i)))
      ∧ (s.chip.ready d seq 0x11 0x30 q e → bitsSet [w 0, w 1, w 2, w 3] ≤ 32 → ∃ t, exec (.fineSelect d seq) s = .next t
        ∧ s.chip.commits t.chip d seq 0 0 [] (((List.range 4).map fun i => .write (fullAddr d (MOD_FINESEL i)) (w i))
          ++ [.act effOutcome (outcomeBytes d seq 0 0)]))
      ∧ (s.chip.ready d seq 0x20 0x10 q e → ∃ t, exec (.balManager d seq) s = .next t ∧ s.chip.commits t.chip d seq 0 0 []
        [.write (fullAddr d CXS_MGR) (w 0), .write (fullAddr d CXS_BAND) (w 1), .write (fullAddr d CXS_MGR_I) (w 2),
          .write (fullAddr d CXS_TARGET) (w 3)])
      ∧ (s.chip.ready d seq 0x50 0x30 q e → ∃ t, exec (.ringRole d seq) s = .next t
        ∧ s.chip.commits t.chip d seq 0 0 [] [.write (fullAddr d MOD_RING_ROLE) (w 0), .act effOutcome (outcomeBytes d seq 0 0)])
      ∧ (s.chip.ready d seq 0x81 0x26 q e → ∃ t, exec (.faultClear d seq) s = .next t
        ∧ s.chip.commits t.chip d seq 0 0 [] ((List.range 8).map fun i => .write (fullAddr d (FCOL_STK i)) (w i)))
      ∧ (s.chip.ready d seq 0x30 0x04 q e → p8 q 0 ≤ 3 → s.chip.planBusy d (p8 q 0) = false → ∃ t, exec (.eisPlan d seq) s = .next t
        ∧ s.chip.commits t.chip d seq 0 0 [] ([.write (fullAddr d (EIS_PLAN_HDR0 (p8 q 0))) (w 1),
            .write (fullAddr d (EIS_PLAN_HDR1 (p8 q 0))) (w 2)]
          ++ ((List.range (EIS_PLAN_HDR0.NBINS_M1.read (w 1) + 1)).map fun b =>
            [.write (fullAddr d (EIS_BIN_W0 (p8 q 0) b)) (w (3 + 2 * b)), .write (fullAddr d (EIS_BIN_W1 (p8 q 0) b)) (w (4 + 2 * b))]).flatten))
      ∧ (s.chip.ready d seq 0x31 0x04 q e → s.chip.sweepRefusal d (EIS_CMD.SWEEPER.read (w 0)) (EIS_CMD.PLAN.read (w 0))
          (EIS_CMD.CELL.read (w 0)) = none → ∃ t, exec (.eisStart d seq) s = .next t
        ∧ s.chip.commits t.chip d seq 0 0 [] [.write (fullAddr d EIS_CMD) (w 0)])
      ∧ (∀ k, k < 16 → s.chip.ready d seq 0x33 0x04 q e → p16 q 4 = 2 ^ k → ∃ t, exec (.ztModel d seq) s = .next t
        ∧ s.chip.commits t.chip d seq 0 0 [] [.write (fullAddr d EIS_ZT_CFG) (w 0), .write (fullAddr d (EIS_ZTA k)) (w 2),
            .write (fullAddr d (EIS_ZTB k)) (w 3), .write (fullAddr d (EIS_ZTC k)) (w 4)]))
    ∧ (s.chip.ready d seq 0x21 0x10 q e → 1 ≤ p8 q 0 → p8 q 0 ≤ 16 →
      (∀ i < p8 q 0, p8 q (1 + 5 * i) ≤ 15 ∧ p8 q (1 + 5 * i) < s.chip.cells d) → ∃ t, exec (.balCharge d seq) s = .next t
        ∧ s.chip.commits t.chip d seq 0 0 (leBytes 1 (p8 q 0)) ((List.range (p8 q 0)).map fun i =>
          .write (fullAddr d (CXS_QTGT (p8 q (1 + 5 * i)))) (BitVec.ofNat 32 (p32 q (2 + 5 * i)))))
    ∧ (∀ k, k < 16 → s.chip.ready d seq 0x22 0x10 q e → p16 q 0 = 2 ^ k → p16 q 2 ≤ 256 → s.chip.mode d FOL_MODENOW.BAL = true →
      ∃ t, exec (.balBleed d seq) s = .next t
        ∧ s.chip.commits t.chip d seq 0 0 [] [.write (fullAddr d (CXS_BLEED k)) (CXS_BLEED.DUTY.write 0 (p16 q 2))])
    ∧ (∀ f, (p8 q 1, f) ∈ [(0, QLN_CMD.CENSUS), (1, QLN_CMD.RESTART), (2, QLN_CMD.STOP)] → s.chip.ready d seq 0x43 0x05 q e →
      ∃ t, exec (.nibLane d seq) s = .next t ∧ s.chip.commits t.chip d seq 0 0 []
        (([0, 1].filter fun n => (p8 q 0).testBit n).map fun n => .write (fullAddr d (QLN_CMD n)) (f.write 0 1)))
    ∧ (∀ assoc i op w, (i, op, assoc) ∈ [(Instr.nibAssoc d seq, 0x41, true), (.nibAction d seq, 0x42, false)] →
      s.chip.ready d seq op 0x06 q e → p8 q 0 = 1 → ownerOf (p16 q 4) = d.val →
      s.chip.nibItemWord d assoc (p16 q 4) (p8 q 6) = some w → s.chip.entryWriteOk (p16 q 4) 2 w = true →
      ∃ t, exec i s = .next t ∧ s.chip.commits t.chip d seq 0 0 [1] [.write (fullAddr d (MOD_NIB_ENTRY (p16 q 4))) w])
    ∧ (s.chip.ready d seq 0xD1 0x27 q e → s.chip.armRefused d false = none → ∃ t, exec (.snapArm d seq) s = .next t
        ∧ s.chip.commits t.chip d seq 0 0 [] [.write (fullAddr d MOD_SNAP_CTRL) 1, .act effOutcome (outcomeBytes d seq 0 0)])
    ∧ (s.chip.ready d seq 0x03 (s.chip.addressed d seq) q e → p8 q 4 = 1 → Chip.routeFault d (p32 q 0) true = none →
      s.chip.regRefusal d (p32 q 0 % 0x20000000) (BitVec.ofNat 32 (p32 q 8)) 16 = none → ∃ t, exec (.write d seq) s = .next t
        ∧ s.chip.commits t.chip d seq 0 0 [1]
          (.write (fullAddr d (p32 q 0 % 0x20000000)) (BitVec.ofNat 32 (p32 q 8))
            :: (if (placeOf (p32 q 0)).plane = 3 then [.act effOutcome (outcomeBytes d seq 0 0)] else [])))

/-- R281, R398, R435, R434, Table 10.4: at its turn a command that starts an activity is committed with the activity as its effect.
Rests on choices of the model: log entries 85, 95 and 96. -/
def Obligations.ActingCommandsCommitTheirActs : Prop :=
∀ (d : Die) (seq : Nat) (q : List Byte) (e : Entry) (s : State), s.Inv →
    (∀ i op block, ((i, op, block) = (Instr.balStop d seq, 0x23, 0x10)
        ∨ (i, op, block) = (.folioWrite d seq, 0x70, 0x24) ∧ p16 q 0 % 4 = 0 ∧ p16 q 2 % 4 = 0 ∧ 4 ≤ p16 q 2 ∧ p16 q 2 ≤ 496
            ∧ p16 q 0 + p16 q 2 ≤ 4096 ∧ s.chip.bit d FOL_STAT FOL_STAT.PENDING = false
        ∨ (i, op, block) = (.faultInject d seq, 0x83, 0x26) ∧ s.chip.lifecycle d ≠ 4 ∧ 1 ≤ p8 q 0 ∧ p8 q 0 ≤ 13 ∧ 1 ≤ p8 q 1 ∧ p8 q 1 ≤ 15
        ∨ (i, op, block) = (.powerState d seq, 0x90, 0x28) ∧ p8 q 0 ≤ 4 ∧ (p8 q 0 = 2 → 1 ≤ p16 q 2 ∧ p16 q 2 ≤ 3600)
            ∧ (p8 q 0 ≠ 0 → s.chip.entering d = false)
        ∨ (i, op, block) = (.perfLevel d seq, 0x91, 0x28) ∧ p8 q 0 ≤ 3
        ∨ (i, op, block) = (.selftestRun d seq, 0xA0, 0x29) ∧ s.chip.lifecycle d ≠ 2 ∧ s.chip.lifecycle d ≠ 4 ∧ p8 q 0 ≤ 2
            ∧ (p8 q 1 ≤ 23 ∨ p8 q 1 = 255)
        ∨ (i, op, block) = (.calRun d seq, 0xB0, 0x25) ∧ p8 q 0 ≤ 1 ∧ (p8 q 0 = 1 → s.chip.lifecycle d = 3)) →
      s.chip.ready d seq op block q e → ∃ t, exec i s = .next t ∧ s.chip.commits t.chip d seq 0 0 [] [.act op q])
    ∧ (s.chip.ready d seq 0x71 0x24 q e → (s.chip.sealError d (p32 q 0) (p32 q 4)).1 = 0 → ∃ t, exec (.folioSeal d seq) s = .next t
        ∧ s.chip.commits t.chip d seq 0 0 (leBytes 1 (s.chip.inactiveB d).toNat) [.act 0x71 q])
    ∧ (s.chip.ready d seq 0x82 0x26 q e → s.chip.get d FCOL_STATE FCOL_STATE.STATE ≠ 3 → s.chip.resumeBlocker d = none →
      ∃ t, exec (.faultResume d seq) s = .next t ∧ s.chip.commits t.chip d seq 0 0 [] [.act 0x82 []])
    ∧ (s.chip.ready d seq 0xE2 0x2A q e → ∃ t, exec (.lcyResponse d seq) s = .next t
        ∧ (s.chip.responseOk d q = true → s.chip.commits t.chip d seq 0 0 [] [.act 0xE2 [1]])
        ∧ (s.chip.responseOk d q = false → s.chip.commits t.chip d seq 0x16 0 [] [.act 0xE2 [0]]))
    ∧ (s.chip.ready d seq 0xE3 0x2A q e → Chip.transitionListed (s.chip.lifecycle d) (p8 q 0) = true → p8 q 1 = 0x5A → p8 q 2 = 0xA5 →
      p8 q 3 = 0x3C → s.chip.transitionBlocker d (s.chip.lifecycle d) (p8 q 0) = none → ∃ t, exec (.lcyAdvance d seq) s = .next t
        ∧ s.chip.commits t.chip d seq 0 0 [] [.act 0xE3 (leBytes 1 (p8 q 0) ++ leBytes 1 d.val ++ leBytes 2 seq)])
    ∧ (∀ src, src = CmdSrc.entry seq →
      (∀ i op, (i, op) ∈ [(Instr.loadBegin d src, 0x60), (.loadData d src, 0x61)] → s.chip.ready d seq op 0x23 q e →
        ∃ t, exec i s = .next t ∧ s.chip.commits t.chip d seq 0 0 [] [.act op q])
      ∧ (s.chip.ready d seq 0x62 0x23 q e → ∃ t, exec (.loadEnd d src) s = .next t ∧ s.chip.commits t.chip d seq 0 0
        ((s.chip.applyLoadEnd d q).loadStatus d (p16 q 0)) [.act 0x62 q])
      ∧ (s.chip.ready d seq 0x64 0x23 q e → p16 q 0 = s.chip.get d BOOT_LOAD BOOT_LOAD.LOADID → p16 q 0 ≠ 0 → s.chip.lifecycle d ≠ 4 →
        s.chip.get d BOOT_LOAD BOOT_LOAD.STATE = 3 ∨ s.chip.get d CMD_STAT CMD_STAT.FWSTATE = 3 → ∃ t, exec (.loadBoot d src) s = .next t
        ∧ s.chip.commits t.chip d seq 0 0 [] [.act 0x64 q]))

/-- R276: a command of another session is answered STALE_SESSION (0x30) with the current session in its RSP, and is not journalled. -/
def Obligations.StaleSessionIsAnsweredAndNotJournalled : Prop :=
∀ (d : Die) (f : FrameIn) (s : State), s.Inv → s.chip.fitted d = true → s.chip.on d 0 = true → s.chip.linked d = true →
    s.chip.address d ≠ 0 → s.chip.address d < 127 → Chip.validCmd f = true → s.chip.frameLinkOk d f = true →
    (s.chip.die d).pwr.gasp = none → f.dmod = s.chip.address d →
    f.ddie = d.val → pktOpcode f.payload ≠ 0x01 → pktOpcode f.payload ≠ 0x04 → (s.chip.die d).boot.stuck = false →
    pktSession f.payload ≠ s.chip.get d MOD_SESSION MOD_SESSION.SESSION → ∃ t, exec (.cmdFrameArrival d f) s = .next t
      ∧ (∃ g ∈ (t.chip.die d).ring.queue, g.ftype = 3 ∧ g.dmod = f.smod ∧ g.tag = f.tag ∧ g.seq = f.seq
          ∧ g.payload.take 4 = leBytes 1 (pktOpcode f.payload) ++ leBytes 1 0x30
            ++ leBytes 2 (s.chip.get d MOD_SESSION MOD_SESSION.SESSION))
      ∧ t.chip.get d JNL_CNT JNL_CNT.REFUSED = min (s.chip.get d JNL_CNT JNL_CNT.REFUSED + 1) 255
      ∧ (t.chip.die d).jnl = (s.chip.die d).jnl ∧ s.chip.sameRegsBut t.chip d [JNL_CNT] ∧ s.chip.sameDiesBut t.chip d

/-- R124: while a sweeper runs a plan, a write to any of the plan's words is refused with REFUSED_INTERLOCK (0x12), by a write of the
register, by WRITE and by EIS_PLAN, and the word keeps its value. -/
def Obligations.PlanOfARunningSweepKeepsItsWords : Prop :=
∀ (d : Die) (p n : Nat) (s : State), s.Inv → s.chip.fitted d = true → s.chip.on d 0 = true → s.chip.on d 1 = true →
    p < 4 → s.chip.planBusy d p = true → n < 2 ∨ 0x10 ≤ n ∧ n < 0x50 →
    (∀ w off, s.chip.regRefusal d (regAddr 1 0x4 (0x20 + p) n) w off = some (0x12, 0))
    ∧ (∀ w, exec (.registerWrite d (fullAddr d (regAddr 1 0x4 (0x20 + p) n)) w) s = .next s)
    ∧ (∀ seq q e, s.chip.ready d seq 0x03 0x04 q e → p32 q 0 = fullAddr d (regAddr 1 0x4 (0x20 + p) n) → p8 q 4 = 1 →
      ∃ t, exec (.write d seq) s = .next t ∧ s.chip.commits t.chip d seq 0x12 0 [0] [])
    ∧ (∀ seq q e, s.chip.ready d seq 0x30 0x04 q e → p8 q 0 = p →
      ∃ t, exec (.eisPlan d seq) s = .next t ∧ s.chip.commits t.chip d seq 0x12 0 [] [])

/-- R41, R438: every command of the module answers a next state and leaves the queue as it was, in every state; the one stop is an
overvoltage beyond the absolute maximum rating of VSTK (100 V), where the spec specifies no behaviour. That the model stops there, and does so above 50,000 units of 2 mV, is the model's choice (log
entry 11); so is that a row whose condition does not hold does nothing (log entries 1 and 13). -/
def Obligations.EveryCommandCompletes : Prop :=
∀ (c : Instr) (s : State),
    ((∀ d v, c = .vstkOvervoltage d v → v ≤ 50000) → ∃ t, exec c s = .next t ∧ t.pending = s.pending)
    ∧ (∀ d v, c = .vstkOvervoltage d v → 50000 < v → exec c s = .fault .outsideAbsoluteMaximum)
end

