-- ==== Sys2Proof/Laws/Store.lean ====
section
/-! SUPPORT. The sparse stores: what a read gives after a write, and that every operation on a store keeps its canonical
form. -/
namespace Sys2Proof.Machine

/-! ### The register store -/

theorem storeGet_storePut (st : List (Nat × Word)) (a b : Nat) (w : Word) :
    storeGet (storePut st a w) b = if a = b then some w else storeGet st b := by
  induction st with
  | nil => simp [storePut, storeGet]
  | cons e st ih =>
    simp only [storePut]
    split
    · simp [storeGet]
    · split
      · simp only [storeGet]; grind
      · simp only [storeGet, ih]; grind

/-- An address below every entry is not listed. -/
theorem storeGet_of_lt (st : List (Nat × Word)) (a : Nat) (h : st.all (fun e => decide (a < e.1)) = true) :
    storeGet st a = none := by
  induction st with
  | nil => rfl
  | cons e st ih =>
    simp only [List.all_cons, Bool.and_eq_true, decide_eq_true_eq] at h
    simp only [storeGet, ih h.2]; grind

theorem storeGet_storeDel (st : List (Nat × Word)) (a b : Nat) (h : storeWf st = true) :
    storeGet (storeDel st a) b = if a = b then none else storeGet st b := by
  induction st with
  | nil => simp [storeDel, storeGet]
  | cons e st ih =>
    simp only [storeWf, Bool.and_eq_true] at h
    simp only [storeDel]
    split
    · next hk => subst hk; have := storeGet_of_lt st e.1 h.1.2; simp only [storeGet]; grind
    · simp only [storeGet, ih h.2]; grind

theorem storeDel_of_lt (st : List (Nat × Word)) (a : Nat) (h : st.all (fun e => decide (a < e.1)) = true) :
    storeDel st a = st := by
  induction st with
  | nil => rfl
  | cons e st ih =>
    simp only [List.all_cons, Bool.and_eq_true, decide_eq_true_eq] at h
    simp only [storeDel, ih h.2]; grind

/-- A write to the store in canonical form drops an entry or puts one in place. -/
theorem storeSet_eq (st : List (Nat × Word)) (a : Nat) (w : Word) (h : storeWf st = true) :
    storeSet st a w = if w = resetWord a then storeDel st a else storePut st a w := by
  induction st with
  | nil => rfl
  | cons e st ih =>
    obtain ⟨k, v⟩ := e
    simp only [storeWf, Bool.and_eq_true] at h
    have low : a < k → storeDel st a = st := fun hlt => storeDel_of_lt st a (by
      have h2 := h.1.2
      simp only [List.all_eq_true, decide_eq_true_eq] at h2 ⊢
      intro x hx; exact Nat.lt_trans hlt (h2 x hx))
    simp only [storeSet, storeDel, storePut, ih h.2]; grind

/-- A register read after a write to the store (R4, R11): the word written at its own address, and everywhere else what it
was. -/
theorem storeRead_storeSet (st : List (Nat × Word)) (a b : Nat) (w : Word) (h : storeWf st = true) :
    (storeGet (storeSet st a w) b).getD (resetWord b) = if a = b then w else (storeGet st b).getD (resetWord b) := by
  rw [storeSet_eq st a w h]
  split
  · simp only [storeGet_storeDel st a b h]; grind
  · simp only [storeGet_storePut]; grind

/-- Every entry of the store lies above an address. -/
theorem all_storePut (st : List (Nat × Word)) (a k : Nat) (w : Word) (h : st.all (fun e => decide (k < e.1)) = true)
    (ha : k < a) : (storePut st a w).all (fun e => decide (k < e.1)) = true := by
  induction st with
  | nil => simpa [storePut] using ha
  | cons e st ih =>
    simp only [List.all_cons, Bool.and_eq_true, decide_eq_true_eq] at h
    simp only [storePut]
    split
    · simp [h, ha]
    · split
      · simp [h, ha]
      · simp [h, ih h.2]

theorem all_storeDel (st : List (Nat × Word)) (a k : Nat) (h : st.all (fun e => decide (k < e.1)) = true) :
    (storeDel st a).all (fun e => decide (k < e.1)) = true := by
  induction st with
  | nil => rfl
  | cons e st ih =>
    simp only [List.all_cons, Bool.and_eq_true, decide_eq_true_eq] at h
    simp only [storeDel]
    split
    · exact h.2
    · simp [h.1, ih h.2]

theorem storeWf_storePut (st : List (Nat × Word)) (a : Nat) (w : Word) (h : storeWf st = true) (hw : w ≠ resetWord a) :
    storeWf (storePut st a w) = true := by
  induction st with
  | nil => simpa [storePut, storeWf] using hw
  | cons e st ih =>
    obtain ⟨k, v⟩ := e
    simp only [storeWf, Bool.and_eq_true] at h
    simp only [storePut]
    split
    · next hlt =>
      have : st.all (fun e => decide (a < e.1)) = true := by
        simp only [List.all_eq_true, decide_eq_true_eq] at h ⊢
        intro x hx; exact Nat.lt_trans hlt (h.1.2 x hx)
      simp [storeWf, h, hw, hlt, this]
    · split
      · next hk => subst hk; simp [storeWf, h, hw]
      · next h1 h2 =>
        have hk : k < a := by omega
        simp only [storeWf, Bool.and_eq_true]
        exact ⟨⟨h.1.1, all_storePut st a k w h.1.2 hk⟩, ih h.2⟩

theorem storeWf_storeDel (st : List (Nat × Word)) (a : Nat) (h : storeWf st = true) : storeWf (storeDel st a) = true := by
  induction st with
  | nil => rfl
  | cons e st ih =>
    obtain ⟨k, v⟩ := e
    simp only [storeWf, Bool.and_eq_true] at h
    simp only [storeDel]
    split
    · exact h.2
    · simp only [storeWf, Bool.and_eq_true]
      exact ⟨⟨h.1.1, all_storeDel st a k h.1.2⟩, ih h.2⟩

/-- A write keeps the canonical form of the register store. -/
theorem storeWf_storeSet (st : List (Nat × Word)) (a : Nat) (w : Word) (h : storeWf st = true) :
    storeWf (storeSet st a w) = true := by
  rw [storeSet_eq st a w h]
  split
  · exact storeWf_storeDel st a h
  · next hw => exact storeWf_storePut st a w h hw

/-- Dropping entries keeps the canonical form of the register store. -/
theorem storeWf_filter (st : List (Nat × Word)) (p : Nat × Word → Bool) (h : storeWf st = true) :
    storeWf (st.filter p) = true := by
  induction st with
  | nil => rfl
  | cons e st ih =>
    obtain ⟨k, v⟩ := e
    simp only [storeWf, Bool.and_eq_true] at h
    simp only [List.filter_cons]
    split
    · simp only [storeWf, Bool.and_eq_true]
      refine ⟨⟨h.1.1, ?_⟩, ih h.2⟩
      have h2 := h.1.2
      simp only [List.all_eq_true] at h2 ⊢
      intro x hx; exact h2 x (List.mem_filter.mp hx).1
    · exact ih h.2

/-- A run of writes keeps the canonical form of the register store. -/
theorem storeWf_foldl {α : Type} (l : List α) (fa : α → Nat) (fw : α → Word) (st : List (Nat × Word))
    (h : storeWf st = true) : storeWf (l.foldl (fun st e => storeSet st (fa e) (fw e)) st) = true := by
  induction l generalizing st with
  | nil => exact h
  | cons e l ih => exact ih _ (storeWf_storeSet st _ _ h)

/-! ### The words of a folio copy -/

theorem wordsWf_storePut (st : List (Nat × Word)) (a : Nat) (w : Word) (h : wordsWf st = true) (hw : w ≠ 0) :
    wordsWf (storePut st a w) = true := by
  induction st with
  | nil => simpa [storePut, wordsWf] using hw
  | cons e st ih =>
    obtain ⟨k, v⟩ := e
    simp only [wordsWf, Bool.and_eq_true] at h
    simp only [storePut]
    split
    · next hlt =>
      have : st.all (fun e => decide (a < e.1)) = true := by
        simp only [List.all_eq_true, decide_eq_true_eq] at h ⊢
        intro x hx; exact Nat.lt_trans hlt (h.1.2 x hx)
      simp only [wordsWf, Bool.and_eq_true, List.all_cons, decide_eq_true_eq]
      exact ⟨⟨bne_iff_ne.mpr hw, hlt, this⟩, h⟩
    · split
      · next hk => subst hk; simp only [wordsWf, Bool.and_eq_true]; exact ⟨⟨bne_iff_ne.mpr hw, h.1.2⟩, h.2⟩
      · next h1 h2 =>
        have hk : k < a := by omega
        simp only [wordsWf, Bool.and_eq_true]
        exact ⟨⟨h.1.1, all_storePut st a k w h.1.2 hk⟩, ih h.2⟩

theorem wordsWf_storeDel (st : List (Nat × Word)) (a : Nat) (h : wordsWf st = true) : wordsWf (storeDel st a) = true := by
  induction st with
  | nil => rfl
  | cons e st ih =>
    obtain ⟨k, v⟩ := e
    simp only [wordsWf, Bool.and_eq_true] at h
    simp only [storeDel]
    split
    · exact h.2
    · simp only [wordsWf, Bool.and_eq_true]
      exact ⟨⟨h.1.1, all_storeDel st a k h.1.2⟩, ih h.2⟩

/-! ### The code RAM -/

theorem all_ramSet (m : List (Nat × Byte)) (a k : Nat) (b : Byte) (h : m.all (fun e => decide (k < e.1)) = true)
    (ha : k < a) : (ramSet m a b).all (fun e => decide (k < e.1)) = true := by
  induction m with
  | nil => simp only [ramSet]; split <;> simp [ha]
  | cons e m ih =>
    simp only [List.all_cons, Bool.and_eq_true, decide_eq_true_eq] at h
    simp only [ramSet]
    split
    · split <;> simp [h, ha]
    · split
      · split <;> simp [h, ha]
      · simp [h, ih h.2]

theorem ramWf_ramSet (m : List (Nat × Byte)) (a : Nat) (b : Byte) (h : ramWf m = true) : ramWf (ramSet m a b) = true := by
  induction m with
  | nil => simp only [ramSet]; split <;> simp_all [ramWf]
  | cons e m ih =>
    obtain ⟨k, c⟩ := e
    simp only [ramWf, Bool.and_eq_true] at h
    simp only [ramSet]
    split
    · next hlt =>
      have : m.all (fun e => decide (a < e.1)) = true := by
        simp only [List.all_eq_true, decide_eq_true_eq] at h ⊢
        intro x hx; exact Nat.lt_trans hlt (h.1.2 x hx)
      split
      · simp only [ramWf, Bool.and_eq_true]; exact h
      · next hb =>
        simp only [ramWf, Bool.and_eq_true, List.all_cons, decide_eq_true_eq]
        exact ⟨⟨bne_iff_ne.mpr hb, hlt, this⟩, h⟩
    · split
      · next hk =>
        subst hk
        split
        · exact h.2
        · next hb => simp only [ramWf, Bool.and_eq_true]; exact ⟨⟨bne_iff_ne.mpr hb, h.1.2⟩, h.2⟩
      · next h1 h2 =>
        simp only [ramWf, Bool.and_eq_true]
        exact ⟨⟨h.1.1, all_ramSet m a k b h.1.2 (by omega)⟩, ih h.2⟩

/-- Bytes written from an address on keep the canonical form of the code RAM. -/
theorem ramWf_ramStore (m : List (Nat × Byte)) (a : Nat) (bs : List Byte) (h : ramWf m = true) :
    ramWf (ramStore m a bs) = true := by
  induction bs generalizing m a with
  | nil => exact h
  | cons b bs ih => exact ih _ _ (ramWf_ramSet m a b h)

theorem ramGet_ramSet (m : List (Nat × Byte)) (a x : Nat) (b : Byte) (h : ramWf m = true) :
    ramGet (ramSet m a b) x = if a = x then b else ramGet m x := by
  have low : ∀ (m : List (Nat × Byte)) (a : Nat), m.all (fun e => decide (a < e.1)) = true → ramGet m a = 0 := by
    intro m a h
    induction m with
    | nil => rfl
    | cons e m ih =>
      simp only [List.all_cons, Bool.and_eq_true, decide_eq_true_eq] at h
      simp only [ramGet, ih h.2]; grind
  induction m with
  | nil => simp only [ramSet]; split <;> simp_all [ramGet]
  | cons e m ih =>
    obtain ⟨k, c⟩ := e
    simp only [ramWf, Bool.and_eq_true] at h
    simp only [ramSet]
    split
    · next hlt =>
      have hl : ramGet m a = 0 := low m a (by
        simp only [List.all_eq_true, decide_eq_true_eq] at h ⊢
        intro x hx; exact Nat.lt_trans hlt (h.1.2 x hx))
      split
      · simp only [ramGet]; grind
      · simp only [ramGet]
    · split
      · next hk =>
        subst hk
        have hl := low m k h.1.2
        split
        · simp only [ramGet]; grind
        · simp only [ramGet]; grind
      · simp only [ramGet, ih h.2]; grind

end Sys2Proof.Machine
end

