-- ==== Sys2Proof/Laws/State.lean ====
section
/-! SUPPORT. What each part of the module reads as after each basic update, so that no later proof unfolds one. -/
namespace Sys2Proof.Machine

/-! ### Fields of a word (R4) -/

/-- A field read from a word that it was written into. -/
theorem Fld.read_write (f : Fld) (w : Word) (v : Nat) (h : f.lo + f.w ≤ 32) : f.read (f.write w v) = v % 2 ^ f.w := by
  have hm : ∀ i, f.mask.getLsbD i = (decide (i < 32) && decide (f.lo ≤ i) && decide (i < f.lo + f.w)) := by
    intro i
    simp only [Fld.mask, BitVec.getLsbD_ofNat, ← Nat.shiftLeft_eq, Nat.testBit_shiftLeft, Nat.testBit_two_pow_sub_one]
    grind
  apply Nat.eq_of_testBit_eq
  intro i
  simp only [Fld.read, ← Nat.shiftRight_eq_div_pow, Nat.testBit_mod_two_pow, Nat.testBit_shiftRight, BitVec.testBit_toNat, Fld.write,
    BitVec.getLsbD_or, BitVec.getLsbD_and, BitVec.getLsbD_not, hm, BitVec.getLsbD_ofNat, ← Nat.shiftLeft_eq, Nat.testBit_shiftLeft]
  by_cases hi : i < f.w
  · have h1 : f.lo + i < 32 := by omega
    simp [hi, h1]
  · simp [hi]

/-- A field read from a word that another field, apart from it, was written into. -/
theorem Fld.read_write_ne (f g : Fld) (w : Word) (v : Nat) (h : f.lo + f.w ≤ g.lo ∨ g.lo + g.w ≤ f.lo) :
    f.read (g.write w v) = f.read w := by
  have hm : ∀ i, g.mask.getLsbD i = (decide (i < 32) && decide (g.lo ≤ i) && decide (i < g.lo + g.w)) := by
    intro i
    simp only [Fld.mask, BitVec.getLsbD_ofNat, ← Nat.shiftLeft_eq, Nat.testBit_shiftLeft, Nat.testBit_two_pow_sub_one]
    grind
  apply Nat.eq_of_testBit_eq
  intro i
  simp only [Fld.read, ← Nat.shiftRight_eq_div_pow, Nat.testBit_mod_two_pow, Nat.testBit_shiftRight, BitVec.testBit_toNat, Fld.write,
    BitVec.getLsbD_or, BitVec.getLsbD_and, BitVec.getLsbD_not, hm, BitVec.getLsbD_ofNat, ← Nat.shiftLeft_eq, Nat.testBit_shiftLeft]
  by_cases hi : i < f.w
  · by_cases h32 : f.lo + i < 32
    · have h2 : ¬ (g.lo ≤ f.lo + i ∧ f.lo + i < g.lo + g.w) := by omega
      by_cases h3 : g.lo ≤ f.lo + i
      · have h4 : ¬ f.lo + i < g.lo + g.w := by omega
        have h5 : ¬ f.lo + i - g.lo < g.w := by omega
        simp [hi, h32, h3, h4, h5]
      · simp [hi, h32, h3]
    · have : w.getLsbD (f.lo + i) = false := BitVec.getLsbD_of_ge _ _ (by omega)
      simp [h32, this]
  · simp [hi]

/-! ### Addresses (R19) -/

theorem fullAddr_inj (d e : Die) (a b : Nat) (ha : a < 0x20000000) (hb : b < 0x20000000) :
    fullAddr d a = fullAddr e b ↔ d = e ∧ a = b := by
  simp only [fullAddr, Nat.mod_eq_of_lt ha, Nat.mod_eq_of_lt hb]
  constructor
  · intro h; exact ⟨Fin.ext (by omega), by omega⟩
  · rintro ⟨rfl, rfl⟩; rfl

/-- Registers at two local addresses are apart, whatever their dies. -/
theorem fullAddr_ne (d e : Die) (a b : Nat) (ha : a < 0x20000000) (hb : b < 0x20000000) (h : a ≠ b) :
    fullAddr d a ≠ fullAddr e b := fun he => h ((fullAddr_inj d e a b ha hb).mp he).2

/-- Registers of two dies are apart. -/
theorem fullAddr_ne_die (d e : Die) (a b : Nat) (h : d ≠ e) : fullAddr d a ≠ fullAddr e b := by
  simp only [fullAddr]
  have hv : d.val ≠ e.val := fun hv => h (Fin.ext hv)
  omega

namespace Chip

/-! ### The parts after a register write -/

@[simp] theorem setReg_dies (s : Chip) (d : Die) (a : Nat) (w : Word) : (s.setReg d a w).dies = s.dies := rfl
@[simp] theorem setReg_mod (s : Chip) (d : Die) (a : Nat) (w : Word) : (s.setReg d a w).mod = s.mod := rfl
@[simp] theorem setReg_free (s : Chip) (d : Die) (a : Nat) (w : Word) : (s.setReg d a w).free = s.free := rfl
@[simp] theorem setReg_die (s : Chip) (d e : Die) (a : Nat) (w : Word) : (s.setReg d a w).die e = s.die e := rfl
@[simp] theorem put_die (s : Chip) (d e : Die) (a : Nat) (f : Fld) (v : Nat) : (s.put d a f v).die e = s.die e := rfl
@[simp] theorem putB_die (s : Chip) (d e : Die) (a : Nat) (f : Fld) (b : Bool) : (s.putB d a f b).die e = s.die e := rfl
@[simp] theorem putI_die (s : Chip) (d e : Die) (a : Nat) (f : Fld) (v : Int) : (s.putI d a f v).die e = s.die e := rfl
@[simp] theorem putSat_die (s : Chip) (d e : Die) (a : Nat) (f : Fld) (v : Nat) : (s.putSat d a f v).die e = s.die e := rfl
@[simp] theorem inc_die (s : Chip) (d e : Die) (a : Nat) (f : Fld) (n : Nat) : (s.inc d a f n).die e = s.die e := rfl
@[simp] theorem put_free (s : Chip) (d : Die) (a : Nat) (f : Fld) (v : Nat) : (s.put d a f v).free = s.free := rfl
@[simp] theorem put_mod (s : Chip) (d : Die) (a : Nat) (f : Fld) (v : Nat) : (s.put d a f v).mod = s.mod := rfl

/-! ### The parts after a change of a die's hidden state -/

@[simp] theorem upd_regs (s : Chip) (d : Die) (f : DieX → DieX) : (s.upd d f).regs = s.regs := rfl
@[simp] theorem upd_mod (s : Chip) (d : Die) (f : DieX → DieX) : (s.upd d f).mod = s.mod := rfl
@[simp] theorem upd_free (s : Chip) (d : Die) (f : DieX → DieX) : (s.upd d f).free = s.free := rfl
@[simp] theorem upd_reg (s : Chip) (d e : Die) (f : DieX → DieX) (a : Nat) : (s.upd d f).reg e a = s.reg e a := rfl
@[simp] theorem upd_get (s : Chip) (d e : Die) (f : DieX → DieX) (a : Nat) (g : Fld) : (s.upd d f).get e a g = s.get e a g := rfl
@[simp] theorem upd_bit (s : Chip) (d e : Die) (f : DieX → DieX) (a : Nat) (g : Fld) : (s.upd d f).bit e a g = s.bit e a g := rfl

@[simp] theorem upd_die_self (s : Chip) (d : Die) (f : DieX → DieX) : (s.upd d f).die d = f (s.die d) := by
  simp [die, upd]

theorem upd_die_ne (s : Chip) (d e : Die) (f : DieX → DieX) (h : d ≠ e) : (s.upd d f).die e = s.die e := by
  have : d.val ≠ e.val := fun hv => h (Fin.ext hv)
  simp [die, upd, this]

@[simp] theorem draw_reg (s : Chip) (e : Die) (a : Nat) : s.draw.reg e a = s.reg e a := rfl
@[simp] theorem draw_get (s : Chip) (e : Die) (a : Nat) (g : Fld) : s.draw.get e a g = s.get e a g := rfl
@[simp] theorem draw_die (s : Chip) (e : Die) : s.draw.die e = s.die e := rfl
@[simp] theorem cond_true (s : Chip) (f : Chip → Chip) : s.cond true f = f s := rfl
@[simp] theorem cond_false (s : Chip) (f : Chip → Chip) : s.cond false f = s := rfl

/-! ### Registers after a register write -/

/-- A register at another address is untouched. -/
theorem reg_setReg_ne (s : Chip) (d e : Die) (a b : Nat) (w : Word) (h : fullAddr d a ≠ fullAddr e b) :
    (s.setReg d a w).reg e b = s.reg e b := by
  have key : ∀ (st : List (Nat × Word)) (x y : Nat), x ≠ y → storeGet (storeSet st x w) y = storeGet st y := by
    intro st x y hxy
    induction st with
    | nil => simp only [storeSet]; split <;> simp [storeGet, hxy]
    | cons p st ih => simp only [storeSet]; grind [storeGet]
  simp only [reg, setReg, key _ _ _ h]

/-- A register reads as what was written to it. -/
theorem reg_setReg_self (s : Chip) (d : Die) (a : Nat) (w : Word) (h : storeWf s.regs = true) : (s.setReg d a w).reg d a = w := by
  simp only [reg, setReg, storeRead_storeSet _ _ _ _ h, if_true]

/-- A field at another address is untouched. -/
theorem get_setReg_ne (s : Chip) (d e : Die) (a b : Nat) (w : Word) (f : Fld) (h : fullAddr d a ≠ fullAddr e b) :
    (s.setReg d a w).get e b f = s.get e b f := by
  simp only [get, reg_setReg_ne s d e a b w h]

theorem reg_put_ne (s : Chip) (d e : Die) (a b : Nat) (f : Fld) (v : Nat) (h : fullAddr d a ≠ fullAddr e b) :
    (s.put d a f v).reg e b = s.reg e b := reg_setReg_ne s d e a b _ h

theorem get_put_ne (s : Chip) (d e : Die) (a b : Nat) (f g : Fld) (v : Nat) (h : fullAddr d a ≠ fullAddr e b) :
    (s.put d a f v).get e b g = s.get e b g := get_setReg_ne s d e a b _ g h

/-- A field reads as what was put into it. -/
theorem get_put_self (s : Chip) (d : Die) (a : Nat) (f : Fld) (v : Nat) (h : storeWf s.regs = true) (hf : f.lo + f.w ≤ 32) :
    (s.put d a f v).get d a f = v % 2 ^ f.w := by
  simp only [get, put, reg_setReg_self _ _ _ _ h, Fld.read_write f _ v hf]

/-- A field of the same register apart from the one that was put is untouched. -/
theorem get_put_apart (s : Chip) (d : Die) (a : Nat) (f g : Fld) (v : Nat) (h : storeWf s.regs = true)
    (hf : g.lo + g.w ≤ f.lo ∨ f.lo + f.w ≤ g.lo) : (s.put d a f v).get d a g = s.get d a g := by
  simp only [get, put, reg_setReg_self _ _ _ _ h]
  exact Fld.read_write_ne g f _ v hf

/-! The same facts with the side conditions on local addresses, which a proof decides. -/

theorem reg_put_off (s : Chip) (d e : Die) (a b : Nat) (f : Fld) (v : Nat) (ha : a < 0x20000000) (hb : b < 0x20000000)
    (h : a ≠ b) : (s.put d a f v).reg e b = s.reg e b := reg_put_ne s d e a b f v (fullAddr_ne d e a b ha hb h)

theorem get_put_off (s : Chip) (d e : Die) (a b : Nat) (f g : Fld) (v : Nat) (ha : a < 0x20000000) (hb : b < 0x20000000)
    (h : a ≠ b) : (s.put d a f v).get e b g = s.get e b g := get_put_ne s d e a b f g v (fullAddr_ne d e a b ha hb h)

theorem get_setReg_off (s : Chip) (d e : Die) (a b : Nat) (w : Word) (g : Fld) (ha : a < 0x20000000) (hb : b < 0x20000000)
    (h : a ≠ b) : (s.setReg d a w).get e b g = s.get e b g := get_setReg_ne s d e a b w g (fullAddr_ne d e a b ha hb h)

theorem get_put_die (s : Chip) (d e : Die) (a b : Nat) (f g : Fld) (v : Nat) (h : d ≠ e) :
    (s.put d a f v).get e b g = s.get e b g := get_put_ne s d e a b f g v (fullAddr_ne_die d e a b h)

/-- A write keeps the register store in canonical form. -/
theorem put_store (s : Chip) (d : Die) (a : Nat) (f : Fld) (v : Nat) (h : storeWf s.regs = true) :
    storeWf (s.put d a f v).regs = true := by
  simp only [put, setReg]; exact storeWf_storeSet _ _ _ h

theorem setReg_store (s : Chip) (d : Die) (a : Nat) (w : Word) (h : storeWf s.regs = true) :
    storeWf (s.setReg d a w).regs = true := by
  simp only [setReg]; exact storeWf_storeSet _ _ _ h

/-! ### Every powered die -/

/-- A field put in every powered die reads as it in one of them. -/
theorem get_putAll (s : Chip) (e : Die) (a : Nat) (f : Fld) (v : Nat) (hs : storeWf s.regs = true) (he : s.on e 0 = true)
    (hf : f.lo + f.w ≤ 32) : (s.putAll a f v).get e a f = v % 2 ^ f.w := by
  have key : ∀ (l : List Die) (t : Chip), storeWf t.regs = true →
      (e ∈ l ∨ t.get e a f = v % 2 ^ f.w) → (t.each l fun d s => s.put d a f v).get e a f = v % 2 ^ f.w := by
    intro l
    induction l with
    | nil => intro t _ h; simpa [each] using h
    | cons d l ih =>
      intro t ht h
      refine ih _ (put_store t d a f v ht) ?_
      by_cases hd : d = e
      · subst hd; exact .inr (get_put_self t d a f v ht hf)
      · rw [get_put_die t d e a a f f v hd]
        rcases h with h | h
        · rcases List.mem_cons.mp h with h | h
          · exact absurd h.symm hd
          · exact .inl h
        · exact .inr h
  refine key _ s hs (.inl ?_)
  have : ∀ e : Die, e ∈ allDies := by decide
  exact List.mem_filter.mpr ⟨this e, he⟩

/-- A field put in every powered die leaves every register at another local address. -/
theorem reg_putAll_off (s : Chip) (e : Die) (a b : Nat) (f : Fld) (v : Nat) (ha : a < 0x20000000) (hb : b < 0x20000000)
    (h : a ≠ b) : (s.putAll a f v).reg e b = s.reg e b := by
  have key : ∀ (l : List Die) (t : Chip), (t.each l fun d s => s.put d a f v).reg e b = t.reg e b := by
    intro l
    induction l with
    | nil => intro t; rfl
    | cons d l ih => intro t; exact (ih _).trans (reg_put_off t d e a b f v ha hb h)
  exact key _ s

theorem putAll_store (s : Chip) (a : Nat) (f : Fld) (v : Nat) (hs : storeWf s.regs = true) :
    storeWf (s.putAll a f v).regs = true := by
  have key : ∀ (l : List Die) (t : Chip), storeWf t.regs = true → storeWf (t.each l fun d s => s.put d a f v).regs = true := by
    intro l
    induction l with
    | nil => intro t h; exact h
    | cons d l ih => intro t h; exact ih _ (put_store t d a f v h)
  exact key _ s hs

theorem putAll_die (s : Chip) (e : Die) (a : Nat) (f : Fld) (v : Nat) : (s.putAll a f v).die e = s.die e := by
  have key : ∀ (l : List Die) (t : Chip), (t.each l fun d s => s.put d a f v).die e = t.die e := by
    intro l
    induction l with
    | nil => intro t; rfl
    | cons d l ih => intro t; exact ih _
  exact key _ s

end Chip

/-! ### The outcome of a command -/

/-- A command that changes the module answers a next state with the same queue. -/
@[simp] theorem State.run_eq (s : State) (f : Chip → Chip) : s.run f = .next { s with chip := f s.chip } := rfl

end Sys2Proof.Machine
end

