-- ==== Sys2Proof/Laws/Ops.lean ====
section
/-! SUPPORT. What the shared operations leave: own frames and events, reports to the collector, and records that end early change no
register but the levels of the ring's buffers. -/
namespace Sys2Proof.Machine
namespace Chip

@[simp] theorem enqueue_reg (s : Chip) (d e : Die) (f : Frame) (a : Nat) : (s.enqueue d f).reg e a = s.reg e a := rfl
@[simp] theorem report_reg (s : Chip) (d e : Die) (n a : Nat) : (s.report d n).reg e a = s.reg e a := rfl
@[simp] theorem report_get (s : Chip) (d e : Die) (n a : Nat) (f : Fld) : (s.report d n).get e a f = s.get e a f := rfl
@[simp] theorem cause_reg (s : Chip) (d e : Die) (n a : Nat) (b : Bool) : (s.cause d n b).reg e a = s.reg e a := rfl
@[simp] theorem cause_get (s : Chip) (d e : Die) (n a : Nat) (b : Bool) (f : Fld) : (s.cause d n b).get e a f = s.get e a f := rfl
@[simp] theorem raise_reg (s : Chip) (d e : Die) (n a : Nat) : (s.raise d n).reg e a = s.reg e a := rfl
@[simp] theorem raise_get (s : Chip) (d e : Die) (n a : Nat) (f : Fld) : (s.raise d n).get e a f = s.get e a f := rfl
@[simp] theorem report_regs (s : Chip) (d : Die) (n : Nat) : (s.report d n).regs = s.regs := rfl
@[simp] theorem raise_regs (s : Chip) (d : Die) (n : Nat) : (s.raise d n).regs = s.regs := rfl
@[simp] theorem enqueue_regs (s : Chip) (d : Die) (f : Frame) : (s.enqueue d f).regs = s.regs := rfl

@[simp] theorem originate_regs (s : Chip) (d : Die) (t : Nat) (p : List Byte) (a b : Bool) :
    (s.originate d t p a b).regs = s.regs := by
  unfold originate; split <;> rfl

@[simp] theorem event_regs (s : Chip) (d : Die) (c : Nat) (b : List Byte) : (s.event d c b).regs = s.regs := by
  unfold event; split
  · rfl
  · exact originate_regs ..

/-- Chips with the same registers read alike. -/
theorem reg_congr {s t : Chip} (h : t.regs = s.regs) (d : Die) (a : Nat) : t.reg d a = s.reg d a := by simp only [reg, h]
theorem get_congr {s t : Chip} (h : t.regs = s.regs) (d : Die) (a : Nat) (f : Fld) : t.get d a f = s.get d a f := by
  simp only [get, reg, h]

@[simp] theorem event_reg (s : Chip) (d e : Die) (c a : Nat) (b : List Byte) : (s.event d c b).reg e a = s.reg e a :=
  reg_congr (event_regs ..) e a
@[simp] theorem event_get (s : Chip) (d e : Die) (c a : Nat) (b : List Byte) (f : Fld) : (s.event d c b).get e a f = s.get e a f :=
  get_congr (event_regs ..) e a f
@[simp] theorem event_mod (s : Chip) (d : Die) (c : Nat) (b : List Byte) : (s.event d c b).mod = s.mod := by
  unfold event originate; repeat' split
  all_goals rfl

/-- An event changes the die's ring alone. -/
theorem event_die (s : Chip) (d : Die) (c : Nat) (b : List Byte) :
    ∃ r, (s.event d c b).die d = { s.die d with ring := r } := by
  unfold event originate
  repeat' split
  · exact ⟨_, rfl⟩
  · exact ⟨_, rfl⟩
  · simp only [enqueue, takeSeq, upd_die_self]; exact ⟨_, rfl⟩

/-- A report joins those that the collector takes in its next window. -/
theorem report_reports (s : Chip) (d : Die) (n : Nat) : ((s.report d n).die d).fcol.reports = (s.die d).fcol.reports ++ [n] := by
  simp [report]

end Chip
end Sys2Proof.Machine
end

