-- ==== Sys2Proof/Laws/Frame.lean ====
section
/-! SUPPORT. The frames of the shared operations: each writes the register it names and changes the die it names, and nothing else. -/
namespace Sys2Proof.Machine
namespace Chip
variable {s t : Chip} {d e : Die} {as : List Nat}

theorem sameRegsBut_refl (s : Chip) (d : Die) (as : List Nat) : s.sameRegsBut s d as := fun _ _ _ => rfl

theorem sameRegsBut_put (h : s.sameRegsBut t d as) (a : Nat) (f : Fld) (v : Nat) (ha : a ∈ as) : s.sameRegsBut (t.put d a f v) d as :=
  fun e b hb => by rw [reg_put_ne _ _ _ _ _ _ _ (Ne.symm (hb a ha))]; exact h e b hb

theorem sameRegsBut_setReg (h : s.sameRegsBut t d as) (a : Nat) (w : Word) (ha : a ∈ as) : s.sameRegsBut (t.setReg d a w) d as :=
  fun e b hb => by rw [reg_setReg_ne _ _ _ _ _ _ (Ne.symm (hb a ha))]; exact h e b hb

theorem sameRegsBut_congr {u : Chip} (h : s.sameRegsBut t d as) (hu : u.regs = t.regs) : s.sameRegsBut u d as :=
  fun e b hb => (reg_congr hu e b).trans (h e b hb)

theorem sameRegsBut_upd (h : s.sameRegsBut t d as) (f : DieX → DieX) : s.sameRegsBut (t.upd e f) d as := sameRegsBut_congr h rfl

theorem sameRegsBut_event (h : s.sameRegsBut t d as) (c : Nat) (b : List Byte) : s.sameRegsBut (t.event e c b) d as :=
  sameRegsBut_congr h (event_regs ..)

theorem sameRegsBut_draw (h : s.sameRegsBut t d as) : s.sameRegsBut t.draw d as := sameRegsBut_congr h rfl

theorem sameRegsBut_cond (h : s.sameRegsBut t d as) (b : Bool) (f : Chip → Chip) (hf : s.sameRegsBut (f t) d as) :
    s.sameRegsBut (t.cond b f) d as := by
  unfold cond; split <;> assumption

theorem sameDiesBut_refl (s : Chip) (d : Die) : s.sameDiesBut s d := fun _ _ => rfl

theorem sameDiesBut_congr {u : Chip} (h : s.sameDiesBut t d) (hu : u.dies = t.dies) : s.sameDiesBut u d :=
  fun e he => (congrArg (fun x => x[e]) hu).trans (h e he)

theorem sameDiesBut_put (h : s.sameDiesBut t d) (a : Nat) (f : Fld) (v : Nat) : s.sameDiesBut (t.put e a f v) d := sameDiesBut_congr h rfl

theorem sameDiesBut_setReg (h : s.sameDiesBut t d) (a : Nat) (w : Word) : s.sameDiesBut (t.setReg e a w) d := sameDiesBut_congr h rfl

theorem sameDiesBut_draw (h : s.sameDiesBut t d) : s.sameDiesBut t.draw d := sameDiesBut_congr h rfl

theorem sameDiesBut_upd (h : s.sameDiesBut t d) (f : DieX → DieX) : s.sameDiesBut (t.upd d f) d :=
  fun e he => (upd_die_ne _ _ _ _ (Ne.symm he)).trans (h e he)

theorem sameDiesBut_event (h : s.sameDiesBut t d) (c : Nat) (b : List Byte) : s.sameDiesBut (t.event d c b) d := by
  unfold event originate
  repeat' split
  · exact h
  · exact h
  · simp only [enqueue, takeSeq]; exact sameDiesBut_upd (sameDiesBut_upd h _) _

theorem sameDiesBut_cond (h : s.sameDiesBut t d) (b : Bool) (f : Chip → Chip) (hf : s.sameDiesBut (f t) d) :
    s.sameDiesBut (t.cond b f) d := by
  unfold cond; split <;> assumption

end Chip
end Sys2Proof.Machine
end

