-- ==== Sys2Proof/Laws/KeepsCore.lean ====
section
/-! SUPPORT. Every operation keeps the stores in canonical form and what is watched: the shared operations. -/

namespace Sys2Proof.Machine

/-- What is watched while operations run: dies whose stroke number stays, and key slots whose fused marks stay (R436). -/
structure Watch where
  tick : Die → Prop
  num  : Die → Stroke
  prog : Die → Nat → Prop
  rev  : Die → Nat → Prop

/-- A die's stores are in canonical form, and what is watched of it holds. -/
def DieX.good (G : Watch) (d : Die) (x : DieX) : Prop :=
  x.wf = true ∧ (G.tick d → x.time.stroke = G.num d) ∧ (∀ n, G.prog d n → x.lcy.prog.testBit n = true)
    ∧ (∀ n, G.rev d n → x.lcy.revoked.testBit n = true)

/-- Every store is in canonical form, and what is watched holds in every die. -/
def Chip.good (G : Watch) (s : Chip) : Prop := storeWf s.regs = true ∧ ∀ d : Die, (s.die d).good G d

/-- Canonical stores are what holds where nothing else is watched. -/
theorem Chip.wf_iff_good (s : Chip) : s.wf ↔ s.good ⟨fun _ => False, fun _ => 0, fun _ _ => False, fun _ _ => False⟩ := by
  simp [Chip.wf, Chip.good, DieX.good]

theorem Chip.rest_good {G : Watch} (s : Chip) (m : ModX) (n : Nat) (hs : s.good G) : (Chip.mk s.regs s.dies m n).good G := hs

theorem Chip.ite_good {G : Watch} (c : Prop) [Decidable c] (s t : Chip) (hs : c → s.good G) (ht : ¬c → t.good G) :
    (if c then s else t).good G := by
  split
  · exact hs ‹_›
  · exact ht ‹_›

theorem Chip.foldl_good {G : Watch} {α : Type} (l : List α) (f : Chip → α → Chip) (s : Chip) (hs : s.good G)
    (hf : ∀ t x, t.good G → (f t x).good G) : (l.foldl f s).good G := by
  induction l generalizing s with
  | nil => exact hs
  | cons x l ih => exact ih _ (hf s x hs)

theorem Chip.setReg_good {G : Watch} (s : Chip) (d : Die) (a : Nat) (w : Word) (hs : s.good G) : (s.setReg d a w).good G := by
  constructor
  · simp only [Chip.setReg]; exact storeWf_storeSet _ _ _ hs.1
  · intro e; exact hs.2 e

theorem Chip.put_good {G : Watch} (s : Chip) (d : Die) (a : Nat) (f : Fld) (v : Nat) (hs : s.good G) :
    (Chip.put s d a f v).good G := by
  unfold Chip.put
  try dsimp only
  repeat' first
    | with_reducible (first | assumption | apply Chip.ite_good | apply Chip.setReg_good | apply Chip.foldl_good)
    | with_reducible intro _ | split

theorem Chip.putI_good {G : Watch} (s : Chip) (d : Die) (a : Nat) (f : Fld) (v : Int) (hs : s.good G) :
    (Chip.putI s d a f v).good G := by
  unfold Chip.putI
  try dsimp only
  repeat' first
    | with_reducible (first | assumption | apply Chip.put_good | apply Chip.ite_good | apply Chip.foldl_good)
    | with_reducible intro _ | split

theorem Chip.putB_good {G : Watch} (s : Chip) (d : Die) (a : Nat) (f : Fld) (b : Bool) (hs : s.good G) :
    (Chip.putB s d a f b).good G := by
  unfold Chip.putB
  try dsimp only
  repeat' first
    | with_reducible (first | assumption | apply Chip.put_good | apply Chip.ite_good | apply Chip.foldl_good)
    | with_reducible intro _ | split

theorem Chip.putSat_good {G : Watch} (s : Chip) (d : Die) (a : Nat) (f : Fld) (v : Nat) (hs : s.good G) :
    (Chip.putSat s d a f v).good G := by
  unfold Chip.putSat
  try dsimp only
  repeat' first
    | with_reducible (first | assumption | apply Chip.put_good | apply Chip.ite_good | apply Chip.foldl_good)
    | with_reducible intro _ | split

theorem Chip.inc_good {G : Watch} (s : Chip) (d : Die) (a : Nat) (f : Fld) (n : optParam Nat 1) (hs : s.good G) :
    (Chip.inc s d a f n).good G := by
  unfold Chip.inc
  try dsimp only
  repeat' first
    | with_reducible (first | assumption | apply Chip.putSat_good | apply Chip.ite_good | apply Chip.foldl_good)
    | with_reducible intro _ | split

theorem Chip.upd_good {G : Watch} (s : Chip) (d : Die) (f : DieX → DieX) (hs : s.good G)
    (hf : ∀ x : DieX, x.good G d → (f x).good G d) : (s.upd d f).good G := by
  refine ⟨hs.1, fun e => ?_⟩
  have hd := hs.2 d
  have he := hs.2 e
  simp only [Chip.die, Chip.upd, Fin.getElem_fin, Vector.getElem_set] at hd he ⊢
  split
  · next h => have : d = e := Fin.ext h
              subst this; exact hf _ hd
  · exact he

theorem Chip.cond_good {G : Watch} (s : Chip) (b : Bool) (f : Chip → Chip) (hs : s.good G) (hf : ∀ t, t.good G →
    (f t).good G) :
    (s.cond b f).good G := by
  unfold Chip.cond
  split
  · exact hf s hs
  · exact hs

theorem Chip.each_good {G : Watch} {α : Type} (s : Chip) (l : List α) (f : α → Chip → Chip) (hs : s.good G)
    (hf : ∀ x t, t.good G → (f x t).good G) : (s.each l f).good G :=
  Chip.foldl_good l _ s hs fun t x ht => hf x t ht

theorem Chip.draw_good {G : Watch} (s : Chip) (hs : s.good G) : (Chip.draw s).good G := by
  exact hs

theorem Chip.putAll_good {G : Watch} (s : Chip) (a : Nat) (f : Fld) (v : Nat) (hs : s.good G) :
    (Chip.putAll s a f v).good G := by
  unfold Chip.putAll
  try dsimp only
  repeat' first
    | with_reducible (first | assumption | apply Chip.put_good | apply Chip.ite_good | apply Chip.each_good
                            | apply Chip.foldl_good) | with_reducible intro _ | split

theorem Chip.takeSeq_good {G : Watch} (s : Chip) (d : Die) (t : Nat) (hs : s.good G) : (Chip.takeSeq s d t).2.good G := by
  unfold Chip.takeSeq
  try dsimp only
  repeat' first
    | with_reducible (first | assumption | apply Chip.ite_good | apply Chip.upd_good | apply Chip.foldl_good)
    | with_reducible intro _ | split | exact ‹DieX.good _ _ _›

theorem Chip.enqueue_good {G : Watch} (s : Chip) (d : Die) (f : Frame) (hs : s.good G) : (Chip.enqueue s d f).good G := by
  unfold Chip.enqueue
  try dsimp only
  repeat' first
    | with_reducible (first | assumption | apply Chip.ite_good | apply Chip.upd_good | apply Chip.foldl_good)
    | with_reducible intro _ | split | exact ‹DieX.good _ _ _›

theorem Chip.originate_good {G : Watch} (s : Chip) (d : Die) (t : Nat) (payload : List Byte) (a : Bool) (b : Bool)
    (hs : s.good G) :
    (Chip.originate s d t payload a b).good G := by
  unfold Chip.originate
  try dsimp only
  repeat' first
    | with_reducible (first | assumption | apply Chip.takeSeq_good | apply Chip.enqueue_good | apply Chip.ite_good
                            | apply Chip.foldl_good) | with_reducible intro _ | split

theorem Chip.stream_good {G : Watch} (s : Chip) (d : Die) (payload : List Byte) (a : Bool) (b : Bool) (hs : s.good G) :
    (Chip.stream s d payload a b).good G := by
  unfold Chip.stream
  try dsimp only
  repeat' first
    | with_reducible (first | assumption | apply Chip.takeSeq_good | apply Chip.enqueue_good | apply Chip.ite_good
                            | apply Chip.foldl_good) | with_reducible intro _ | split

theorem Chip.event_good {G : Watch} (s : Chip) (d : Die) (code : Nat) (body : List Byte) (hs : s.good G) :
    (Chip.event s d code body).good G := by
  unfold Chip.event
  try dsimp only
  repeat' first
    | with_reducible (first | assumption | apply Chip.originate_good | apply Chip.ite_good)
    | with_reducible intro _ | split

theorem Chip.report_good {G : Watch} (s : Chip) (d : Die) (src : Nat) (hs : s.good G) : (Chip.report s d src).good G := by
  unfold Chip.report
  try dsimp only
  repeat' first
    | with_reducible (first | assumption | apply Chip.ite_good | apply Chip.upd_good | apply Chip.foldl_good)
    | with_reducible intro _ | split | exact ‹DieX.good _ _ _›

theorem Chip.cause_good {G : Watch} (s : Chip) (d : Die) (src : Nat) (b : Bool) (hs : s.good G) :
    (Chip.cause s d src b).good G := by
  unfold Chip.cause
  try dsimp only
  repeat' first
    | with_reducible (first | assumption | apply Chip.ite_good | apply Chip.upd_good | apply Chip.foldl_good)
    | with_reducible intro _ | split | exact ‹DieX.good _ _ _›

theorem Chip.raise_good {G : Watch} (s : Chip) (d : Die) (src : Nat) (hs : s.good G) : (Chip.raise s d src).good G := by
  unfold Chip.raise
  try dsimp only
  repeat' first
    | with_reducible (first | assumption | apply Chip.report_good | apply Chip.cause_good | apply Chip.ite_good
                            | apply Chip.foldl_good) | with_reducible intro _ | split

theorem Chip.setSticky_good {G : Watch} (s : Chip) (d : Die) (n : Nat) (hs : s.good G) : (Chip.setSticky s d n).good G := by
  unfold Chip.setSticky
  try dsimp only
  repeat' first
    | with_reducible (first | assumption | apply Chip.put_good | apply Chip.ite_good | apply Chip.foldl_good)
    | with_reducible intro _ | split

theorem Chip.emptyWindow_good {G : Watch} (s : Chip) (d : Die) (k : Nat) (hs : s.good G) :
    (Chip.emptyWindow s d k).good G := by
  unfold Chip.emptyWindow
  try dsimp only
  repeat' first
    | with_reducible (first | assumption | apply Chip.put_good | apply Chip.ite_good | apply Chip.upd_good
                            | apply Chip.foldl_good) | with_reducible intro _ | split | exact ‹DieX.good _ _ _›

theorem Chip.endSevere_good {G : Watch} (s : Chip) (d : Die) (k : Nat) (hs : s.good G) : (Chip.endSevere s d k).good G := by
  unfold Chip.endSevere
  try dsimp only
  repeat' first
    | with_reducible (first | assumption | apply Chip.put_good | apply Chip.emptyWindow_good | apply Chip.ite_good
                            | apply Chip.foldl_good) | with_reducible intro _ | split

theorem Chip.clearSticky_good {G : Watch} (s : Chip) (d : Die) (w : Nat) (mask : Word) (hs : s.good G) :
    (Chip.clearSticky s d w mask).good G := by
  unfold Chip.clearSticky
  try dsimp only
  repeat' first
    | with_reducible (first | assumption | apply Chip.endSevere_good | apply Chip.ite_good | apply Chip.setReg_good
                            | apply Chip.foldl_good) | with_reducible intro _ | split

theorem Chip.faultEvent_good {G : Watch} (s : Chip) (d : Die) (src : Nat) (kind : Nat) (hs : s.good G) :
    (Chip.faultEvent s d src kind).good G := by
  unfold Chip.faultEvent
  try dsimp only
  repeat' first
    | with_reducible (first | assumption | apply Chip.event_good | apply Chip.ite_good | apply Chip.foldl_good)
    | with_reducible intro _ | split

theorem Chip.stateEvent_good {G : Watch} (s : Chip) (d : Die) (old : Nat) (new : Nat) (hs : s.good G) :
    (Chip.stateEvent s d old new).good G := by
  unfold Chip.stateEvent
  try dsimp only
  repeat' first
    | with_reducible (first | assumption | apply Chip.faultEvent_good | apply Chip.ite_good | apply Chip.foldl_good)
    | with_reducible intro _ | split

theorem Chip.setFaultState_good {G : Watch} (s : Chip) (d : Die) (v : Nat) (hs : s.good G) :
    (Chip.setFaultState s d v).good G := by
  unfold Chip.setFaultState
  try dsimp only
  repeat' first
    | with_reducible (first | assumption | apply Chip.stateEvent_good | apply Chip.put_good | apply Chip.ite_good
                            | apply Chip.foldl_good) | with_reducible intro _ | split

theorem Chip.useInjection_good {G : Watch} (s : Chip) (d : Die) (hs : s.good G) : (Chip.useInjection s d).good G := by
  unfold Chip.useInjection
  try dsimp only
  repeat' first
    | with_reducible (first | assumption | apply Chip.putB_good | apply Chip.put_good | apply Chip.ite_good
                            | apply Chip.cond_good | apply Chip.foldl_good) | with_reducible intro _ | split

theorem Chip.trigger_good {G : Watch} (s : Chip) (d : Die) (bitNo : Nat) (cycle : Nat) (hs : s.good G) :
    (Chip.trigger s d bitNo cycle).good G := by
  unfold Chip.trigger
  try dsimp only
  repeat' first
    | with_reducible (first | assumption | apply Chip.upd_good | apply Chip.ite_good)
    | with_reducible intro _ | split | exact ‹DieX.good _ _ _›

theorem Chip.driveFaultN_good {G : Watch} (s : Chip) (hs : s.good G) : (Chip.driveFaultN s).good G := by
  unfold Chip.driveFaultN
  exact Chip.each_good _ _ _ hs fun _ t ht => Chip.putB_good _ _ _ _ _ ht

theorem Chip.showFaultOrder_good {G : Watch} (s : Chip) (d : Die) (hs : s.good G) :
    (Chip.showFaultOrder s d).good G := by
  unfold Chip.showFaultOrder
  try dsimp only
  repeat' first
    | with_reducible (first | assumption | apply Chip.upd_good | apply Chip.driveFaultN_good | apply Chip.ite_good)
    | with_reducible intro _ | split | exact ‹DieX.good _ _ _›

theorem Chip.directOrder_good {G : Watch} (s : Chip) (d : Die) (hs : s.good G) : (Chip.directOrder s d).good G := by
  unfold Chip.directOrder
  refine Chip.ite_good _ _ _ (fun _ => ?_) fun _ => Chip.upd_good _ _ _ hs fun x hx => hx
  exact Chip.each_good _ _ _ (Chip.rest_good s _ _ hs) fun _ t ht => Chip.putB_good _ _ _ _ _ ht

theorem Chip.showLevel_good {G : Watch} (s : Chip) (d : Die) (hs : s.good G) : (Chip.showLevel s d).good G := by
  unfold Chip.showLevel
  try dsimp only
  repeat' first
    | with_reducible (first | assumption | apply Chip.putSat_good | apply Chip.ite_good | apply Chip.foldl_good)
    | with_reducible intro _ | split

theorem Chip.queueGapOf_good {G : Watch} (s : Chip) (d : Die) (first : Nat) (count : Nat) (cause : Nat) (m : Nat) (hs
    : s.good G) :
    (Chip.queueGapOf s d first count cause m).good G := by
  unfold Chip.queueGapOf
  try dsimp only
  repeat' first
    | with_reducible (first | assumption | apply Chip.upd_good | apply Chip.stream_good | apply Chip.cause_good
                            | apply Chip.showLevel_good | apply Chip.ite_good)
    | with_reducible intro _ | split | exact ‹DieX.good _ _ _›

theorem Chip.queueGap_good {G : Watch} (s : Chip) (d : Die) (first : Nat) (count : Nat) (cause : Nat) (mask : Nat)
    (hs : s.good G) :
    (Chip.queueGap s d first count cause mask).good G := by
  unfold Chip.queueGap
  try dsimp only
  repeat' first
    | with_reducible (first | assumption | apply Chip.cause_good | apply Chip.queueGapOf_good)
    | with_reducible intro _ | split

theorem Chip.offerNow_good {G : Watch} (s : Chip) (d : Die) (payload : List Byte) (rings : Nat) (cls : Nat) (first :
    Nat) (stop : Nat) (hs : s.good G) :
    (Chip.offerNow s d payload rings cls first stop).good G := by
  unfold Chip.offerNow
  try dsimp only
  repeat' first
    | with_reducible (first | assumption | apply Chip.inc_good | apply Chip.upd_good | apply Chip.stream_good
                            | apply Chip.report_good | apply Chip.showLevel_good | apply Chip.queueGap_good
                            | apply Chip.ite_good)
    | with_reducible intro _ | split | exact ‹DieX.good _ _ _›

theorem Chip.offerStream_good {G : Watch} (s : Chip) (d : Die) (payload : List Byte) (rings : Nat) (cls : Nat) (first : Nat)
    (stop : Nat) (hs : s.good G) :
    (Chip.offerStream s d payload rings cls first stop).good G := by
  unfold Chip.offerStream
  try dsimp only
  repeat' first
    | with_reducible (first | assumption | apply Chip.upd_good | apply Chip.offerNow_good | apply Chip.ite_good)
    | with_reducible intro _ | split | exact ‹DieX.good _ _ _›

theorem Chip.offerLate_good {G : Watch} (d : Die) (s : Chip) (hs : s.good G) : (Chip.offerLate d s).good G := by
  unfold Chip.offerLate
  try dsimp only
  repeat' first
    | with_reducible (first | assumption | apply Chip.upd_good | apply Chip.each_good | apply Chip.offerNow_good)
    | with_reducible intro _ | split | exact ‹DieX.good _ _ _›

theorem Chip.closeFrame_good {G : Watch} (s : Chip) (d : Die) (cls : Nat) (hs : s.good G) :
    (Chip.closeFrame s d cls).good G := by
  unfold Chip.closeFrame
  try dsimp only
  repeat' first
    | with_reducible (first | assumption | apply Chip.offerStream_good | apply Chip.ite_good | apply Chip.upd_good
                            | apply Chip.foldl_good) | with_reducible intro _ | split | exact ‹DieX.good _ _ _›

theorem Chip.stepSpoil_good {G : Watch} (s : Chip) (d : Die) (hs : s.good G) : (Chip.stepSpoil s d).good G := by
  unfold Chip.stepSpoil
  try dsimp only
  repeat' first
    | with_reducible (first | assumption | apply Chip.upd_good | apply Chip.ite_good)
    | with_reducible intro _ | split | exact ‹DieX.good _ _ _›

theorem Chip.owdSpoil_good {G : Watch} (s : Chip) (d : Die) (first : Nat) (count : Nat) (hs : s.good G) :
    (Chip.owdSpoil s d first count).good G := by
  unfold Chip.owdSpoil
  try dsimp only
  repeat' first
    | with_reducible (first | assumption | apply Chip.upd_good | apply Chip.ite_good)
    | with_reducible intro _ | split | exact ‹DieX.good _ _ _›

theorem Chip.gapOf_good {G : Watch} (s : Chip) (d : Die) (first : Nat) (count : Nat) (cause : Nat) (m : Nat) (hs : s.good G) :
    (Chip.gapOf s d first count cause m).good G := by
  unfold Chip.gapOf
  try dsimp only
  repeat' first
    | with_reducible (first | assumption | apply Chip.cause_good | apply Chip.queueGap_good
                            | apply Chip.closeFrame_good | apply Chip.owdSpoil_good | apply Chip.cond_good
                            | apply Chip.ite_good)
    | with_reducible intro _ | split

theorem Chip.gap_good {G : Watch} (s : Chip) (d : Die) (first : Nat) (count : Nat) (cause : Nat) (hs : s.good G) :
    (Chip.gap s d first count cause).good G := by
  unfold Chip.gap
  try dsimp only
  repeat' first
    | with_reducible (first | assumption | apply Chip.gapOf_good | apply Chip.ite_good | apply Chip.foldl_good)
    | with_reducible intro _ | split

theorem Chip.respond_good {G : Watch} (s : Chip) (d : Die) (die : Die) (smod : Nat) (tag : Nat) (seq : Nat) (opcode : Nat)
    (status : Nat) (detail : Nat) (mask : Nat) (results : List Byte) (hs : s.good G) :
    (Chip.respond s d die smod tag seq opcode status detail mask results).good G := by
  unfold Chip.respond
  try dsimp only
  repeat' first
    | with_reducible (first | assumption | apply Chip.enqueue_good | apply Chip.ite_good | apply Chip.foldl_good)
    | with_reducible intro _ | split

theorem Chip.setPll_good {G : Watch} (s : Chip) (d : Die) (st : Nat) (hs : s.good G) : (Chip.setPll s d st).good G := by
  unfold Chip.setPll
  try dsimp only
  repeat' first
    | with_reducible (first | assumption | apply Chip.putB_good | apply Chip.put_good | apply Chip.ite_good
                            | apply Chip.foldl_good) | with_reducible intro _ | split

theorem Chip.updTime_good {G : Watch} (s : Chip) (d : Die) (f : TimeX → TimeX) (hs : s.good G) (hf : ∀ t,
    (f t).stroke = t.stroke) :
    (Chip.updTime s d f).good G := by
  exact Chip.upd_good _ _ _ hs fun x hx => ⟨hx.1, fun ht => (hf _).trans (hx.2.1 ht), hx.2.2⟩

theorem Chip.updRing_good {G : Watch} (s : Chip) (d : Die) (f : RingX → RingX) (hs : s.good G) :
    (Chip.updRing s d f).good G := by
  unfold Chip.updRing
  try dsimp only
  repeat' first
    | with_reducible (first | assumption | apply Chip.ite_good | apply Chip.upd_good | apply Chip.foldl_good)
    | with_reducible intro _ | split | exact ‹DieX.good _ _ _›

theorem Chip.setStroke_good {G : Watch} (s : Chip) (d : Die) (n : Nat) (hs : s.good G) (ht : ∀ e, ¬ G.tick e) :
    (Chip.setStroke s d n).good G := by
  exact Chip.upd_good _ _ _ hs fun x hx => ⟨hx.1, fun h => absurd h (ht d), hx.2.2⟩

theorem Chip.portEvent_good {G : Watch} (s : Chip) (d : Die) (p : Nat) (new : Nat) (old : Nat) (hs : s.good G) :
    (Chip.portEvent s d p new old).good G := by
  unfold Chip.portEvent
  try dsimp only
  repeat' first
    | with_reducible (first | assumption | apply Chip.event_good | apply Chip.ite_good | apply Chip.cond_good
                            | apply Chip.foldl_good) | with_reducible intro _ | split

theorem Chip.linkFail_good {G : Watch} (s : Chip) (d : Die) (p : Port) (key : Nat × Nat × Nat) (hs : s.good G) :
    (Chip.linkFail s d p key).good G := by
  unfold Chip.linkFail
  try dsimp only
  repeat' first
    | with_reducible (first | assumption | apply Chip.inc_good | apply Chip.report_good
                            | apply Chip.useInjection_good | apply Chip.updRing_good | apply Chip.ite_good)
    | with_reducible intro _ | split

theorem Chip.frameLinkFail_good {G : Watch} (s : Chip) (d : Die) (f : FrameIn) (hs : s.good G) :
    (Chip.frameLinkFail s d f).good G := by
  unfold Chip.frameLinkFail
  try dsimp only
  repeat' first
    | with_reducible (first | assumption | apply Chip.linkFail_good)
    | with_reducible intro _ | split

theorem Chip.roleConflict_good {G : Watch} (s : Chip) (d : Die) (smod : Nat) (hs : s.good G) :
    (Chip.roleConflict s d smod).good G := by
  unfold Chip.roleConflict
  try dsimp only
  repeat' first
    | with_reducible (first | assumption | apply Chip.report_good | apply Chip.event_good | apply Chip.putAll_good
                            | apply Chip.ite_good | apply Chip.foldl_good) | with_reducible intro _ | split

theorem Chip.copyPackCurrent_good {G : Watch} (s : Chip) (d : Die) (announced : Nat) (current : Nat) (hs : s.good G) :
    (Chip.copyPackCurrent s d announced current).good G := by
  unfold Chip.copyPackCurrent
  try dsimp only
  repeat' first
    | with_reducible (first | assumption | apply Chip.put_good | apply Chip.upd_good | apply Chip.ite_good)
    | with_reducible intro _ | split | exact ‹DieX.good _ _ _›

theorem Chip.wakeCorrection_good {G : Watch} (s : Chip) (d : Die) (delta : Int) (hs : s.good G) :
    (Chip.wakeCorrection s d delta).good G := by
  unfold Chip.wakeCorrection
  try dsimp only
  repeat' first
    | with_reducible (first | assumption | apply Chip.put_good | apply Chip.putI_good | apply Chip.report_good
                            | apply Chip.event_good | apply Chip.ite_good | apply Chip.cond_good | apply Chip.foldl_good)
    | with_reducible intro _ | split

theorem Chip.freqOff_good {G : Watch} (s : Chip) (d : Die) (hs : s.good G) : (Chip.freqOff s d).good G := by
  unfold Chip.freqOff
  try dsimp only
  repeat' first
    | with_reducible (first | assumption | apply Chip.putI_good | apply Chip.draw_good)
    | with_reducible intro _ | split

theorem Chip.discipline_good {G : Watch} (s : Chip) (d : Die) (delta : Int) (offset : Int) (hs : s.good G) :
    (Chip.discipline s d delta offset).good G := by
  unfold Chip.discipline
  try dsimp only
  repeat' first
    | with_reducible (first | assumption | apply Chip.putI_good | apply Chip.upd_good | apply Chip.setPll_good
                            | apply Chip.updTime_good | apply Chip.wakeCorrection_good | apply Chip.freqOff_good
                            | apply Chip.cond_good | apply Chip.ite_good)
    | exact fun (_ : TimeX) => rfl | with_reducible intro _ | split | exact ‹DieX.good _ _ _›

theorem Chip.send_good {G : Watch} (s : Chip) (d : Die) (p : Port) (f : Frame) (bad : Bool) (hs : s.good G) :
    (Chip.send s d p f bad).good G := by
  unfold Chip.send
  try dsimp only
  repeat' first
    | with_reducible (first | assumption | apply Chip.updRing_good)
    | with_reducible intro _ | split

theorem Chip.beaconWaits_good {G : Watch} (s : Chip) (d : Die) (p : Port) (hs : s.good G) :
    (Chip.beaconWaits s d p).good G := by
  unfold Chip.beaconWaits
  try dsimp only
  repeat' first
    | with_reducible (first | assumption | apply Chip.updRing_good | apply Chip.cond_good)
    | with_reducible intro _ | split

theorem Chip.passOn_good {G : Watch} (s : Chip) (d : Die) (p : Port) (f : Frame) (bad : Bool) (hs : s.good G) :
    (Chip.passOn s d p f bad).good G := by
  unfold Chip.passOn
  try dsimp only
  repeat' first
    | with_reducible (first | assumption | apply Chip.put_good | apply Chip.draw_good | apply Chip.updRing_good
                            | apply Chip.send_good | apply Chip.beaconWaits_good | apply Chip.ite_good)
    | with_reducible intro _ | split

theorem Chip.forward_good {G : Watch} (s : Chip) (d : Die) (p : Port) (f : Frame) (bad : Bool) (hs : s.good G) :
    (Chip.forward s d p f bad).good G := by
  unfold Chip.forward
  try dsimp only
  repeat' first
    | with_reducible (first | assumption | apply Chip.inc_good | apply Chip.passOn_good | apply Chip.ite_good
                            | apply Chip.foldl_good) | with_reducible intro _ | split

theorem Chip.forwardBeacon_good {G : Watch} (s : Chip) (d : Die) (p : Port) (smod : Nat) (sdie : Die) (wrap : Bool)
    (announced : Nat) (current : Nat) (delay : Nat) (bad : Bool) (hs : s.good G) :
    (Chip.forwardBeacon s d p smod sdie wrap announced current delay bad).good G := by
  unfold Chip.forwardBeacon
  try dsimp only
  repeat' first
    | with_reducible (first | assumption | apply Chip.forward_good)
    | with_reducible intro _ | split

theorem Chip.beaconReceived_good {G : Watch} (d : Die) (p : Port) (smod : Nat) (sdie : Die) (wrap : Bool) (announced :
    Nat) (current : Nat) (delay : Nat) (offset : Int) (s : Chip) (hs : s.good G) :
    (Chip.beaconReceived d p smod sdie wrap announced current delay offset s).good G := by
  unfold Chip.beaconReceived
  try dsimp only
  repeat' first
    | with_reducible (first | assumption | apply Chip.put_good | apply Chip.updTime_good | apply Chip.linkFail_good
                            | apply Chip.roleConflict_good | apply Chip.copyPackCurrent_good
                            | apply Chip.discipline_good | apply Chip.forwardBeacon_good | apply Chip.cond_good
                            | apply Chip.ite_good)
    | exact fun (_ : TimeX) => rfl | with_reducible intro _ | split

theorem Chip.dropRecords_good {G : Watch} (s : Chip) (d : Die) (from_ : Nat) (hs : s.good G) :
    (Chip.dropRecords s d from_).good G := by
  unfold Chip.dropRecords
  try dsimp only
  repeat' first
    | with_reducible (first | assumption | apply Chip.upd_good)
    | with_reducible intro _ | split | exact ‹DieX.good _ _ _›

theorem Chip.dropFrames_good {G : Watch} (s : Chip) (d : Die) (hs : s.good G) : (Chip.dropFrames s d).good G := by
  unfold Chip.dropFrames
  try dsimp only
  repeat' first
    | with_reducible (first | assumption | apply Chip.upd_good)
    | with_reducible intro _ | split | exact ‹DieX.good _ _ _›

theorem Chip.timeStep_good {G : Watch} (d : Die) (s : Chip) (hs : s.good G) (ht : ∀ e, ¬ G.tick e) :
    (Chip.timeStep d s).good G := by
  unfold Chip.timeStep
  try dsimp only
  repeat' first
    | with_reducible (first | assumption | apply Chip.put_good | apply Chip.putI_good | apply Chip.event_good
                            | apply Chip.closeFrame_good | apply Chip.gap_good | apply Chip.setPll_good
                            | apply Chip.updTime_good | apply Chip.setStroke_good | apply Chip.dropRecords_good
                            | apply Chip.cond_good | apply Chip.ite_good)
    | exact fun (_ : TimeX) => rfl | with_reducible intro _ | split

theorem Chip.countReplacement_good {G : Watch} (d : Die) (s : Chip) (hs : s.good G) (ht : ∀ e, ¬ G.tick e) :
    (Chip.countReplacement d s).good G := by
  unfold Chip.countReplacement
  try dsimp only
  repeat' first
    | with_reducible (first | assumption | apply Chip.put_good | apply Chip.gapOf_good | apply Chip.updTime_good
                            | apply Chip.setStroke_good | apply Chip.dropFrames_good | apply Chip.ite_good)
    | exact fun (_ : TimeX) => rfl | with_reducible intro _ | split

theorem Chip.beaconSend_good {G : Watch} (d : Die) (s : Chip) (hs : s.good G) : (Chip.beaconSend d s).good G := by
  unfold Chip.beaconSend
  try dsimp only
  repeat' first
    | with_reducible (first | assumption | apply Chip.each_good | apply Chip.enqueue_good
                            | apply Chip.beaconWaits_good | apply Chip.cond_good | apply Chip.ite_good)
    | with_reducible intro _ | split

theorem Chip.updCfe_good {G : Watch} (s : Chip) (d : Die) (f : CfeX → CfeX) (hs : s.good G) : (Chip.updCfe s d f).good G := by
  unfold Chip.updCfe
  try dsimp only
  repeat' first
    | with_reducible (first | assumption | apply Chip.ite_good | apply Chip.upd_good | apply Chip.foldl_good)
    | with_reducible intro _ | split | exact ‹DieX.good _ _ _›

theorem Chip.setSpare_good {G : Watch} (s : Chip) (d : Die) (target : Nat) (state : Nat) (owner : Nat) (hs : s.good G) :
    (Chip.setSpare s d target state owner).good G := by
  unfold Chip.setSpare
  try dsimp only
  repeat' first
    | with_reducible (first | assumption | apply Chip.put_good | apply Chip.ite_good | apply Chip.foldl_good)
    | with_reducible intro _ | split

theorem Chip.settleChannel_good {G : Watch} (s : Chip) (d : Die) (c : Nat) (hs : s.good G) :
    (Chip.settleChannel s d c).good G := by
  unfold Chip.settleChannel
  try dsimp only
  repeat' first
    | with_reducible (first | assumption | apply Chip.updCfe_good | apply Chip.ite_good | apply Chip.foldl_good)
    | with_reducible intro _ | split

theorem Chip.spareEnter_good {G : Watch} (s : Chip) (d : Die) (owner : Nat) (c : Nat) (hs : s.good G) :
    (Chip.spareEnter s d owner c).good G := by
  unfold Chip.spareEnter
  try dsimp only
  repeat' first
    | with_reducible (first | assumption | apply Chip.setSpare_good | apply Chip.settleChannel_good
                            | apply Chip.ite_good)
    | with_reducible intro _ | split

theorem Chip.spareIdle_good {G : Watch} (s : Chip) (d : Die) (hs : s.good G) : (Chip.spareIdle s d).good G := by
  unfold Chip.spareIdle
  try dsimp only
  repeat' first
    | with_reducible (first | assumption | apply Chip.updCfe_good | apply Chip.setSpare_good)
    | with_reducible intro _ | split

theorem Chip.spareGiveUp_good {G : Watch} (s : Chip) (d : Die) (owner : Nat) (hs : s.good G) :
    (Chip.spareGiveUp s d owner).good G := by
  unfold Chip.spareGiveUp
  try dsimp only
  repeat' first
    | with_reducible (first | assumption | apply Chip.updCfe_good | apply Chip.spareIdle_good | apply Chip.ite_good)
    | with_reducible intro _ | split

theorem Chip.spareRelease_good {G : Watch} (s : Chip) (d : Die) (owner : Nat) (hs : s.good G) :
    (Chip.spareRelease s d owner).good G := by
  unfold Chip.spareRelease
  try dsimp only
  repeat' first
    | with_reducible (first | assumption | apply Chip.put_good | apply Chip.spareGiveUp_good | apply Chip.ite_good)
    | with_reducible intro _ | split

theorem Chip.spareStep_good {G : Watch} (d : Die) (s : Chip) (hs : s.good G) : (Chip.spareStep d s).good G := by
  unfold Chip.spareStep
  try dsimp only
  repeat' first
    | with_reducible (first | assumption | apply Chip.put_good | apply Chip.report_good | apply Chip.updCfe_good
                            | apply Chip.spareIdle_good | apply Chip.ite_good)
    | with_reducible intro _ | split

theorem Chip.countLoss_good {G : Watch} (s : Chip) (d : Die) (hs : s.good G) : (Chip.countLoss s d).good G := by
  unfold Chip.countLoss
  try dsimp only
  repeat' first
    | with_reducible (first | assumption | apply Chip.put_good | apply Chip.report_good | apply Chip.ite_good
                            | apply Chip.cond_good | apply Chip.foldl_good) | with_reducible intro _ | split

theorem Chip.makeShadowOnly_good {G : Watch} (s : Chip) (d : Die) (c : Nat) (src : Nat) (hs : s.good G) :
    (Chip.makeShadowOnly s d c src).good G := by
  unfold Chip.makeShadowOnly
  try dsimp only
  repeat' first
    | with_reducible (first | assumption | apply Chip.countLoss_good | apply Chip.raise_good | apply Chip.updCfe_good
                            | apply Chip.ite_good | apply Chip.foldl_good) | with_reducible intro _ | split

theorem Chip.failChannel_good {G : Watch} (s : Chip) (d : Die) (c : Nat) (hs : s.good G) :
    (Chip.failChannel s d c).good G := by
  unfold Chip.failChannel
  try dsimp only
  repeat' first
    | with_reducible (first | assumption | apply Chip.put_good | apply Chip.makeShadowOnly_good
                            | apply Chip.countLoss_good | apply Chip.raise_good | apply Chip.setSpare_good
                            | apply Chip.updCfe_good | apply Chip.ite_good | apply Chip.foldl_good)
    | with_reducible intro _ | split

theorem Chip.settleAll_good {G : Watch} (s : Chip) (d : Die) (nf : Nat) (nl : Nat) (hs : s.good G) :
    (Chip.settleAll s d nf nl).good G := by
  unfold Chip.settleAll
  try dsimp only
  repeat' first
    | with_reducible (first | assumption | apply Chip.updCfe_good | apply Chip.ite_good | apply Chip.foldl_good)
    | with_reducible intro _ | split

end Sys2Proof.Machine
end

