-- ==== Sys2Proof/Laws/KeepsBalance.lean ====
section
/-! SUPPORT. Every operation keeps the stores in canonical form and what is watched: the engine, the stage, and open-wire detection. -/

namespace Sys2Proof.Machine

/-- Reads, waits and cycles spent change no register and no die. -/
@[simp] theorem EngRun.read_chip (r : EngRun) : r.read.chip = r.chip := by
  unfold EngRun.read; dsimp only; repeat' split
  all_goals rfl

@[simp] theorem EngRun.reads_chip (n : Nat) (r : EngRun) : (EngRun.reads n r).chip = r.chip := by
  induction n generalizing r with
  | zero => rfl
  | succ n ih => unfold EngRun.reads; rw [ih, EngRun.read_chip]

@[simp] theorem EngRun.reach_chip (r : EngRun) (n : Nat) : (r.reach n).chip = r.chip := by
  unfold EngRun.reach; repeat' split
  all_goals rfl

@[simp] theorem EngRun.spend_chip (r : EngRun) (cost reads : Nat) : (r.spend cost reads).chip = r.chip := by simp [EngRun.spend]

@[simp] theorem EngRun.wait_chip (r : EngRun) (w : Nat) : (r.wait w).chip = r.chip := by
  unfold EngRun.wait; dsimp only; split <;> rfl

theorem EngRun.spend_good {G : Watch} (r : EngRun) (cost reads : Nat) (hr : r.chip.good G) : (r.spend cost reads).chip.good G := by
  rw [EngRun.spend_chip]; exact hr

theorem Chip.updEng_good {G : Watch} (s : Chip) (d : Die) (f : EngX → EngX) (hs : s.good G) : (Chip.updEng s d f).good G := by
  unfold Chip.updEng
  try dsimp only
  repeat' first
    | with_reducible (first | assumption | apply Chip.ite_good | apply Chip.upd_good | apply Chip.foldl_good)
    | with_reducible intro _ | split | exact ‹DieX.good _ _ _›

theorem Chip.updCxs_good {G : Watch} (s : Chip) (d : Die) (f : CxsX → CxsX) (hs : s.good G) : (Chip.updCxs s d f).good G := by
  unfold Chip.updCxs
  try dsimp only
  repeat' first
    | with_reducible (first | assumption | apply Chip.ite_good | apply Chip.upd_good | apply Chip.foldl_good)
    | with_reducible intro _ | split | exact ‹DieX.good _ _ _›

theorem Chip.writePending_good {G : Watch} (s : Chip) (d : Die) (a : Nat) (w : Word) (hs : s.good G) :
    (Chip.writePending s d a w).good G := by
  unfold Chip.writePending
  try dsimp only
  repeat' first
    | with_reducible (first | assumption | apply Chip.updEng_good | apply Chip.ite_good | apply Chip.setReg_good
                            | apply Chip.foldl_good) | with_reducible intro _ | split

theorem Chip.updSlot_good {G : Watch} (s : Chip) (d : Die) (n : Nat) (f : SlotX → SlotX) (hs : s.good G) :
    (Chip.updSlot s d n f).good G := by
  unfold Chip.updSlot
  try dsimp only
  repeat' first
    | with_reducible (first | assumption | apply Chip.updEng_good | apply Chip.ite_good | apply Chip.foldl_good)
    | with_reducible intro _ | split

theorem Chip.updPgen_good {G : Watch} (s : Chip) (d : Die) (n : Nat) (f : PgenX → PgenX) (hs : s.good G) :
    (Chip.updPgen s d n f).good G := by
  unfold Chip.updPgen
  try dsimp only
  repeat' first
    | with_reducible (first | assumption | apply Chip.updCxs_good | apply Chip.ite_good | apply Chip.foldl_good)
    | with_reducible intro _ | split

theorem Chip.progErr_good {G : Watch} (s : Chip) (d : Die) (hs : s.good G) : (Chip.progErr s d).good G := by
  unfold Chip.progErr
  try dsimp only
  repeat' first
    | with_reducible (first | assumption | apply Chip.report_good | apply Chip.put_good | apply Chip.ite_good
                            | apply Chip.foldl_good) | with_reducible intro _ | split

theorem Chip.showSlot_good {G : Watch} (s : Chip) (d : Die) (n : Nat) (limited : Bool) (held : Bool) (frozen : Bool)
    (rest : Bool) (void : Bool) (hs : s.good G) :
    (Chip.showSlot s d n limited held frozen rest void).good G := by
  unfold Chip.showSlot
  try dsimp only
  repeat' first
    | with_reducible (first | assumption | apply Chip.ite_good | apply Chip.setReg_good | apply Chip.foldl_good)
    | with_reducible intro _ | split

theorem Chip.storeRecord_good {G : Watch} (s : Chip) (d : Die) (sp : Int) (e : Int) (u : Int) (meas : Int) (hs : s.good G) :
    (Chip.storeRecord s d sp e u meas).good G := by
  unfold Chip.storeRecord
  try dsimp only
  repeat' first
    | with_reducible (first | assumption | apply Chip.put_good | apply Chip.updEng_good | apply Chip.cond_good
                            | apply Chip.ite_good | apply Chip.foldl_good)
    | with_reducible intro _ | split

theorem Chip.capture_good {G : Watch} (s : Chip) (d : Die) (n : Nat) (sp : Int) (e : Int) (u : Int) (meas : Int)
    (seen : Bool) (hs : s.good G) :
    (Chip.capture s d n sp e u meas seen).good G := by
  unfold Chip.capture
  try dsimp only
  repeat' first
    | with_reducible (first | assumption | apply Chip.put_good | apply Chip.updEng_good
                            | apply Chip.storeRecord_good | apply Chip.cond_good | apply Chip.ite_good)
    | with_reducible intro _ | split

theorem Chip.runSlot_good {G : Watch} (s : Chip) (d : Die) (n : Nat) (hs : s.good G) : (Chip.runSlot s d n).good G := by
  unfold Chip.runSlot
  try dsimp only
  repeat' first
    | with_reducible (first | assumption | apply Chip.capture_good | apply Chip.showSlot_good | apply Chip.updSlot_good
                            | apply Chip.progErr_good | apply Chip.ite_good | apply Chip.setReg_good
                            | apply Chip.cond_good | apply Chip.foldl_good) | with_reducible intro _ | split

theorem Chip.overrun_good {G : Watch} (s : Chip) (d : Die) (n : Nat) (hs : s.good G) : (Chip.overrun s d n).good G := by
  unfold Chip.overrun
  try dsimp only
  repeat' first
    | with_reducible (first | assumption | apply Chip.put_good | apply Chip.inc_good | apply Chip.report_good
                            | apply Chip.updSlot_good | apply Chip.showSlot_good | apply Chip.capture_good)
    | with_reducible intro _ | split

theorem EngRun.act_good {G : Watch} (r : EngRun) (f : Chip → Chip) (hr : r.chip.good G) (hf : ∀ t, t.good G → (f t).good G) :
    (r.act f).chip.good G := by
  unfold EngRun.act
  split
  · exact hr
  · exact hf _ hr

theorem EngRun.bad_good {G : Watch} (r : EngRun) (d : Die) (hr : r.chip.good G) : (r.bad d).chip.good G :=
  EngRun.act_good _ _ (EngRun.spend_good r 1 0 hr) fun _ h => Chip.progErr_good _ _ h

theorem EngRun.alu_good {G : Watch} (r : EngRun) (d : Die) (op xd a b : Nat) (hr : r.chip.good G) : (r.alu d op xd a b).chip.good G := by
  unfold EngRun.alu
  dsimp only
  split
  · exact EngRun.bad_good _ _ hr
  · exact EngRun.act_good _ _ (EngRun.spend_good _ _ _ hr) fun _ h => Chip.put_good _ _ _ _ _ h

theorem EngRun.step_good {G : Watch} (r : EngRun) (d : Die) (w : Word) (hr : r.chip.good G) : (r.step d w).chip.good G := by
  unfold EngRun.step
  dsimp only
  split
  · exact EngRun.spend_good r 1 0 hr
  · split
    · exact EngRun.spend_good r 1 0 hr
    · split
      · split
        · exact EngRun.bad_good _ _ hr
        · exact EngRun.act_good _ _ (EngRun.spend_good _ _ _ hr) fun _ h => Chip.runSlot_good _ _ _ h
      · split
        · rw [EngRun.wait_chip]; exact hr
        · split
          · exact EngRun.alu_good _ _ _ _ _ _ hr
          · exact EngRun.bad_good _ _ hr

theorem EngRun.run_good {G : Watch} (d : Die) (p : List Word) (r : EngRun) (hr : r.chip.good G) : (EngRun.run d p r).chip.good G := by
  induction p generalizing r with
  | nil => exact hr
  | cons w rest ih =>
    unfold EngRun.run
    dsimp only
    split
    · exact EngRun.step_good _ _ _ hr
    · exact ih _ (EngRun.step_good _ _ _ hr)

theorem Chip.bceStrokeProgram_good {G : Watch} (d : Die) (stalls : List Stall) (s : Chip) (hs : s.good G) :
    (Chip.bceStrokeProgram d stalls s).good G := by
  unfold Chip.bceStrokeProgram
  split
  · exact hs
  · dsimp only
    refine Chip.foldl_good _ _ _ (Chip.put_good _ _ _ _ _ (Chip.put_good _ _ _ _ _ (Chip.foldl_good _ _ _
      (EngRun.run_good _ _ _ (Chip.putB_good _ _ _ _ _ hs)) ?_))) ?_
    · intro t x ht
      exact Chip.ite_good _ _ _ (fun _ => ht) fun _ => Chip.ite_good _ _ _ (fun _ => Chip.overrun_good _ _ _ ht) fun _ =>
        Chip.runSlot_good _ _ _ ht
    · intro t x ht; exact Chip.put_good _ _ _ _ _ ht

theorem Chip.pgenMode_good {G : Watch} (s : Chip) (d : Die) (n : Nat) (m : Nat) (hs : s.good G) :
    (Chip.pgenMode s d n m).good G := by
  unfold Chip.pgenMode
  try dsimp only
  repeat' first
    | with_reducible (first | assumption | apply Chip.put_good | apply Chip.ite_good | apply Chip.foldl_good)
    | with_reducible intro _ | split

theorem Chip.pgenIdle_good {G : Watch} (s : Chip) (d : Die) (n : Nat) (hs : s.good G) : (Chip.pgenIdle s d n).good G := by
  unfold Chip.pgenIdle
  try dsimp only
  repeat' first
    | with_reducible (first | assumption | apply Chip.put_good | apply Chip.pgenMode_good | apply Chip.updPgen_good
                            | apply Chip.ite_good | apply Chip.foldl_good) | with_reducible intro _ | split

theorem Chip.pgenStep1_good {G : Watch} (d : Die) (n : Nat) (s : Chip) (hs : s.good G) : (Chip.pgenStep1 d n s).good G := by
  unfold Chip.pgenStep1
  try dsimp only
  repeat' first
    | with_reducible (first | assumption | apply Chip.putI_good | apply Chip.updPgen_good | apply Chip.put_good
                            | apply Chip.pgenMode_good | apply Chip.putB_good | apply Chip.ite_good | apply Chip.cond_good
                            | apply Chip.foldl_good) | with_reducible intro _ | split

theorem Chip.injectionStep_good {G : Watch} (d : Die) (n : Nat) (s : Chip) (hs : s.good G) :
    (Chip.injectionStep d n s).good G := by
  unfold Chip.injectionStep
  try dsimp only
  repeat' first
    | with_reducible (first | assumption | apply Chip.put_good | apply Chip.updEng_good | apply Chip.ite_good)
    | with_reducible intro _ | split

theorem Chip.armCapture_good {G : Watch} (s : Chip) (d : Die) (hs : s.good G) : (Chip.armCapture s d).good G := by
  unfold Chip.armCapture
  try dsimp only
  repeat' first
    | with_reducible (first | assumption | apply Chip.setReg_good | apply Chip.trigger_good | apply Chip.updEng_good
                            | apply Chip.cond_good | apply Chip.ite_good)
    | with_reducible intro _ | split

theorem Chip.engineEdge_good {G : Watch} (d : Die) (s : Chip) (hs : s.good G) : (Chip.engineEdge d s).good G := by
  unfold Chip.engineEdge
  try dsimp only
  repeat' first
    | with_reducible (first | assumption | apply Chip.each_good | apply Chip.updEng_good
                            | apply Chip.injectionStep_good | apply Chip.armCapture_good | apply Chip.cond_good)
    | with_reducible intro _ | split

theorem Chip.writeInjCfg_good {G : Watch} (s : Chip) (d : Die) (n : Nat) (w : Word) (hs : s.good G) :
    (Chip.writeInjCfg s d n w).good G := by
  unfold Chip.writeInjCfg
  try dsimp only
  repeat' first
    | with_reducible (first | assumption | apply Chip.updEng_good | apply Chip.writePending_good
                            | apply Chip.ite_good)
    | with_reducible intro _ | split

theorem Chip.writeInjFreq_good {G : Watch} (s : Chip) (d : Die) (n : Nat) (a : Nat) (w : Word) (hs : s.good G) :
    (Chip.writeInjFreq s d n a w).good G := by
  unfold Chip.writeInjFreq
  try dsimp only
  repeat' first
    | with_reducible (first | assumption | apply Chip.writePending_good | apply Chip.put_good | apply Chip.ite_good
                            | apply Chip.cond_good | apply Chip.foldl_good) | with_reducible intro _ | split

theorem Chip.writeCapture_good {G : Watch} (s : Chip) (d : Die) (w : Word) (hs : s.good G) :
    (Chip.writeCapture s d w).good G := by
  unfold Chip.writeCapture
  try dsimp only
  repeat' first
    | with_reducible (first | assumption | apply Chip.updEng_good | apply Chip.writePending_good
                            | apply Chip.cond_good)
    | with_reducible intro _ | split

theorem Chip.updChan_good {G : Watch} (s : Chip) (d : Die) (n : Nat) (f : ChanX → ChanX) (hs : s.good G) :
    (Chip.updChan s d n f).good G := by
  unfold Chip.updChan
  try dsimp only
  repeat' first
    | with_reducible (first | assumption | apply Chip.updCxs_good | apply Chip.ite_good | apply Chip.foldl_good)
    | with_reducible intro _ | split

theorem Chip.updOwd_good {G : Watch} (s : Chip) (d : Die) (f : OwdX → OwdX) (hs : s.good G) : (Chip.updOwd s d f).good G := by
  unfold Chip.updOwd
  try dsimp only
  repeat' first
    | with_reducible (first | assumption | apply Chip.ite_good | apply Chip.upd_good | apply Chip.foldl_good)
    | with_reducible intro _ | split | exact ‹DieX.good _ _ _›

theorem Chip.setCause_good {G : Watch} (s : Chip) (d : Die) (n : Nat) (cause : Nat) (hs : s.good G) :
    (Chip.setCause s d n cause).good G := by
  unfold Chip.setCause
  try dsimp only
  repeat' first
    | with_reducible (first | assumption | apply Chip.put_good | apply Chip.ite_good | apply Chip.foldl_good)
    | with_reducible intro _ | split

theorem Chip.releaseChan_good {G : Watch} (s : Chip) (d : Die) (n : Nat) (hs : s.good G) :
    (Chip.releaseChan s d n).good G := by
  unfold Chip.releaseChan
  try dsimp only
  repeat' first
    | with_reducible (first | assumption | apply Chip.put_good | apply Chip.pgenMode_good | apply Chip.ite_good
                            | apply Chip.cond_good | apply Chip.foldl_good) | with_reducible intro _ | split

theorem Chip.stopRamp_good {G : Watch} (s : Chip) (d : Die) (n : Nat) (cause : Option Nat) (hs : s.good G) :
    (Chip.stopRamp s d n cause).good G := by
  unfold Chip.stopRamp
  try dsimp only
  repeat' first
    | with_reducible (first | assumption | apply Chip.setCause_good | apply Chip.updChan_good | apply Chip.pgenMode_good
                            | apply Chip.updPgen_good | apply Chip.put_good | apply Chip.ite_good | apply Chip.foldl_good)
    | with_reducible intro _ | split

theorem Chip.stopRamps_good {G : Watch} (s : Chip) (d : Die) (cause : Option Nat) (hs : s.good G) :
    (Chip.stopRamps s d cause).good G := by
  unfold Chip.stopRamps
  try dsimp only
  repeat' first
    | with_reducible (first | assumption | apply Chip.stopRamp_good | apply Chip.ite_good | apply Chip.foldl_good)
    | with_reducible intro _ | split

theorem Chip.deselect_good {G : Watch} (s : Chip) (d : Die) (n : Nat) (hs : s.good G) : (Chip.deselect s d n).good G := by
  unfold Chip.deselect
  try dsimp only
  repeat' first
    | with_reducible (first | assumption | apply Chip.setReg_good | apply Chip.put_good | apply Chip.pgenIdle_good
                            | apply Chip.updChan_good)
    | with_reducible intro _ | split

theorem Chip.select_good {G : Watch} (s : Chip) (d : Die) (n : Nat) (k : Nat) (owner : Nat) (dir : Nat) (hs : s.good G) :
    (Chip.select s d n k owner dir).good G := by
  unfold Chip.select
  try dsimp only
  repeat' first
    | with_reducible (first | assumption | apply Chip.setReg_good | apply Chip.put_good | apply Chip.pgenIdle_good
                            | apply Chip.updChan_good | apply Chip.cond_good)
    | with_reducible intro _ | split

theorem Chip.pick_good {G : Watch} (s : Chip) (d : Die) (n : Nat) (ranked : List Nat) (hs : s.good G) :
    (Chip.pick s d n ranked).2.good G := by
  unfold Chip.pick
  try dsimp only
  repeat' first
    | with_reducible (first | assumption | apply Chip.put_good | apply Chip.cond_good)
    | with_reducible intro _ | split

theorem Chip.candidates_good {G : Watch} (s : Chip) (d : Die) (line : Nat) (t : Option Int) (hs : s.good G) :
    (Chip.candidates s d line t).good G := by
  unfold Chip.candidates
  try dsimp only
  repeat' first
    | with_reducible (first | assumption | apply Chip.putB_good | apply Chip.put_good | apply Chip.updCxs_good
                            | apply Chip.ite_good | apply Chip.foldl_good) | with_reducible intro _ | split

theorem Chip.mgrKeep_good {G : Watch} (d : Die) (n : Nat) (s : Chip) (hs : s.good G) : (Chip.mgrKeep d n s).good G := by
  unfold Chip.mgrKeep
  try dsimp only
  repeat' first
    | with_reducible (first | assumption | apply Chip.releaseChan_good | apply Chip.ite_good | apply Chip.foldl_good)
    | with_reducible intro _ | split

theorem Chip.mgrSwap_good {G : Watch} (d : Die) (s : Chip) (hs : s.good G) : (Chip.mgrSwap d s).good G := by
  unfold Chip.mgrSwap
  try dsimp only
  repeat' first
    | with_reducible (first | assumption | apply Chip.releaseChan_good | apply Chip.ite_good | apply Chip.cond_good
                            | apply Chip.foldl_good) | with_reducible intro _ | split

theorem Chip.mgrTake_good {G : Watch} (d : Die) (n : Nat) (s : Chip) (hs : s.good G) : (Chip.mgrTake d n s).good G := by
  unfold Chip.mgrTake
  try dsimp only
  repeat' first
    | with_reducible (first | assumption | apply Chip.pick_good | apply Chip.updChan_good | apply Chip.ite_good
                            | apply Chip.foldl_good) | with_reducible intro _ | split

theorem Chip.mgrBleed_good {G : Watch} (d : Die) (s : Chip) (hs : s.good G) : (Chip.mgrBleed d s).good G := by
  unfold Chip.mgrBleed
  try dsimp only
  repeat' first
    | with_reducible (first | assumption | apply Chip.updCxs_good | apply Chip.ite_good | apply Chip.foldl_good)
    | with_reducible intro _ | split

theorem Chip.managerLine_good {G : Watch} (d : Die) (s : Chip) (hs : s.good G) : (Chip.managerLine d s).good G := by
  unfold Chip.managerLine
  try dsimp only
  repeat' first
    | with_reducible (first | assumption | apply Chip.each_good | apply Chip.updCxs_good | apply Chip.updChan_good
                            | apply Chip.releaseChan_good | apply Chip.candidates_good | apply Chip.mgrKeep_good
                            | apply Chip.mgrSwap_good | apply Chip.mgrTake_good | apply Chip.mgrBleed_good
                            | apply Chip.cond_good | apply Chip.ite_good)
    | with_reducible intro _ | split

theorem Chip.noteSwept_good {G : Watch} (d : Die) (s : Chip) (hs : s.good G) : (Chip.noteSwept d s).good G := by
  unfold Chip.noteSwept
  try dsimp only
  repeat' first
    | with_reducible (first | assumption | apply Chip.updCxs_good)
    | with_reducible intro _ | split

theorem Chip.suspendLine_good {G : Watch} (d : Die) (s : Chip) (hs : s.good G) : (Chip.suspendLine d s).good G := by
  unfold Chip.suspendLine
  try dsimp only
  repeat' first
    | with_reducible (first | assumption | apply Chip.putB_good | apply Chip.each_good | apply Chip.noteSwept_good)
    | with_reducible intro _ | split

theorem Chip.hostLine_good {G : Watch} (d : Die) (s : Chip) (hs : s.good G) : (Chip.hostLine d s).good G := by
  unfold Chip.hostLine
  try dsimp only
  repeat' first
    | with_reducible (first | assumption | apply Chip.each_good | apply Chip.updChan_good
                            | apply Chip.releaseChan_good | apply Chip.pick_good | apply Chip.cond_good
                            | apply Chip.ite_good)
    | with_reducible intro _ | split

theorem Chip.showForced_good {G : Watch} (d : Die) (k : Nat) (s : Chip) (hs : s.good G) :
    (Chip.showForced d k s).good G := by
  unfold Chip.showForced
  try dsimp only
  repeat' first
    | with_reducible (first | assumption | apply Chip.put_good | apply Chip.putB_good | apply Chip.cond_good)
    | with_reducible intro _ | split

theorem Chip.padsShow_good {G : Watch} (s : Chip) (d : Die) (hs : s.good G) : (Chip.padsShow s d).good G := by
  unfold Chip.padsShow
  try dsimp only
  repeat' first
    | with_reducible (first | assumption | apply Chip.each_good | apply Chip.showForced_good | apply Chip.cond_good)
    | with_reducible intro _ | split

theorem Chip.showBleeds_good {G : Watch} (s : Chip) (d : Die) (applied : List Nat) (hs : s.good G) :
    (Chip.showBleeds s d applied).good G := by
  unfold Chip.showBleeds
  try dsimp only
  repeat' first
    | with_reducible (first | assumption | apply Chip.put_good | apply Chip.each_good | apply Chip.updCxs_good
                            | apply Chip.showForced_good | apply Chip.ite_good | apply Chip.foldl_good)
    | with_reducible intro _ | split

theorem Chip.bleedsStop_good {G : Watch} (s : Chip) (d : Die) (cyc : Nat) (hs : s.good G) :
    (Chip.bleedsStop s d cyc).good G := by
  unfold Chip.bleedsStop
  try dsimp only
  repeat' first
    | with_reducible (first | assumption | apply Chip.updCxs_good | apply Chip.showBleeds_good)
    | with_reducible intro _ | split

theorem Chip.bleedsStopEdge_good {G : Watch} (s : Chip) (d : Die) (hs : s.good G) :
    (Chip.bleedsStopEdge s d).good G := by
  unfold Chip.bleedsStopEdge
  try dsimp only
  repeat' first
    | with_reducible (first | assumption | apply Chip.bleedsStop_good | apply Chip.ite_good)
    | with_reducible intro _ | split

theorem Chip.bleedsStopNow_good {G : Watch} (s : Chip) (d : Die) (hs : s.good G) : (Chip.bleedsStopNow s d).good G := by
  unfold Chip.bleedsStopNow
  try dsimp only
  repeat' first
    | with_reducible (first | assumption | apply Chip.draw_good | apply Chip.bleedsStop_good)
    | with_reducible intro _ | split

theorem Chip.bleedLine_good {G : Watch} (d : Die) (s : Chip) (hs : s.good G) : (Chip.bleedLine d s).good G := by
  unfold Chip.bleedLine
  try dsimp only
  repeat' first
    | with_reducible (first | assumption | apply Chip.updCxs_good | apply Chip.showBleeds_good | apply Chip.ite_good)
    | with_reducible intro _ | split

theorem Chip.bleedCurrents_good {G : Watch} (d : Die) (ion : List Nat) (s : Chip) (hs : s.good G) :
    (Chip.bleedCurrents d ion s).good G := by
  unfold Chip.bleedCurrents
  try dsimp only
  repeat' first
    | with_reducible (first | assumption | apply Chip.putSat_good | apply Chip.each_good | apply Chip.cond_good)
    | with_reducible intro _ | split

theorem Chip.stepCurrent_good {G : Watch} (d : Die) (s : Chip) (hs : s.good G) : (Chip.stepCurrent d s).good G := by
  unfold Chip.stepCurrent
  try dsimp only
  repeat' first
    | with_reducible (first | assumption | apply EngRun.step_good | apply Chip.updOwd_good | apply Chip.cond_good)
    | with_reducible intro _ | split

theorem Chip.level_good {G : Watch} (s : Chip) (d : Die) (target : Nat) (draw : Nat) (dummy : Nat) (hs : s.good G) :
    (Chip.level s d target draw dummy).good G := by
  unfold Chip.level
  try dsimp only
  repeat' first
    | with_reducible (first | assumption | apply Chip.putB_good | apply Chip.putSat_good | apply Chip.draw_good
                            | apply Chip.updCxs_good | apply Chip.ite_good)
    | with_reducible intro _ | split

theorem Chip.levellerLine_good {G : Watch} (d : Die) (draw : Nat) (s : Chip) (hs : s.good G) :
    (Chip.levellerLine d draw s).good G := by
  unfold Chip.levellerLine
  try dsimp only
  repeat' first
    | with_reducible (first | assumption | apply Chip.draw_good | apply Chip.level_good | apply Chip.ite_good)
    | with_reducible intro _ | split

theorem Chip.levellerSleep_good {G : Watch} (s : Chip) (d : Die) (draw : Nat) (hs : s.good G) :
    (Chip.levellerSleep s d draw).good G := by
  unfold Chip.levellerSleep
  try dsimp only
  repeat' first
    | with_reducible (first | assumption | apply Chip.draw_good | apply Chip.level_good)
    | with_reducible intro _ | split

theorem Chip.chargeServed_good {G : Watch} (d : Die) (n : Nat) (k : Nat) (icell : Int) (s : Chip) (hs : s.good G) :
    (Chip.chargeServed d n k icell s).good G := by
  unfold Chip.chargeServed
  try dsimp only
  repeat' first
    | with_reducible (first | assumption | apply Chip.put_good | apply Chip.updCxs_good | apply Chip.releaseChan_good
                            | apply Chip.updChan_good | apply Chip.ite_good | apply Chip.foldl_good)
    | with_reducible intro _ | split

theorem Chip.chargeOver_good {G : Watch} (d : Die) (n : Nat) (v : Int) (icell : Int) (s : Chip) (hs : s.good G) :
    (Chip.chargeOver d n v icell s).good G := by
  unfold Chip.chargeOver
  try dsimp only
  repeat' first
    | with_reducible (first | assumption | apply Chip.putSat_good | apply Chip.updChan_good | apply Chip.ite_good
                            | apply Chip.foldl_good) | with_reducible intro _ | split

theorem Chip.chargeEdge_good {G : Watch} (d : Die) (n : Nat) (icell : Int) (s : Chip) (hs : s.good G) :
    (Chip.chargeEdge d n icell s).good G := by
  unfold Chip.chargeEdge
  try dsimp only
  repeat' first
    | with_reducible (first | assumption | apply Chip.chargeServed_good | apply Chip.chargeOver_good
                            | apply Chip.ite_good)
    | with_reducible intro _ | split

theorem Chip.pgenEdge_good {G : Watch} (d : Die) (n : Nat) (zero : Bool) (s : Chip) (hs : s.good G) :
    (Chip.pgenEdge d n zero s).good G := by
  unfold Chip.pgenEdge
  try dsimp only
  repeat' first
    | with_reducible (first | assumption | apply Chip.updSlot_good | apply Chip.pgenIdle_good | apply Chip.pgenMode_good
                            | apply Chip.put_good | apply Chip.ite_good | apply Chip.foldl_good) | with_reducible intro _
    | split

theorem Chip.dutyEdge_good {G : Watch} (d : Die) (n : Nat) (zero : Bool) (s : Chip) (hs : s.good G) :
    (Chip.dutyEdge d n zero s).good G := by
  unfold Chip.dutyEdge
  try dsimp only
  repeat' first
    | with_reducible (first | assumption | apply Chip.put_good | apply Chip.putB_good | apply Chip.updChan_good
                            | apply Chip.cond_good | apply Chip.ite_good)
    | with_reducible intro _ | split

theorem Chip.chanEdge_good {G : Watch} (d : Die) (n : Nat) (icell : Int) (ispan : Int) (s : Chip) (hs : s.good G) :
    (Chip.chanEdge d n icell ispan s).good G := by
  unfold Chip.chanEdge
  try dsimp only
  repeat' first
    | with_reducible (first | assumption | apply Chip.put_good | apply Chip.putI_good | apply Chip.chargeEdge_good
                            | apply Chip.dutyEdge_good | apply Chip.pgenEdge_good | apply Chip.ite_good
                            | apply Chip.foldl_good) | with_reducible intro _ | split

theorem Chip.targetWrites_good {G : Watch} (d : Die) (s : Chip) (hs : s.good G) : (Chip.targetWrites d s).good G := by
  unfold Chip.targetWrites
  try dsimp only
  repeat' first
    | with_reducible (first | assumption | apply Chip.updCxs_good | apply Chip.put_good | apply Chip.releaseChan_good
                            | apply Chip.ite_good | apply Chip.cond_good | apply Chip.each_good | apply Chip.foldl_good)
    | with_reducible intro _ | split

theorem Chip.stageEdge_good {G : Watch} (d : Die) (i : Senses) (s : Chip) (hs : s.good G) :
    (Chip.stageEdge d i s).good G := by
  unfold Chip.stageEdge
  try dsimp only
  repeat' first
    | with_reducible (first | assumption | apply Chip.bleedsStopEdge_good | apply Chip.chanEdge_good
                            | apply Chip.targetWrites_good | apply Chip.cond_good | apply Chip.ite_good)
    | with_reducible intro _ | split

theorem Chip.chanLine_good {G : Watch} (d : Die) (n : Nat) (s : Chip) (hs : s.good G) : (Chip.chanLine d n s).good G := by
  unfold Chip.chanLine
  try dsimp only
  repeat' first
    | with_reducible (first | assumption | apply Chip.releaseChan_good | apply Chip.deselect_good
                            | apply Chip.cond_good | apply Chip.ite_good)
    | with_reducible intro _ | split

theorem Chip.stageLine_good {G : Watch} (d : Die) (ion : List Nat) (s : Chip) (hs : s.good G) :
    (Chip.stageLine d ion s).good G := by
  unfold Chip.stageLine
  try dsimp only
  repeat' first
    | with_reducible (first | assumption | apply Chip.updCxs_good | apply Chip.managerLine_good
                            | apply Chip.noteSwept_good | apply Chip.suspendLine_good | apply Chip.hostLine_good
                            | apply Chip.bleedLine_good | apply Chip.bleedCurrents_good
                            | apply Chip.stepCurrent_good | apply Chip.chanLine_good | apply Chip.ite_good)
    | with_reducible intro _ | split

theorem Chip.selectionChange_good {G : Watch} (d : Die) (n : Nat) (s : Chip) (hs : s.good G) :
    (Chip.selectionChange d n s).good G := by
  unfold Chip.selectionChange
  try dsimp only
  repeat' first
    | with_reducible (first | assumption | apply Chip.put_good | apply Chip.updChan_good | apply Chip.select_good
                            | apply Chip.ite_good)
    | with_reducible intro _ | split

theorem Chip.stopRampComplete_good {G : Watch} (d : Die) (n : Nat) (s : Chip) (hs : s.good G) :
    (Chip.stopRampComplete d n s).good G := by
  unfold Chip.stopRampComplete
  try dsimp only
  repeat' first
    | with_reducible (first | assumption | apply Chip.deselect_good | apply Chip.ite_good | apply Chip.foldl_good)
    | with_reducible intro _ | split

theorem Chip.writeCxsCfg_good {G : Watch} (s : Chip) (d : Die) (n : Nat) (w : Word) (hs : s.good G) :
    (Chip.writeCxsCfg s d n w).good G := by
  unfold Chip.writeCxsCfg
  try dsimp only
  repeat' first
    | with_reducible (first | assumption | apply Chip.setReg_good | apply Chip.stopRamp_good | apply Chip.ite_good)
    | with_reducible intro _ | split

theorem Chip.writeQtgt_good {G : Watch} (s : Chip) (d : Die) (k : Nat) (w : Word) (hs : s.good G) :
    (Chip.writeQtgt s d k w).good G := by
  unfold Chip.writeQtgt
  try dsimp only
  repeat' first
    | with_reducible (first | assumption | apply Chip.updCxs_good | apply Chip.ite_good | apply Chip.foldl_good)
    | with_reducible intro _ | split

theorem Chip.wiringInterlock_good {G : Watch} (s : Chip) (d : Die) (hs : s.good G) : (Chip.wiringInterlock s d).good G := by
  unfold Chip.wiringInterlock
  try dsimp only
  repeat' first
    | with_reducible (first | assumption | apply Chip.put_good | apply Chip.releaseChan_good | apply Chip.ite_good
                            | apply Chip.cond_good | apply Chip.foldl_good) | with_reducible intro _ | split

theorem Chip.stageSafe_good {G : Watch} (s : Chip) (d : Die) (hs : s.good G) : (Chip.stageSafe s d).good G := by
  unfold Chip.stageSafe
  try dsimp only
  repeat' first
    | with_reducible (first | assumption | apply Chip.put_good | apply Chip.each_good | apply Chip.setCause_good
                            | apply Chip.bleedsStopEdge_good | apply Chip.cond_good)
    | with_reducible intro _ | split

theorem Chip.stageCut_good {G : Watch} (s : Chip) (d : Die) (hs : s.good G) : (Chip.stageCut s d).good G := by
  unfold Chip.stageCut
  try dsimp only
  repeat' first
    | with_reducible (first | assumption | apply Chip.put_good | apply Chip.each_good | apply Chip.setCause_good
                            | apply Chip.bleedsStopNow_good | apply Chip.cond_good)
    | with_reducible intro _ | split

theorem Chip.stageOverrun_good {G : Watch} (s : Chip) (d : Die) (n : Nat) (hs : s.good G) :
    (Chip.stageOverrun s d n).good G := by
  unfold Chip.stageOverrun
  try dsimp only
  repeat' first
    | with_reducible (first | assumption | apply Chip.put_good | apply Chip.updChan_good)
    | with_reducible intro _ | split

theorem Chip.stageRetire_good {G : Watch} (s : Chip) (d : Die) (hs : s.good G) : (Chip.stageRetire s d).good G := by
  unfold Chip.stageRetire
  try dsimp only
  repeat' first
    | with_reducible (first | assumption | apply Chip.put_good | apply Chip.each_good | apply Chip.stopRamps_good
                            | apply Chip.bleedsStopNow_good)
    | with_reducible intro _ | split

theorem Chip.stageSleep_good {G : Watch} (s : Chip) (d : Die) (hs : s.good G) : (Chip.stageSleep s d).good G := by
  unfold Chip.stageSleep
  try dsimp only
  repeat' first
    | with_reducible (first | assumption | apply Chip.put_good | apply Chip.each_good | apply Chip.updCxs_good
                            | apply Chip.stopRamps_good | apply Chip.bleedsStopNow_good)
    | with_reducible intro _ | split

theorem Chip.showMarks_good {G : Watch} (s : Chip) (d : Die) (hs : s.good G) : (Chip.showMarks s d).good G := by
  unfold Chip.showMarks
  try dsimp only
  repeat' first
    | with_reducible (first | assumption | apply Chip.updCfe_good | apply Chip.settleChannel_good | apply Chip.ite_good
                            | apply Chip.each_good | apply Chip.foldl_good) | with_reducible intro _ | split

theorem Chip.showQueued_good {G : Watch} (s : Chip) (d : Die) (hs : s.good G) : (Chip.showQueued s d).good G := by
  unfold Chip.showQueued
  try dsimp only
  repeat' first
    | with_reducible (first | assumption | apply Chip.putB_good | apply Chip.ite_good | apply Chip.foldl_good)
    | with_reducible intro _ | split

theorem Chip.requestTest_good {G : Watch} (s : Chip) (d : Die) (all : Bool) (wire : Nat) (cur : Bool) (down : Bool)
    (hs : s.good G) :
    (Chip.requestTest s d all wire cur down).good G := by
  unfold Chip.requestTest
  try dsimp only
  repeat' first
    | with_reducible (first | assumption | apply Chip.put_good | apply Chip.showQueued_good | apply Chip.updOwd_good
                            | apply Chip.ite_good | apply Chip.foldl_good) | with_reducible intro _ | split

theorem Chip.writeOwdCmd_good {G : Watch} (s : Chip) (d : Die) (w : Word) (hs : s.good G) :
    (Chip.writeOwdCmd s d w).good G := by
  unfold Chip.writeOwdCmd
  try dsimp only
  repeat' first
    | with_reducible (first | assumption | apply Chip.requestTest_good | apply Chip.ite_good | apply Chip.foldl_good)
    | with_reducible intro _ | split

theorem Chip.openWireTestStart_good {G : Watch} (d : Die) (s : Chip) (hs : s.good G) :
    (Chip.openWireTestStart d s).good G := by
  unfold Chip.openWireTestStart
  try dsimp only
  repeat' first
    | with_reducible (first | assumption | apply Chip.put_good | apply Chip.spareEnter_good | apply EngRun.step_good
                            | apply Chip.updOwd_good | apply Chip.showQueued_good | apply Chip.cond_good
                            | apply Chip.ite_good)
    | with_reducible intro _ | split

theorem Chip.openWireSkipPage_good {G : Watch} (d : Die) (s : Chip) (hs : s.good G) : (Chip.openWireSkipPage d s).good G := by
  unfold Chip.openWireSkipPage
  try dsimp only
  repeat' first
    | with_reducible (first | assumption | apply Chip.updOwd_good | apply Chip.inc_good | apply Chip.ite_good
                            | apply Chip.foldl_good) | with_reducible intro _ | split

theorem Chip.openWireCurrentOn_good {G : Watch} (d : Die) (s : Chip) (hs : s.good G) :
    (Chip.openWireCurrentOn d s).good G := by
  unfold Chip.openWireCurrentOn
  try dsimp only
  repeat' first
    | with_reducible (first | assumption | apply Chip.put_good | apply Chip.updOwd_good | apply Chip.ite_good
                            | apply Chip.foldl_good) | with_reducible intro _ | split

theorem Chip.giveVerdict_good {G : Watch} (s : Chip) (d : Die) (k : Nat) (verdict : Nat) (all : Bool) (hs : s.good G) :
    (Chip.giveVerdict s d k verdict all).good G := by
  unfold Chip.giveVerdict
  try dsimp only
  repeat' first
    | with_reducible (first | assumption | apply Chip.put_good | apply Chip.putB_good | apply Chip.updOwd_good
                            | apply Chip.ite_good | apply Chip.foldl_good) | with_reducible intro _ | split

theorem Chip.advanceRotation_good {G : Watch} (s : Chip) (d : Die) (hs : s.good G) : (Chip.advanceRotation s d).good G := by
  unfold Chip.advanceRotation
  try dsimp only
  repeat' first
    | with_reducible (first | assumption | apply Chip.updOwd_good | apply Chip.put_good | apply Chip.ite_good
                            | apply Chip.foldl_good) | with_reducible intro _ | split

theorem Chip.openWireVerdict_good {G : Watch} (d : Die) (r : RampIn) (s : Chip) (hs : s.good G) :
    (Chip.openWireVerdict d r s).good G := by
  unfold Chip.openWireVerdict
  try dsimp only
  repeat' first
    | with_reducible (first | assumption | apply Chip.put_good | apply Chip.putI_good | apply Chip.spareRelease_good
                            | apply Chip.updOwd_good | apply Chip.showMarks_good | apply Chip.giveVerdict_good
                            | apply Chip.advanceRotation_good | apply Chip.cond_good | apply Chip.ite_good)
    | with_reducible intro _ | split

theorem Chip.endTest_good {G : Watch} (s : Chip) (d : Die) (hs : s.good G) : (Chip.endTest s d).good G := by
  unfold Chip.endTest
  try dsimp only
  repeat' first
    | with_reducible (first | assumption | apply Chip.put_good | apply Chip.updOwd_good | apply Chip.ite_good
                            | apply Chip.foldl_good) | with_reducible intro _ | split

theorem Chip.allWireVerdict_good {G : Watch} (d : Die) (r : RampIn) (s : Chip) (hs : s.good G) :
    (Chip.allWireVerdict d r s).good G := by
  unfold Chip.allWireVerdict
  try dsimp only
  repeat' first
    | with_reducible (first | assumption | apply Chip.each_good | apply Chip.showMarks_good
                            | apply Chip.giveVerdict_good | apply Chip.endTest_good | apply Chip.ite_good)
    | with_reducible intro _ | split

theorem Chip.abandonTest_good {G : Watch} (s : Chip) (d : Die) (hs : s.good G) : (Chip.abandonTest s d).good G := by
  unfold Chip.abandonTest
  try dsimp only
  repeat' first
    | with_reducible (first | assumption | apply Chip.spareRelease_good | apply Chip.endTest_good
                            | apply Chip.showQueued_good | apply Chip.updOwd_good | apply Chip.ite_good
                            | apply Chip.foldl_good) | with_reducible intro _ | split

theorem Chip.endStage_good {G : Watch} (s : Chip) (d : Die) (hs : s.good G) : (Chip.endStage s d).good G := by
  unfold Chip.endStage
  try dsimp only
  repeat' first
    | with_reducible (first | assumption | apply Chip.put_good | apply Chip.endTest_good)
    | with_reducible intro _ | split

theorem Chip.openWireAbandon_good {G : Watch} (d : Die) (s : Chip) (hs : s.good G) : (Chip.openWireAbandon d s).good G := by
  unfold Chip.openWireAbandon
  try dsimp only
  repeat' first
    | with_reducible (first | assumption | apply EngRun.step_good | apply Chip.abandonTest_good
                            | apply Chip.endStage_good | apply Chip.ite_good)
    | with_reducible intro _ | split

theorem Chip.stepStart_good {G : Watch} (s : Chip) (d : Die) (t : OwdTest) (hs : s.good G) :
    (Chip.stepStart s d t).good G := by
  unfold Chip.stepStart
  try dsimp only
  repeat' first
    | with_reducible (first | assumption | apply Chip.put_good | apply EngRun.step_good | apply Chip.updOwd_good
                            | apply Chip.endTest_good | apply Chip.ite_good)
    | with_reducible intro _ | split

theorem Chip.stepStageEnd_good {G : Watch} (d : Die) (l : List StepPair) (s : Chip) (hs : s.good G) :
    (Chip.stepStageEnd d l s).good G := by
  unfold Chip.stepStageEnd
  try dsimp only
  repeat' first
    | with_reducible (first | assumption | apply Chip.put_good | apply Chip.report_good | apply EngRun.step_good
                            | apply Chip.endStage_good | apply Chip.cond_good | apply Chip.ite_good)
    | with_reducible intro _ | split

theorem Chip.owdLine_good {G : Watch} (d : Die) (s : Chip) (hs : s.good G) : (Chip.owdLine d s).good G := by
  unfold Chip.owdLine
  try dsimp only
  repeat' first
    | with_reducible (first | assumption | apply Chip.showMarks_good | apply Chip.updOwd_good | apply Chip.stepStart_good
                            | apply Chip.put_good | apply Chip.ite_good | apply Chip.foldl_good) | with_reducible intro _
    | split

theorem Chip.owdPage_good {G : Watch} (d : Die) (s : Chip) (hs : s.good G) : (Chip.owdPage d s).good G := by
  unfold Chip.owdPage
  try dsimp only
  repeat' first
    | with_reducible (first | assumption | apply Chip.inc_good | apply Chip.updOwd_good | apply Chip.ite_good
                            | apply Chip.each_good | apply Chip.foldl_good) | with_reducible intro _ | split

theorem Chip.sumCheck_good {G : Watch} (d : Die) (s : Chip) (hs : s.good G) : (Chip.sumCheck d s).good G := by
  unfold Chip.sumCheck
  try dsimp only
  repeat' first
    | with_reducible (first | assumption | apply Chip.put_good | apply Chip.updOwd_good | apply Chip.putI_good
                            | apply Chip.ite_good | apply Chip.foldl_good) | with_reducible intro _ | split

theorem Chip.deviationCheck_good {G : Watch} (d : Die) (s : Chip) (hs : s.good G) : (Chip.deviationCheck d s).good G := by
  unfold Chip.deviationCheck
  try dsimp only
  repeat' first
    | with_reducible (first | assumption | apply Chip.put_good | apply Chip.each_good | apply EngRun.run_good
                            | apply Chip.updOwd_good | apply Chip.showQueued_good | apply Chip.ite_good)
    | with_reducible intro _ | split

theorem Chip.deviationClassify_good {G : Watch} (d : Die) (c : Nat) (s : Chip) (hs : s.good G) :
    (Chip.deviationClassify d c s).good G := by
  unfold Chip.deviationClassify
  try dsimp only
  repeat' first
    | with_reducible (first | assumption | apply Chip.put_good | apply Chip.updOwd_good | apply Chip.report_good
                            | apply Chip.ite_good | apply Chip.cond_good | apply Chip.foldl_good) | with_reducible intro _
    | split

theorem Chip.dropCleared_good {G : Watch} (s : Chip) (d : Die) (hs : s.good G) : (Chip.dropCleared s d).good G := by
  unfold Chip.dropCleared
  try dsimp only
  repeat' first
    | with_reducible (first | assumption | apply Chip.updOwd_good)
    | with_reducible intro _ | split

theorem Chip.writeRwire_good {G : Watch} (s : Chip) (d : Die) (k : Nat) (w : Word) (hs : s.good G) :
    (Chip.writeRwire s d k w).good G := by
  unfold Chip.writeRwire
  try dsimp only
  repeat' first
    | with_reducible (first | assumption | apply Chip.put_good | apply Chip.ite_good | apply Chip.cond_good
                            | apply Chip.foldl_good) | with_reducible intro _ | split

end Sys2Proof.Machine
end

