-- ==== Sys2Proof/Laws/KeepsMeasure.lean ====
section
/-! SUPPORT. Every operation keeps the stores in canonical form and what is watched: measurement, impedance, temperature and the ring. -/

namespace Sys2Proof.Machine

theorem Chip.updThm_good {G : Watch} (s : Chip) (d : Die) (f : ThmX → ThmX) (hs : s.good G) : (Chip.updThm s d f).good G := by
  unfold Chip.updThm
  try dsimp only
  repeat' first
    | with_reducible (first | assumption | apply Chip.ite_good | apply Chip.upd_good | apply Chip.foldl_good)
    | with_reducible intro _ | split | exact ‹DieX.good _ _ _›

theorem Chip.setCellTemp_good {G : Watch} (s : Chip) (d : Die) (nib : Nat) (z : Nat) (aux : Nat) (un : Nat) (hs : s.good G) :
    (Chip.setCellTemp s d nib z aux un).good G := by
  unfold Chip.setCellTemp
  try dsimp only
  repeat' first
    | with_reducible (first | assumption | apply Chip.put_good | apply Chip.event_good | apply Chip.ite_good
                            | apply Chip.foldl_good) | with_reducible intro _ | split

theorem Chip.showNibTemp_good {G : Watch} (s : Chip) (hs : s.good G) : (Chip.showNibTemp s).good G := by
  unfold Chip.showNibTemp
  try dsimp only
  repeat' first
    | with_reducible (first | assumption | apply Chip.setCellTemp_good | apply Chip.ite_good | apply Chip.each_good
                            | apply Chip.foldl_good) | with_reducible intro _ | split

theorem Chip.nibTemp_good {G : Watch} (s : Chip) (d : Die) (e : Nat) (temp : Int) (hs : s.good G) :
    (Chip.nibTemp s d e temp).good G := by
  unfold Chip.nibTemp
  try dsimp only
  repeat' first
    | with_reducible (first | assumption | apply Chip.updThm_good | apply Chip.showNibTemp_good | apply Chip.ite_good
                            | apply Chip.foldl_good) | with_reducible intro _ | split

theorem Chip.nibTempEnd_good {G : Watch} (s : Chip) (d : Die) (e : Nat) (hs : s.good G) : (Chip.nibTempEnd s d e).good G := by
  unfold Chip.nibTempEnd
  try dsimp only
  repeat' first
    | with_reducible (first | assumption | apply Chip.updThm_good | apply Chip.showNibTemp_good | apply Chip.ite_good
                            | apply Chip.foldl_good) | with_reducible intro _ | split

theorem Chip.zTempUpdate_good {G : Watch} (s : Chip) (d : Die) (c : Nat) (temp : Int) (hs : s.good G) :
    (Chip.zTempUpdate s d c temp).good G := by
  unfold Chip.zTempUpdate
  try dsimp only
  repeat' first
    | with_reducible (first | assumption | apply Chip.updThm_good | apply Chip.setCellTemp_good | apply Chip.ite_good
                            | apply Chip.foldl_good) | with_reducible intro _ | split

theorem Chip.auxOff_good {G : Watch} (s : Chip) (d : Die) (n : Nat) (hs : s.good G) : (Chip.auxOff s d n).good G := by
  unfold Chip.auxOff
  try dsimp only
  repeat' first
    | with_reducible (first | assumption | apply Chip.setCellTemp_good | apply Chip.updThm_good | apply Chip.ite_good
                            | apply Chip.foldl_good) | with_reducible intro _ | split

theorem Chip.auxOffs_good {G : Watch} (s : Chip) (d : Die) (hs : s.good G) : (Chip.auxOffs s d).good G := by
  unfold Chip.auxOffs
  try dsimp only
  repeat' first
    | with_reducible (first | assumption | apply Chip.auxOff_good | apply Chip.ite_good | apply Chip.each_good
                            | apply Chip.foldl_good) | with_reducible intro _ | split

theorem Chip.auxTemp_good {G : Watch} (s : Chip) (d : Die) (n : Nat) (code : Int) (range : Bool) (hs : s.good G) :
    (Chip.auxTemp s d n code range).good G := by
  unfold Chip.auxTemp
  try dsimp only
  repeat' first
    | with_reducible (first | assumption | apply Chip.auxOff_good | apply Chip.updThm_good | apply Chip.setCellTemp_good
                            | apply Chip.ite_good | apply Chip.foldl_good) | with_reducible intro _ | split

theorem Chip.harnessEdge_good {G : Watch} (d : Die) (fir0 : List Int) (fir1 : List Int) (s : Chip) (hs : s.good G) :
    (Chip.harnessEdge d fir0 fir1 s).good G := by
  unfold Chip.harnessEdge
  try dsimp only
  repeat' first
    | with_reducible (first | assumption | apply Chip.updCfe_good)
    | with_reducible intro _ | split

theorem Chip.ageChannels_good {G : Watch} (d : Die) (s : Chip) (hs : s.good G) : (Chip.ageChannels d s).good G := by
  unfold Chip.ageChannels
  try dsimp only
  repeat' first
    | with_reducible (first | assumption | apply Chip.updCfe_good | apply Chip.ite_good)
    | with_reducible intro _ | split

theorem Chip.latchLine_good {G : Watch} (d : Die) (vs : List (Int × Nat)) (s : Chip) (hs : s.good G) :
    (Chip.latchLine d vs s).good G := by
  unfold Chip.latchLine
  try dsimp only
  repeat' first
    | with_reducible (first | assumption | apply Chip.put_good | apply Chip.putI_good | apply Chip.updCfe_good
                            | apply Chip.deviationCheck_good | apply Chip.sumCheck_good | apply Chip.ite_good
                            | apply Chip.each_good | apply Chip.foldl_good) | with_reducible intro _ | split

theorem Chip.sleepGap_good {G : Watch} (s : Chip) (d : Die) (hs : s.good G) : (Chip.sleepGap s d).good G := by
  unfold Chip.sleepGap
  try dsimp only
  repeat' first
    | with_reducible (first | assumption | apply Chip.queueGapOf_good | apply Chip.updTime_good
                            | apply Chip.ite_good)
    | exact fun (_ : TimeX) => rfl | with_reducible intro _ | split

theorem Chip.cfeLatch_good {G : Watch} (d : Die) (chans : List ChanIn) (s : Chip) (hs : s.good G) :
    (Chip.cfeLatch d chans s).good G := by
  unfold Chip.cfeLatch
  try dsimp only
  repeat' first
    | with_reducible (first | assumption | apply Chip.put_good | apply Chip.putI_good | apply Chip.each_good
                            | apply Chip.draw_good | apply Chip.updCfe_good | apply Chip.ageChannels_good
                            | apply Chip.latchLine_good | apply Chip.sleepGap_good | apply Chip.ite_good)
    | with_reducible intro _ | split

theorem Chip.filterLine_good {G : Watch} (d : Die) (s : Chip) (hs : s.good G) : (Chip.filterLine d s).good G := by
  unfold Chip.filterLine
  try dsimp only
  repeat' first
    | with_reducible (first | assumption | apply Chip.updCfe_good | apply Chip.settleAll_good | apply Chip.ite_good
                            | apply Chip.foldl_good) | with_reducible intro _ | split

theorem Chip.notchEdge_good {G : Watch} (d : Die) (s : Chip) (hs : s.good G) : (Chip.notchEdge d s).good G := by
  unfold Chip.notchEdge
  try dsimp only
  repeat' first
    | with_reducible (first | assumption | apply Chip.updCfe_good | apply Chip.settleAll_good | apply Chip.ite_good
                            | apply Chip.cond_good | apply Chip.foldl_good) | with_reducible intro _ | split

theorem Chip.writeNotch_good {G : Watch} (s : Chip) (d : Die) (w : Word) (hs : s.good G) :
    (Chip.writeNotch s d w).good G := by
  unfold Chip.writeNotch
  try dsimp only
  repeat' first
    | with_reducible (first | assumption | apply Chip.put_good | apply Chip.ite_good | apply Chip.cond_good
                            | apply Chip.foldl_good) | with_reducible intro _ | split

theorem Chip.updShd_good {G : Watch} (s : Chip) (d : Die) (f : ShdX → ShdX) (hs : s.good G) : (Chip.updShd s d f).good G := by
  unfold Chip.updShd
  try dsimp only
  repeat' first
    | with_reducible (first | assumption | apply Chip.ite_good | apply Chip.upd_good | apply Chip.foldl_good)
    | with_reducible intro _ | split | exact ‹DieX.good _ _ _›

theorem Chip.shadowThreshold_good {G : Watch} (s : Chip) (d : Die) (c : Nat) (code : Nat) (hs : s.good G) :
    (Chip.shadowThreshold s d c code).good G := by
  unfold Chip.shadowThreshold
  try dsimp only
  repeat' first
    | with_reducible (first | assumption | apply Chip.updShd_good | apply Chip.putB_good | apply Chip.put_good
                            | apply Chip.ite_good | apply Chip.foldl_good) | with_reducible intro _ | split

theorem Chip.compareOne_good {G : Watch} (s : Chip) (d : Die) (c : Nat) (code : Nat) (p : Int) (skip : Bool) (hs : s.good G) :
    (Chip.compareOne s d c code p skip).good G := by
  unfold Chip.compareOne
  try dsimp only
  repeat' first
    | with_reducible (first | assumption | apply Chip.put_good | apply Chip.report_good | apply Chip.ite_good
                            | apply Chip.cond_good | apply Chip.foldl_good) | with_reducible intro _ | split

theorem Chip.compareDue_good {G : Watch} (s : Chip) (d : Die) (hs : s.good G) : (Chip.compareDue s d).good G := by
  unfold Chip.compareDue
  try dsimp only
  repeat' first
    | with_reducible (first | assumption | apply Chip.updShd_good | apply Chip.compareOne_good | apply Chip.ite_good
                            | apply Chip.each_good | apply Chip.foldl_good) | with_reducible intro _ | split

theorem Chip.shadowTest_good {G : Watch} (s : Chip) (d : Die) (code : Nat) (verdictOk : Bool) (hs : s.good G) :
    (Chip.shadowTest s d code verdictOk).good G := by
  unfold Chip.shadowTest
  try dsimp only
  repeat' first
    | with_reducible (first | assumption | apply Chip.updShd_good | apply Chip.raise_good | apply Chip.cause_good
                            | apply Chip.ite_good | apply Chip.cond_good | apply Chip.foldl_good) | with_reducible intro _
    | split

theorem Chip.shdConversion_good {G : Watch} (d : Die) (code : Nat) (spanCode : Nat) (testCode : Nat) (verdictOk : Bool)
    (s : Chip) (hs : s.good G) :
    (Chip.shdConversion d code spanCode testCode verdictOk s).good G := by
  unfold Chip.shdConversion
  try dsimp only
  repeat' first
    | with_reducible (first | assumption | apply Chip.compareDue_good | apply Chip.putSat_good
                            | apply Chip.shadowTest_good | apply Chip.shadowThreshold_good | apply Chip.updShd_good
                            | apply Chip.ite_good | apply Chip.foldl_good) | with_reducible intro _ | split

theorem Chip.auxInput_good {G : Watch} (s : Chip) (d : Die) (n : Nat) (raw : Nat) (hs : s.good G) :
    (Chip.auxInput s d n raw).good G := by
  unfold Chip.auxInput
  try dsimp only
  repeat' first
    | with_reducible (first | assumption | apply Chip.updCfe_good | apply Chip.auxTemp_good)
    | with_reducible intro _ | split

theorem Chip.packCurrent_good {G : Watch} (s : Chip) (d : Die) (diff : Int) (hs : s.good G) :
    (Chip.packCurrent s d diff).good G := by
  unfold Chip.packCurrent
  try dsimp only
  repeat' first
    | with_reducible (first | assumption | apply Chip.updCfe_good)
    | with_reducible intro _ | split

theorem Chip.auxConversion_good {G : Watch} (d : Die) (codeA : Nat) (codeB : Nat) (diff : Int) (s : Chip) (hs : s.good G) :
    (Chip.auxConversion d codeA codeB diff s).good G := by
  unfold Chip.auxConversion
  try dsimp only
  repeat' first
    | with_reducible (first | assumption | apply Chip.packCurrent_good | apply Chip.auxInput_good | apply Chip.ite_good
                            | apply Chip.foldl_good) | with_reducible intro _ | split

theorem Chip.auxEdge_good {G : Watch} (d : Die) (s : Chip) (hs : s.good G) : (Chip.auxEdge d s).good G := by
  unfold Chip.auxEdge
  try dsimp only
  repeat' first
    | with_reducible (first | assumption | apply Chip.updCfe_good | apply Chip.putB_good | apply Chip.put_good
                            | apply Chip.ite_good | apply Chip.each_good | apply Chip.foldl_good) | with_reducible intro _
    | split

theorem Chip.addRecord_good {G : Watch} (s : Chip) (d : Die) (cls : Nat) (flags : Nat) (mask : Nat) (sub : Nat)
    (rings : Nat) (r : StreamRec) (hs : s.good G) :
    (Chip.addRecord s d cls flags mask sub rings r).good G := by
  unfold Chip.addRecord
  try dsimp only
  repeat' first
    | with_reducible (first | assumption | apply Chip.closeFrame_good | apply Chip.updCfe_good | apply Chip.ite_good
                            | apply Chip.foldl_good) | with_reducible intro _ | split

theorem Chip.assembleFine_good {G : Watch} (s : Chip) (d : Die) (hs : s.good G) : (Chip.assembleFine s d).good G := by
  unfold Chip.assembleFine
  try dsimp only
  repeat' first
    | with_reducible (first | assumption | apply Chip.closeFrame_good | apply Chip.addRecord_good | apply Chip.ite_good
                            | apply Chip.foldl_good) | with_reducible intro _ | split

theorem Chip.assembleLine_good {G : Watch} (s : Chip) (d : Die) (hs : s.good G) : (Chip.assembleLine s d).good G := by
  unfold Chip.assembleLine
  try dsimp only
  repeat' first
    | with_reducible (first | assumption | apply Chip.closeFrame_good | apply Chip.addRecord_good | apply Chip.ite_good
                            | apply Chip.foldl_good) | with_reducible intro _ | split

theorem Chip.streamFrameAssemble_good {G : Watch} (d : Die) (s : Chip) (hs : s.good G) :
    (Chip.streamFrameAssemble d s).good G := by
  unfold Chip.streamFrameAssemble
  try dsimp only
  repeat' first
    | with_reducible (first | assumption | apply Chip.updCfe_good | apply Chip.assembleLine_good
                            | apply Chip.assembleFine_good | apply Chip.ite_good | apply Chip.foldl_good)
    | with_reducible intro _ | split

theorem Chip.pageSummary_good {G : Watch} (d : Die) (s : Chip) (hs : s.good G) : (Chip.pageSummary d s).good G := by
  unfold Chip.pageSummary
  try dsimp only
  repeat' first
    | with_reducible (first | assumption | apply Chip.offerStream_good | apply Chip.updCfe_good | apply Chip.put_good
                            | apply Chip.ite_good | apply Chip.cond_good | apply Chip.foldl_good) | with_reducible intro _
    | split

theorem Chip.updEis_good {G : Watch} (s : Chip) (d : Die) (f : EisX → EisX) (hs : s.good G) : (Chip.updEis s d f).good G := by
  unfold Chip.updEis
  try dsimp only
  repeat' first
    | with_reducible (first | assumption | apply Chip.ite_good | apply Chip.upd_good | apply Chip.foldl_good)
    | with_reducible intro _ | split | exact ‹DieX.good _ _ _›

theorem Chip.updSweep_good {G : Watch} (s : Chip) (d : Die) (n : Nat) (f : SweepX → SweepX) (hs : s.good G) :
    (Chip.updSweep s d n f).good G := by
  unfold Chip.updSweep
  try dsimp only
  repeat' first
    | with_reducible (first | assumption | apply Chip.updEis_good | apply Chip.ite_good | apply Chip.foldl_good)
    | with_reducible intro _ | split

theorem Chip.setSw_good {G : Watch} (s : Chip) (d : Die) (n : Nat) (st : Nat) (hs : s.good G) :
    (Chip.setSw s d n st).good G := by
  unfold Chip.setSw
  try dsimp only
  repeat' first
    | with_reducible (first | assumption | apply Chip.put_good | apply Chip.ite_good | apply Chip.foldl_good)
    | with_reducible intro _ | split

theorem Chip.takeNotes_good {G : Watch} (s : Chip) (d : Die) (l : List (Nat × Fld × Nat)) (hs : s.good G) :
    (Chip.takeNotes s d l).good G := by
  unfold Chip.takeNotes
  try dsimp only
  repeat' first
    | with_reducible (first | assumption | apply Chip.put_good | apply Chip.ite_good | apply Chip.each_good
                            | apply Chip.foldl_good) | with_reducible intro _ | split

theorem Chip.sweepGo_good {G : Watch} (s : Chip) (d : Die) (sw : Nat) (p : Nat) (cell : Nat) (passes : Nat) (hs : s.good G) :
    (Chip.sweepGo s d sw p cell passes).good G := by
  unfold Chip.sweepGo
  try dsimp only
  repeat' first
    | with_reducible (first | assumption | apply Chip.setReg_good | apply Chip.releaseChan_good
                            | apply Chip.updSweep_good | apply Chip.takeNotes_good | apply Chip.cond_good
                            | apply Chip.ite_good)
    | with_reducible intro _ | split

theorem Chip.sweepStop_good {G : Watch} (s : Chip) (d : Die) (sw : Nat) (hs : s.good G) : (Chip.sweepStop s d sw).good G := by
  unfold Chip.sweepStop
  try dsimp only
  repeat' first
    | with_reducible (first | assumption | apply Chip.updSweep_good | apply Chip.ite_good | apply Chip.each_good
                            | apply Chip.foldl_good) | with_reducible intro _ | split

theorem Chip.writeEisCmd_good {G : Watch} (s : Chip) (d : Die) (w : Word) (hs : s.good G) :
    (Chip.writeEisCmd s d w).good G := by
  unfold Chip.writeEisCmd
  try dsimp only
  repeat' first
    | with_reducible (first | assumption | apply Chip.sweepStop_good | apply Chip.sweepGo_good | apply Chip.ite_good
                            | apply Chip.foldl_good) | with_reducible intro _ | split

theorem Chip.setDev_good {G : Watch} (s : Chip) (d : Die) (c : Nat) (b : Bool) (hs : s.good G) :
    (Chip.setDev s d c b).good G := by
  unfold Chip.setDev
  try dsimp only
  repeat' first
    | with_reducible (first | assumption | apply Chip.putB_good | apply Chip.ite_good | apply Chip.foldl_good)
    | with_reducible intro _ | split

theorem Chip.setNoRef_good {G : Watch} (s : Chip) (d : Die) (c : Nat) (b : Bool) (hs : s.good G) :
    (Chip.setNoRef s d c b).good G := by
  unfold Chip.setNoRef
  try dsimp only
  repeat' first
    | with_reducible (first | assumption | apply Chip.putB_good | apply Chip.ite_good | apply Chip.foldl_good)
    | with_reducible intro _ | split

theorem Chip.zUpdate_good {G : Watch} (s : Chip) (d : Die) (c : Nat) (r : Int) (hs : s.good G) :
    (Chip.zUpdate s d c r).good G := by
  unfold Chip.zUpdate
  try dsimp only
  repeat' first
    | with_reducible (first | assumption | apply Chip.put_good | apply Chip.putI_good | apply Chip.zTempUpdate_good
                            | apply Chip.setDev_good | apply Chip.setNoRef_good | apply Chip.ite_good)
    | with_reducible intro _ | split

theorem Chip.writeResult_good {G : Watch} (s : Chip) (d : Die) (c : Nat) (p : Nat) (b : Nat) (passive : Bool) (r : Word)
    (x : Word) (iamp : Nat) (status : Nat) (flags : Nat) (stop : Option Nat) (hs : s.good G) :
    (Chip.writeResult s d c p b passive r x iamp status flags stop).good G := by
  unfold Chip.writeResult
  try dsimp only
  repeat' first
    | with_reducible (first | assumption | apply Chip.setReg_good | apply Chip.updEis_good)
    | with_reducible intro _ | split

theorem Chip.writeNone_good {G : Watch} (s : Chip) (d : Die) (c : Nat) (p : Nat) (b : Nat) (passive : Bool) (status : Nat)
    (stop : Option Nat) (hs : s.good G) :
    (Chip.writeNone s d c p b passive status stop).good G := by
  unfold Chip.writeNone
  try dsimp only
  repeat' first
    | with_reducible (first | assumption | apply Chip.writeResult_good | apply Chip.ite_good | apply Chip.foldl_good)
    | with_reducible intro _ | split

theorem Chip.finishCell_good {G : Watch} (s : Chip) (d : Die) (w : WinX) (i : Nat) (c : Nat) (hs : s.good G) :
    (Chip.finishCell s d w i c).good G := by
  unfold Chip.finishCell
  try dsimp only
  repeat' first
    | with_reducible (first | assumption | apply Chip.zUpdate_good | apply Chip.writeResult_good
                            | apply Chip.ite_good)
    | with_reducible intro _ | split

theorem Chip.setWins_good {G : Watch} (s : Chip) (d : Die) (l : List WinX) (hs : s.good G) : (Chip.setWins s d l).good G := by
  unfold Chip.setWins
  try dsimp only
  repeat' first
    | with_reducible (first | assumption | apply Chip.updEis_good | apply Chip.ite_good | apply Chip.foldl_good)
    | with_reducible intro _ | split

theorem Chip.updGen_good {G : Watch} (s : Chip) (d : Die) (n : Nat) (f : GenX → GenX) (hs : s.good G) :
    (Chip.updGen s d n f).good G := by
  unfold Chip.updGen
  try dsimp only
  repeat' first
    | with_reducible (first | assumption | apply Chip.updEng_good)
    | with_reducible intro _ | split

theorem Chip.sineOff_good {G : Watch} (s : Chip) (d : Die) (n : Nat) (hs : s.good G) : (Chip.sineOff s d n).good G := by
  unfold Chip.sineOff
  try dsimp only
  repeat' first
    | with_reducible (first | assumption | apply Chip.put_good | apply Chip.updCxs_good | apply Chip.updGen_good)
    | with_reducible intro _ | split

theorem Chip.dropChannel_good {G : Watch} (s : Chip) (d : Die) (n : Nat) (hs : s.good G) :
    (Chip.dropChannel s d n).good G := by
  unfold Chip.dropChannel
  try dsimp only
  repeat' first
    | with_reducible (first | assumption | apply Chip.updSweep_good | apply Chip.sineOff_good
                            | apply Chip.releaseChan_good | apply Chip.put_good | apply Chip.ite_good
                            | apply Chip.foldl_good) | with_reducible intro _ | split

theorem Chip.closeWins_good {G : Watch} (s : Chip) (d : Die) (n : Nat) (status : Nat) (hs : s.good G) :
    (Chip.closeWins s d n status).good G := by
  unfold Chip.closeWins
  try dsimp only
  repeat' first
    | with_reducible (first | assumption | apply Chip.setWins_good | apply Chip.writeNone_good | apply Chip.ite_good
                            | apply Chip.each_good | apply Chip.foldl_good) | with_reducible intro _ | split

theorem Chip.endBin_good {G : Watch} (s : Chip) (d : Die) (n : Nat) (status : Nat) (hs : s.good G) :
    (Chip.endBin s d n status).good G := by
  unfold Chip.endBin
  try dsimp only
  repeat' first
    | with_reducible (first | assumption | apply Chip.updSweep_good | apply Chip.setSw_good
                            | apply Chip.writeNone_good | apply Chip.sineOff_good | apply Chip.closeWins_good
                            | apply Chip.ite_good)
    | with_reducible intro _ | split

theorem Chip.stopSweep_good {G : Watch} (s : Chip) (d : Die) (n : Nat) (status : Nat) (err : Nat) (hs : s.good G) :
    (Chip.stopSweep s d n status err).good G := by
  unfold Chip.stopSweep
  try dsimp only
  repeat' first
    | with_reducible (first | assumption | apply Chip.endBin_good | apply Chip.dropChannel_good | apply Chip.put_good
                            | apply Chip.setSw_good | apply Chip.updSweep_good | apply Chip.ite_good
                            | apply Chip.foldl_good) | with_reducible intro _ | split

theorem Chip.stopActive_good {G : Watch} (s : Chip) (d : Die) (err : Nat) (hs : s.good G) :
    (Chip.stopActive s d err).good G := by
  unfold Chip.stopActive
  try dsimp only
  repeat' first
    | with_reducible (first | assumption | apply Chip.stopSweep_good | apply Chip.ite_good | apply Chip.foldl_good)
    | with_reducible intro _ | split

theorem Chip.openWindow_good {G : Watch} (s : Chip) (d : Die) (n : Nat) (hs : s.good G) :
    (Chip.openWindow s d n).good G := by
  unfold Chip.openWindow
  try dsimp only
  repeat' first
    | with_reducible (first | assumption | apply Chip.setSw_good | apply Chip.setWins_good | apply Chip.ite_good)
    | with_reducible intro _ | split

theorem Chip.startBin_good {G : Watch} (s : Chip) (d : Die) (n : Nat) (hs : s.good G) : (Chip.startBin s d n).good G := by
  unfold Chip.startBin
  try dsimp only
  repeat' first
    | with_reducible (first | assumption | apply Chip.put_good | apply Chip.updCxs_good | apply Chip.updSweep_good
                            | apply Chip.setSw_good | apply Chip.writeNone_good | apply Chip.updGen_good
                            | apply Chip.openWindow_good | apply Chip.ite_good)
    | with_reducible intro _ | split

theorem Chip.eisChannelGrant_good {G : Watch} (d : Die) (n : Nat) (s : Chip) (hs : s.good G) :
    (Chip.eisChannelGrant d n s).good G := by
  unfold Chip.eisChannelGrant
  try dsimp only
  repeat' first
    | with_reducible (first | assumption | apply Chip.put_good | apply Chip.select_good | apply Chip.updSweep_good
                            | apply Chip.updGen_good | apply Chip.startBin_good | apply Chip.cond_good
                            | apply Chip.ite_good)
    | with_reducible intro _ | split

theorem Chip.eisWindowOpen_good {G : Watch} (d : Die) (n : Nat) (s : Chip) (hs : s.good G) :
    (Chip.eisWindowOpen d n s).good G := by
  unfold Chip.eisWindowOpen
  try dsimp only
  repeat' first
    | with_reducible (first | assumption | apply Chip.openWindow_good | apply Chip.startBin_good
                            | apply Chip.ite_good)
    | with_reducible intro _ | split

theorem Chip.eisInjectionEnd_good {G : Watch} (d : Die) (n : Nat) (s : Chip) (hs : s.good G) :
    (Chip.eisInjectionEnd d n s).good G := by
  unfold Chip.eisInjectionEnd
  try dsimp only
  repeat' first
    | with_reducible (first | assumption | apply Chip.updSweep_good | apply Chip.setSw_good
                            | apply Chip.sineOff_good | apply Chip.ite_good)
    | with_reducible intro _ | split

theorem Chip.proceed_good {G : Watch} (s : Chip) (d : Die) (n : Nat) (hs : s.good G) : (Chip.proceed s d n).good G := by
  unfold Chip.proceed
  try dsimp only
  repeat' first
    | with_reducible (first | assumption | apply Chip.startBin_good | apply Chip.setSw_good | apply Chip.dropChannel_good
                            | apply Chip.ite_good | apply Chip.foldl_good) | with_reducible intro _ | split

theorem Chip.eisNextBin_good {G : Watch} (d : Die) (n : Nat) (s : Chip) (hs : s.good G) : (Chip.eisNextBin d n s).good G := by
  unfold Chip.eisNextBin
  try dsimp only
  repeat' first
    | with_reducible (first | assumption | apply Chip.proceed_good | apply Chip.updSweep_good | apply Chip.inc_good
                            | apply Chip.put_good | apply Chip.setSw_good | apply Chip.dropChannel_good
                            | apply Chip.ite_good | apply Chip.cond_good | apply Chip.foldl_good) | with_reducible intro _
    | split

theorem Chip.eisWaitTimeout_good {G : Watch} (d : Die) (n : Nat) (s : Chip) (hs : s.good G) :
    (Chip.eisWaitTimeout d n s).good G := by
  unfold Chip.eisWaitTimeout
  try dsimp only
  repeat' first
    | with_reducible (first | assumption | apply Chip.stopSweep_good | apply Chip.ite_good | apply Chip.foldl_good)
    | with_reducible intro _ | split

theorem Chip.eisEdge_good {G : Watch} (d : Die) (s : Chip) (hs : s.good G) : (Chip.eisEdge d s).good G := by
  unfold Chip.eisEdge
  try dsimp only
  repeat' first
    | with_reducible (first | assumption | apply Chip.each_good | apply Chip.updSweep_good | apply Chip.setSw_good
                            | apply Chip.endBin_good | apply Chip.stopSweep_good | apply Chip.cond_good)
    | with_reducible intro _ | split

theorem Chip.eisOverrun_good {G : Watch} (s : Chip) (d : Die) (x : Nat) (hs : s.good G) : (Chip.eisOverrun s d x).good G := by
  unfold Chip.eisOverrun
  try dsimp only
  repeat' first
    | with_reducible (first | assumption | apply Chip.setWins_good | apply Chip.writeNone_good | apply Chip.endBin_good
                            | apply Chip.report_good | apply Chip.put_good | apply Chip.inc_good | apply Chip.ite_good
                            | apply Chip.cond_good | apply Chip.each_good | apply Chip.foldl_good)
    | with_reducible intro _ | split

theorem Chip.eisCorrelate_good {G : Watch} (d : Die) (finished : Bool) (s : Chip) (hs : s.good G) :
    (Chip.eisCorrelate d finished s).good G := by
  unfold Chip.eisCorrelate
  try dsimp only
  repeat' first
    | with_reducible (first | assumption | apply Chip.each_good | apply Chip.updEis_good
                            | apply Chip.finishCell_good | apply Chip.setWins_good | apply Chip.eisOverrun_good
                            | apply Chip.ite_good)
    | with_reducible intro _ | split

theorem Chip.eisSummary_good {G : Watch} (d : Die) (s : Chip) (hs : s.good G) : (Chip.eisSummary d s).good G := by
  unfold Chip.eisSummary
  try dsimp only
  repeat' first
    | with_reducible (first | assumption | apply Chip.updEis_good | apply Chip.offerStream_good | apply Chip.ite_good
                            | apply Chip.each_good | apply Chip.foldl_good) | with_reducible intro _ | split

theorem Chip.eisPage_good {G : Watch} (d : Die) (s : Chip) (hs : s.good G) : (Chip.eisPage d s).good G := by
  unfold Chip.eisPage
  try dsimp only
  repeat' first
    | with_reducible (first | assumption | apply Chip.updSweep_good | apply Chip.eisSummary_good | apply Chip.inc_good
                            | apply Chip.ite_good | apply Chip.cond_good | apply Chip.each_good | apply Chip.foldl_good)
    | with_reducible intro _ | split

theorem Chip.writeZt_good {G : Watch} (s : Chip) (d : Die) (a : Nat) (w : Word) (c : Nat) (hs : s.good G) :
    (Chip.writeZt s d a w c).good G := by
  unfold Chip.writeZt
  try dsimp only
  repeat' first
    | with_reducible (first | assumption | apply Chip.setReg_good | apply Chip.putB_good | apply Chip.ite_good)
    | with_reducible intro _ | split

theorem Chip.showThrottle_good {G : Watch} (s : Chip) (d : Die) (depth : Nat) (hs : s.good G) :
    (Chip.showThrottle s d depth).good G := by
  unfold Chip.showThrottle
  try dsimp only
  repeat' first
    | with_reducible (first | assumption | apply Chip.put_good | apply Chip.ite_good | apply Chip.foldl_good)
    | with_reducible intro _ | split

theorem Chip.depthStep_good {G : Watch} (s : Chip) (d : Die) (hs : s.good G) : (Chip.depthStep s d).good G := by
  unfold Chip.depthStep
  try dsimp only
  repeat' first
    | with_reducible (first | assumption | apply Chip.showThrottle_good | apply Chip.updThm_good | apply Chip.ite_good
                            | apply Chip.foldl_good) | with_reducible intro _ | split

theorem Chip.throttleToHost_good {G : Watch} (s : Chip) (d : Die) (limit : Nat) (hs : s.good G) :
    (Chip.throttleToHost s d limit).good G := by
  unfold Chip.throttleToHost
  try dsimp only
  repeat' first
    | with_reducible (first | assumption | apply Chip.put_good | apply Chip.ite_good | apply Chip.foldl_good)
    | with_reducible intro _ | split

theorem Chip.stopRecord_good {G : Watch} (s : Chip) (d : Die) (sensor : Nat) (cut : Bool) (sense : Bool) (hs : s.good G) :
    (Chip.stopRecord s d sensor cut sense).good G := by
  unfold Chip.stopRecord
  try dsimp only
  repeat' first
    | with_reducible (first | assumption | apply Chip.put_good | apply Chip.ite_good | apply Chip.setReg_good
                            | apply Chip.foldl_good) | with_reducible intro _ | split

theorem Chip.orderlyStop_good {G : Watch} (s : Chip) (d : Die) (sense : Bool) (hs : s.good G) :
    (Chip.orderlyStop s d sense).good G := by
  unfold Chip.orderlyStop
  try dsimp only
  repeat' first
    | with_reducible (first | assumption | apply Chip.stopRecord_good | apply Chip.updThm_good | apply Chip.ite_good
                            | apply Chip.foldl_good) | with_reducible intro _ | split

theorem Chip.orderlyStopEdge_good {G : Watch} (d : Die) (s : Chip) (hs : s.good G) : (Chip.orderlyStopEdge d s).good G := by
  unfold Chip.orderlyStopEdge
  try dsimp only
  repeat' first
    | with_reducible (first | assumption | apply Chip.put_good | apply Chip.updThm_good | apply Chip.stopActive_good
                            | apply Chip.stopRamps_good | apply Chip.ite_good | apply Chip.foldl_good)
    | with_reducible intro _ | split

theorem Chip.refreshCut_good {G : Watch} (s : Chip) (d : Die) (hs : s.good G) : (Chip.refreshCut s d).good G := by
  unfold Chip.refreshCut
  try dsimp only
  repeat' first
    | with_reducible (first | assumption | apply Chip.putB_good | apply Chip.stopRecord_good | apply Chip.put_good
                            | apply Chip.stopActive_good | apply Chip.stageCut_good | apply Chip.ite_good
                            | apply Chip.upd_good | apply Chip.foldl_good) | with_reducible intro _ | split
    | exact ‹DieX.good _ _ _›

theorem Chip.clearHold_good {G : Watch} (s : Chip) (d : Die) (hs : s.good G) : (Chip.clearHold s d).good G := by
  unfold Chip.clearHold
  try dsimp only
  repeat' first
    | with_reducible (first | assumption | apply Chip.updCxs_good | apply Chip.ite_good | apply Chip.foldl_good)
    | with_reducible intro _ | split

theorem Chip.writeThmCfg_good {G : Watch} (s : Chip) (d : Die) (w : Word) (hs : s.good G) :
    (Chip.writeThmCfg s d w).good G := by
  unfold Chip.writeThmCfg
  try dsimp only
  repeat' first
    | with_reducible (first | assumption | apply Chip.refreshCut_good | apply Chip.ite_good | apply Chip.setReg_good
                            | apply Chip.foldl_good) | with_reducible intro _ | split

theorem Chip.clearExcl_good {G : Watch} (s : Chip) (d : Die) (i : Nat) (hs : s.good G) : (Chip.clearExcl s d i).good G := by
  unfold Chip.clearExcl
  try dsimp only
  repeat' first
    | with_reducible (first | assumption | apply Chip.updThm_good | apply Chip.ite_good | apply Chip.foldl_good)
    | with_reducible intro _ | split

theorem Chip.setSensor_good {G : Watch} (s : Chip) (d : Die) (i : Nat) (st : Nat) (hs : s.good G) :
    (Chip.setSensor s d i st).good G := by
  unfold Chip.setSensor
  try dsimp only
  repeat' first
    | with_reducible (first | assumption | apply Chip.putB_good | apply Chip.put_good | apply Chip.ite_good
                            | apply Chip.foldl_good) | with_reducible intro _ | split

theorem Chip.showInUse_good {G : Watch} (s : Chip) (d : Die) (hs : s.good G) : (Chip.showInUse s d).good G := by
  unfold Chip.showInUse
  try dsimp only
  repeat' first
    | with_reducible (first | assumption | apply Chip.putI_good | apply Chip.ite_good | apply Chip.each_good
                            | apply Chip.foldl_good) | with_reducible intro _ | split

theorem Chip.excludeSensor_good {G : Watch} (s : Chip) (d : Die) (i : Nat) (hs : s.good G) :
    (Chip.excludeSensor s d i).good G := by
  unfold Chip.excludeSensor
  try dsimp only
  repeat' first
    | with_reducible (first | assumption | apply Chip.event_good | apply Chip.setSensor_good)
    | with_reducible intro _ | split

theorem Chip.checkSensor_good {G : Watch} (d : Die) (use : List Int) (states : List Nat) (stay : Bool) (coreMW : Nat)
    (i : Nat) (s : Chip) (hs : s.good G) :
    (Chip.checkSensor d use states stay coreMW i s).good G := by
  unfold Chip.checkSensor
  try dsimp only
  repeat' first
    | with_reducible (first | assumption | apply Chip.putI_good | apply Chip.updThm_good | apply Chip.setSensor_good
                            | apply Chip.excludeSensor_good | apply Chip.cond_good | apply Chip.ite_good)
    | with_reducible intro _ | split

theorem Chip.keepGood_good {G : Watch} (d : Die) (i : Nat) (s : Chip) (hs : s.good G) : (Chip.keepGood d i s).good G := by
  unfold Chip.keepGood
  try dsimp only
  repeat' first
    | with_reducible (first | assumption | apply Chip.updThm_good | apply Chip.ite_good | apply Chip.foldl_good)
    | with_reducible intro _ | split

theorem Chip.evaluateLevel_good {G : Watch} (d : Die) (sense : Bool) (s : Chip) (hs : s.good G) :
    (Chip.evaluateLevel d sense s).good G := by
  unfold Chip.evaluateLevel
  try dsimp only
  repeat' first
    | with_reducible (first | assumption | apply Chip.put_good | apply Chip.putI_good | apply Chip.inc_good
                            | apply Chip.event_good | apply EngRun.step_good | apply EngRun.run_good
                            | apply Chip.updThm_good | apply Chip.orderlyStop_good | apply Chip.cond_good
                            | apply Chip.ite_good)
    | with_reducible intro _ | split

theorem Chip.thmEvaluation_good {G : Watch} (d : Die) (readings : List Int) (coreMW : Nat) (s : Chip) (hs : s.good G) :
    (Chip.thmEvaluation d readings coreMW s).good G := by
  unfold Chip.thmEvaluation
  try dsimp only
  repeat' first
    | with_reducible (first | assumption | apply Chip.putI_good | apply Chip.putB_good | apply Chip.each_good
                            | apply Chip.updThm_good | apply Chip.showInUse_good | apply Chip.checkSensor_good
                            | apply Chip.keepGood_good | apply Chip.evaluateLevel_good | apply Chip.ite_good)
    | with_reducible intro _ | split

theorem Chip.admitSensor_good {G : Watch} (d : Die) (i : Nat) (s : Chip) (hs : s.good G) :
    (Chip.admitSensor d i s).good G := by
  unfold Chip.admitSensor
  try dsimp only
  repeat' first
    | with_reducible (first | assumption | apply Chip.put_good | apply Chip.setSensor_good | apply Chip.updThm_good
                            | apply Chip.ite_good | apply Chip.foldl_good) | with_reducible intro _ | split

theorem Chip.thmLine_good {G : Watch} (d : Die) (s : Chip) (hs : s.good G) : (Chip.thmLine d s).good G := by
  unfold Chip.thmLine
  try dsimp only
  repeat' first
    | with_reducible (first | assumption | apply Chip.refreshCut_good | apply Chip.updThm_good
                            | apply Chip.admitSensor_good | apply Chip.updCxs_good | apply Chip.put_good
                            | apply Chip.ite_good | apply Chip.each_good | apply Chip.foldl_good) | with_reducible intro _
    | split

theorem Chip.sensorPage_good {G : Watch} (d : Die) (stay : Bool) (i : Nat) (s : Chip) (hs : s.good G) :
    (Chip.sensorPage d stay i s).good G := by
  unfold Chip.sensorPage
  try dsimp only
  repeat' first
    | with_reducible (first | assumption | apply Chip.put_good | apply Chip.setSensor_good
                            | apply Chip.excludeSensor_good | apply Chip.ite_good)
    | with_reducible intro _ | split

theorem Chip.thmPage_good {G : Watch} (d : Die) (s : Chip) (hs : s.good G) : (Chip.thmPage d s).good G := by
  unfold Chip.thmPage
  try dsimp only
  repeat' first
    | with_reducible (first | assumption | apply Chip.putI_good | apply Chip.putB_good | apply Chip.each_good
                            | apply Chip.updThm_good | apply Chip.depthStep_good | apply Chip.orderlyStop_good
                            | apply Chip.showInUse_good | apply Chip.sensorPage_good | apply Chip.cond_good)
    | with_reducible intro _ | split

theorem Chip.thermalHoldSet_good {G : Watch} (d : Die) (s : Chip) (hs : s.good G) : (Chip.thermalHoldSet d s).good G := by
  unfold Chip.thermalHoldSet
  try dsimp only
  repeat' first
    | with_reducible (first | assumption | apply Chip.put_good | apply Chip.bleedsStop_good | apply Chip.ite_good)
    | with_reducible intro _ | split

theorem Chip.checkFrame_good {G : Watch} (s : Chip) (d : Die) (p : Port) (f : FrameIn) (hs : s.good G) :
    (Chip.checkFrame s d p f).2.good G := by
  unfold Chip.checkFrame
  try dsimp only
  repeat' first
    | with_reducible (first | assumption | apply Chip.inc_good | apply Chip.report_good
                            | apply Chip.useInjection_good | apply Chip.updRing_good | apply Chip.linkFail_good
                            | apply Chip.cond_good | apply Chip.ite_good)
    | with_reducible intro _ | split

theorem Chip.noteMissing_good {G : Watch} (s : Chip) (d : Die) (f : FrameIn) (hs : s.good G) :
    (Chip.noteMissing s d f).good G := by
  unfold Chip.noteMissing
  try dsimp only
  repeat' first
    | with_reducible (first | assumption | apply Chip.updRing_good | apply Chip.ite_good)
    | with_reducible intro _ | split

theorem Chip.snoop_good {G : Watch} (s : Chip) (d : Die) (f : FrameIn) (hs : s.good G) : (Chip.snoop s d f).good G := by
  unfold Chip.snoop
  try dsimp only
  repeat' first
    | with_reducible (first | assumption | apply Chip.updRing_good | apply Chip.noteMissing_good
                            | apply Chip.ite_good)
    | with_reducible intro _ | split

theorem Chip.transitFrameReceived_good {G : Watch} (d : Die) (p : Port) (f : FrameIn) (s : Chip) (hs : s.good G) :
    (Chip.transitFrameReceived d p f s).good G := by
  unfold Chip.transitFrameReceived
  try dsimp only
  repeat' first
    | with_reducible (first | assumption | apply Chip.checkFrame_good | apply Chip.forward_good | apply Chip.snoop_good
                            | apply Chip.ite_good | apply Chip.cond_good | apply Chip.foldl_good) | with_reducible intro _
    | split

theorem Chip.sendHeld_good {G : Watch} (d : Die) (p : Port) (s : Chip) (hs : s.good G) :
    (Chip.sendHeld d p s).good G := by
  unfold Chip.sendHeld
  try dsimp only
  repeat' first
    | with_reducible (first | assumption | apply Chip.draw_good | apply Chip.updRing_good
                            | apply Chip.beaconWaits_good)
    | with_reducible intro _ | split

theorem Chip.frameInsertion_good {G : Watch} (d : Die) (s : Chip) (hs : s.good G) : (Chip.frameInsertion d s).good G := by
  unfold Chip.frameInsertion
  try dsimp only
  repeat' first
    | with_reducible (first | assumption | apply Chip.putB_good | apply Chip.inc_good | apply Chip.draw_good
                            | apply Chip.showLevel_good | apply Chip.updRing_good | apply Chip.sendHeld_good
                            | apply Chip.cond_good | apply Chip.ite_good)
    | with_reducible intro _ | split

theorem Chip.noteTaken_good {G : Watch} (s : Chip) (d : Die) (smod : Nat) (t : Nat) (seq : Nat) (hs : s.good G) :
    (Chip.noteTaken s d smod t seq).good G := by
  unfold Chip.noteTaken
  try dsimp only
  repeat' first
    | with_reducible (first | assumption | apply Chip.updRing_good | apply Chip.ite_good | apply Chip.foldl_good)
    | with_reducible intro _ | split

theorem Chip.dropTaken_good {G : Watch} (s : Chip) (d : Die) (smod : Nat) (t : Nat) (seq : Nat) (hs : s.good G) :
    (Chip.dropTaken s d smod t seq).good G := by
  unfold Chip.dropTaken
  try dsimp only
  repeat' first
    | with_reducible (first | assumption | apply Chip.updRing_good)
    | with_reducible intro _ | split

theorem Chip.scheduleBlot_good {G : Watch} (s : Chip) (d : Die) (seq : Nat) (at_ : Nat) (id : Nat) (hs : s.good G) :
    (Chip.scheduleBlot s d seq at_ id).good G := by
  unfold Chip.scheduleBlot
  try dsimp only
  repeat' first
    | with_reducible (first | assumption | apply Chip.put_good | apply Chip.inc_good | apply Chip.updRing_good
                            | apply Chip.ite_good)
    | with_reducible intro _ | split

theorem Chip.blotFrameReceived_good {G : Watch} (d : Die) (smod : Nat) (seq : Nat) (at_ : Nat) (blot : BlotIn) (s :
    Chip) (hs : s.good G) :
    (Chip.blotFrameReceived d smod seq at_ blot s).good G := by
  unfold Chip.blotFrameReceived
  try dsimp only
  repeat' first
    | with_reducible (first | assumption | apply Chip.linkFail_good | apply Chip.noteTaken_good
                            | apply Chip.scheduleBlot_good | apply Chip.ite_good)
    | with_reducible intro _ | split

theorem Chip.showHop_good {G : Watch} (s : Chip) (d : Die) (p : Port) (hs : s.good G) :
    (Chip.showHop s d p).good G := by
  unfold Chip.showHop
  try dsimp only
  repeat' first
    | with_reducible (first | assumption | apply Chip.putSat_good | apply Chip.ite_good)
    | with_reducible intro _ | split

theorem Chip.cutFrame_good {G : Watch} (s : Chip) (d : Die) (p : Port) (cut : Option FrameIn) (hs : s.good G) :
    (Chip.cutFrame s d p cut).good G := by
  unfold Chip.cutFrame
  try dsimp only
  repeat' first
    | with_reducible (first | assumption | apply Chip.forward_good | apply Chip.checkFrame_good
                            | apply Chip.ite_good)
    | with_reducible intro _ | split

theorem Chip.movePort_good {G : Watch} (s : Chip) (d : Die) (p : Port) (st : Nat) (hs : s.good G) :
    (Chip.movePort s d p st).good G := by
  unfold Chip.movePort
  try dsimp only
  repeat' first
    | with_reducible (first | assumption | apply Chip.put_good | apply Chip.inc_good | apply Chip.putB_good
                            | apply Chip.updRing_good | apply Chip.raise_good | apply Chip.portEvent_good
                            | apply Chip.ite_good | apply Chip.cond_good | apply Chip.foldl_good) | with_reducible intro _
    | split

end Sys2Proof.Machine
end

