-- ==== Sys2Proof/Laws/KeepsCommand.lean ====
section
/-! SUPPORT. Every operation keeps the stores in canonical form and what is watched: the journal, calibration, the lanes, checks and the boot ROM. -/

namespace Sys2Proof.Machine

theorem Chip.updJnl_good {G : Watch} (s : Chip) (d : Die) (f : JnlX → JnlX) (hs : s.good G) : (Chip.updJnl s d f).good G := by
  unfold Chip.updJnl
  try dsimp only
  repeat' first
    | with_reducible (first | assumption | apply Chip.ite_good | apply Chip.upd_good | apply Chip.foldl_good)
    | with_reducible intro _ | split | exact ‹DieX.good _ _ _›

theorem Chip.updEntry_good {G : Watch} (s : Chip) (d : Die) (seq : Nat) (f : Entry → Entry) (hs : s.good G) :
    (Chip.updEntry s d seq f).good G := by
  unfold Chip.updEntry
  try dsimp only
  repeat' first
    | with_reducible (first | assumption | apply Chip.updJnl_good | apply Chip.ite_good | apply Chip.foldl_good)
    | with_reducible intro _ | split

theorem Chip.showJournal_good {G : Watch} (s : Chip) (d : Die) (hs : s.good G) : (Chip.showJournal s d).good G := by
  unfold Chip.showJournal
  try dsimp only
  repeat' first
    | with_reducible (first | assumption | apply Chip.put_good | apply Chip.putB_good | apply Chip.gap_good
                            | apply Chip.updJnl_good | apply Chip.cond_good)
    | with_reducible intro _ | split

theorem Chip.showGuard_good {G : Watch} (s : Chip) (d : Die) (hs : s.good G) : (Chip.showGuard s d).good G := by
  unfold Chip.showGuard
  try dsimp only
  repeat' first
    | with_reducible (first | assumption | apply Chip.put_good | apply Chip.putSat_good | apply Chip.putB_good
                            | apply Chip.ite_good | apply Chip.foldl_good) | with_reducible intro _ | split

theorem Chip.advance_good {G : Watch} (s : Chip) (d : Die) (x2 : Nat) (hs : s.good G) : (Chip.advance s d x2).good G := by
  induction x2 generalizing s with
  | zero => exact hs
  | succ n ih =>
    unfold Chip.advance
    split
    · split
      · exact ih _ (Chip.put_good _ _ _ _ _ (Chip.updEntry_good _ _ _ _ hs))
      · exact hs
    · exact hs

theorem Chip.acceptMirrored_good {G : Watch} (s : Chip) (d : Die) (seq : Nat) (hs : s.good G) :
    (Chip.acceptMirrored s d seq).good G := by
  unfold Chip.acceptMirrored
  try dsimp only
  repeat' first
    | with_reducible (first | assumption | apply Chip.showJournal_good | apply Chip.advance_good
                            | apply Chip.updEntry_good | apply Chip.ite_good | apply Chip.foldl_good)
    | with_reducible intro _ | split

theorem Chip.makeRoom_good {G : Watch} (s : Chip) (d : Die) (t : Chip) (hs : s.good G) (ht : s.makeRoom d = some t) : t.good G := by
  unfold Chip.makeRoom at ht
  dsimp only at ht
  split at ht
  · cases ht; exact hs
  · obtain ⟨e, _, rfl⟩ := Option.map_eq_some_iff.mp ht
    exact Chip.updJnl_good _ _ _ hs

theorem Chip.journal_good {G : Watch} (s : Chip) (d : Die) (f : FrameIn) (st : EntryState) (hs : s.good G) :
    (Chip.journal s d f st).good G := by
  unfold Chip.journal
  try dsimp only
  repeat' first
    | with_reducible (first | assumption | apply Chip.updJnl_good | apply Chip.showJournal_good
                            | apply Chip.showGuard_good | apply Chip.acceptMirrored_good | apply Chip.ite_good)
    | with_reducible intro _ | split

theorem Chip.answerDuplicate_good {G : Watch} (s : Chip) (d : Die) (f : FrameIn) (e : Option Entry) (hs : s.good G) :
    (Chip.answerDuplicate s d f e).good G := by
  unfold Chip.answerDuplicate
  try dsimp only
  repeat' first
    | with_reducible (first | assumption | apply Chip.inc_good | apply Chip.draw_good | apply Chip.respond_good
                            | apply Chip.cond_good)
    | with_reducible intro _ | split

theorem Chip.refuseCopy_good {G : Watch} (s : Chip) (d : Die) (f : FrameIn) (status : Nat) (detail : Nat) (hs : s.good G) :
    (Chip.refuseCopy s d f status detail).good G := by
  unfold Chip.refuseCopy
  try dsimp only
  repeat' first
    | with_reducible (first | assumption | apply Chip.inc_good | apply Chip.respond_good)
    | with_reducible intro _ | split

theorem Chip.arrive_good {G : Watch} (s : Chip) (d : Die) (f : FrameIn) (hs : s.good G) : (Chip.arrive s d f).good G := by
  unfold Chip.arrive
  dsimp only
  split
  · split
    · exact Chip.answerDuplicate_good _ _ _ _ hs
    · exact hs
  · split
    · exact Chip.answerDuplicate_good _ _ _ _ hs
    · split
      · exact Chip.refuseCopy_good _ _ _ _ _ hs
      · split
        · exact Chip.refuseCopy_good _ _ _ _ _ hs
        · next t ht => exact Chip.journal_good _ _ _ _ (Chip.makeRoom_good _ _ _ hs ht)

theorem Chip.foreignCmd_good {G : Watch} (s : Chip) (d : Die) (f : FrameIn) (hs : s.good G) :
    (Chip.foreignCmd s d f).good G := by
  unfold Chip.foreignCmd
  try dsimp only
  repeat' first
    | with_reducible (first | assumption | apply Chip.inc_good | apply Chip.respond_good | apply Chip.noteTaken_good
                            | apply Chip.dropTaken_good | apply Chip.ite_good)
    | with_reducible intro _ | split

theorem Chip.cmdFrameArrival_good {G : Watch} (d : Die) (f : FrameIn) (s : Chip) (hs : s.good G) :
    (Chip.cmdFrameArrival d f s).good G := by
  unfold Chip.cmdFrameArrival
  try dsimp only
  repeat' first
    | with_reducible (first | assumption | apply Chip.inc_good | apply Chip.frameLinkFail_good
                            | apply Chip.noteTaken_good | apply Chip.refuseCopy_good | apply Chip.arrive_good
                            | apply Chip.foreignCmd_good | apply Chip.ite_good)
    | with_reducible intro _ | split

theorem Chip.answerEntry_good {G : Watch} (s : Chip) (d : Die) (e : Entry) (mask : Nat) (hs : s.good G) :
    (Chip.answerEntry s d e mask).good G := by
  unfold Chip.answerEntry
  try dsimp only
  repeat' first
    | with_reducible (first | assumption | apply Chip.respond_good | apply Chip.showJournal_good
                            | apply Chip.updEntry_good | apply Chip.showGuard_good | apply Chip.updJnl_good
                            | apply Chip.ite_good | apply Chip.foldl_good) | with_reducible intro _ | split

theorem Chip.forgetOutcomes_good {G : Watch} (s : Chip) (d : Die) (seq : Nat) (hs : s.good G) :
    (Chip.forgetOutcomes s d seq).good G := by
  unfold Chip.forgetOutcomes
  try dsimp only
  repeat' first
    | with_reducible (first | assumption | apply Chip.each_good | apply Chip.updJnl_good)
    | with_reducible intro _ | split

theorem Chip.answerRelay_good {G : Watch} (s : Chip) (d : Die) (e : Entry) (hs : s.good G) :
    (Chip.answerRelay s d e).good G := by
  unfold Chip.answerRelay
  try dsimp only
  repeat' first
    | with_reducible (first | assumption | apply Chip.answerEntry_good | apply Chip.forgetOutcomes_good)
    | with_reducible intro _ | split

theorem Chip.effectsDue_good {G : Watch} (s : Chip) (d : Die) (e : Entry) (hs : s.good G) :
    (Chip.effectsDue s d e).good G := by
  unfold Chip.effectsDue
  try dsimp only
  repeat' first
    | with_reducible (first | assumption | apply Chip.updJnl_good | apply Chip.updEntry_good)
    | with_reducible intro _ | split

theorem Chip.ownTurn_good {G : Watch} (s : Chip) (d : Die) (seq : Nat) (hs : s.good G) :
    (Chip.ownTurn s d seq).good G := by
  unfold Chip.ownTurn
  try dsimp only
  repeat' first
    | with_reducible (first | assumption | apply Chip.effectsDue_good | apply Chip.ite_good)
    | with_reducible intro _ | split

theorem Chip.joinOutcome_good {G : Watch} (s : Chip) (d : Die) (seq : Nat) (hs : s.good G) :
    (Chip.joinOutcome s d seq).good G := by
  unfold Chip.joinOutcome
  try dsimp only
  repeat' first
    | with_reducible (first | assumption | apply Chip.updEntry_good | apply Chip.answerRelay_good
                            | apply Chip.ite_good)
    | with_reducible intro _ | split

theorem Chip.releaseEntry_good {G : Watch} (s : Chip) (d : Die) (e : Entry) (hs : s.good G) :
    (Chip.releaseEntry s d e).good G := by
  unfold Chip.releaseEntry
  try dsimp only
  repeat' first
    | with_reducible (first | assumption | apply Chip.updEntry_good | apply Chip.answerEntry_good
                            | apply Chip.answerRelay_good | apply Chip.effectsDue_good | apply Chip.ownTurn_good
                            | apply Chip.ite_good)
    | with_reducible intro _ | split

theorem Chip.commit_good {G : Watch} (s : Chip) (d : Die) (e : Entry) (status : Nat) (detail : Nat) (results : List Byte)
    (effects : List Effect) (relay : Bool) (mask : Nat) (hs : s.good G) :
    (Chip.commit s d e status detail results effects relay mask).good G := by
  unfold Chip.commit
  try dsimp only
  repeat' first
    | with_reducible (first | assumption | apply Chip.put_good | apply EngRun.act_good | apply Chip.updJnl_good
                            | apply Chip.updEntry_good | apply Chip.showJournal_good | apply Chip.releaseEntry_good
                            | apply Chip.cond_good | apply Chip.ite_good)
    | with_reducible intro _ | split

theorem Chip.settle_good {G : Watch} (s : Chip) (d : Die) (e : Entry) (status : Nat) (detail : Nat) (hs : s.good G) :
    (Chip.settle s d e status detail).good G := by
  unfold Chip.settle
  try dsimp only
  repeat' first
    | with_reducible (first | assumption | apply Chip.commit_good)
    | with_reducible intro _ | split

theorem Chip.settleFront_good {G : Watch} (s : Chip) (d : Die) (e : Entry) (st : Nat) (det : Nat) (hs : s.good G) :
    (Chip.settleFront s d e st det).good G := by
  unfold Chip.settleFront
  try dsimp only
  repeat' first
    | with_reducible (first | assumption | apply Chip.inc_good | apply Chip.report_good | apply Chip.settle_good
                            | apply Chip.cond_good)
    | with_reducible intro _ | split

theorem Chip.finishForm_good {G : Watch} (s : Chip) (d : Die) (e : Entry) (f : Formed) (hs : s.good G) :
    (Chip.finishForm s d e f).good G := by
  unfold Chip.finishForm
  try dsimp only
  repeat' first
    | with_reducible (first | assumption | apply Chip.updEntry_good | apply Chip.commit_good
                            | apply Chip.settle_good | apply Chip.ite_good)
    | with_reducible intro _ | split

theorem Chip.portAccess_good {G : Watch} (s : Chip) (d : Die) (e : Entry) (hs : s.good G) :
    (Chip.portAccess s d e).good G := by
  unfold Chip.portAccess
  try dsimp only
  repeat' first
    | with_reducible (first | assumption | apply Chip.upd_good | apply Chip.ite_good)
    | with_reducible intro _ | split | exact ‹DieX.good _ _ _›

theorem Chip.accessBlock_good {G : Watch} (s : Chip) (d : Die) (block : Nat) (e : Entry) (f : Formed) (hs : s.good G)
    :
    (Chip.accessBlock s d block e f).good G := by
  unfold Chip.accessBlock
  try dsimp only
  repeat' first
    | with_reducible (first | assumption | apply Chip.draw_good | apply Chip.updEntry_good
                            | apply Chip.finishForm_good | apply Chip.portAccess_good | apply Chip.cond_good
                            | apply Chip.ite_good)
    | with_reducible intro _ | split

theorem Chip.executeEntry_good {G : Watch} (s : Chip) (d : Die) (seq : Nat) (op : Nat) (block : Nat)
    (form : Chip → List Byte → Chip.Formed) (hs : s.good G) :
    (Chip.executeEntry s d seq op block form).good G := by
  unfold Chip.executeEntry
  try dsimp only
  repeat' first
    | with_reducible (first | assumption | apply Chip.useInjection_good | apply Chip.settle_good
                            | apply Chip.settleFront_good | apply Chip.finishForm_good | apply Chip.accessBlock_good
                            | apply Chip.cond_good | apply Chip.ite_good)
    | with_reducible intro _ | split

theorem Chip.settleUnlisted_good {G : Watch} (s : Chip) (d : Die) (hs : s.good G) : (Chip.settleUnlisted s d).good G := by
  unfold Chip.settleUnlisted
  try dsimp only
  repeat' first
    | with_reducible (first | assumption | apply Chip.useInjection_good | apply Chip.settleFront_good
                            | apply Chip.cond_good | apply Chip.ite_good)
    | with_reducible intro _ | split

theorem Chip.updCal_good {G : Watch} (s : Chip) (d : Die) (f : CalX → CalX) (hs : s.good G) : (Chip.updCal s d f).good G := by
  unfold Chip.updCal
  try dsimp only
  repeat' first
    | with_reducible (first | assumption | apply Chip.ite_good | apply Chip.upd_good | apply Chip.foldl_good)
    | with_reducible intro _ | split | exact ‹DieX.good _ _ _›

theorem Chip.updPass_good {G : Watch} (s : Chip) (d : Die) (f : CalPass → CalPass) (hs : s.good G) :
    (Chip.updPass s d f).good G := by
  unfold Chip.updPass
  try dsimp only
  repeat' first
    | with_reducible (first | assumption | apply Chip.updCal_good | apply Chip.ite_good | apply Chip.foldl_good)
    | with_reducible intro _ | split

theorem Chip.trimPage_good {G : Watch} (s : Chip) (d : Die) (hs : s.good G) : (Chip.trimPage s d).good G := by
  unfold Chip.trimPage
  try dsimp only
  repeat' first
    | with_reducible (first | assumption | apply Chip.draw_good | apply Chip.freqOff_good | apply Chip.updThm_good
                            | apply Chip.cond_good)
    | with_reducible intro _ | split

theorem Chip.trimLine_good {G : Watch} (s : Chip) (d : Die) (hs : s.good G) : (Chip.trimLine s d).good G := by
  unfold Chip.trimLine
  try dsimp only
  repeat' first
    | with_reducible (first | assumption | apply Chip.updThm_good)
    | with_reducible intro _ | split

theorem Chip.setCalState_good {G : Watch} (s : Chip) (d : Die) (v : Nat) (hs : s.good G) :
    (Chip.setCalState s d v).good G := by
  unfold Chip.setCalState
  try dsimp only
  repeat' first
    | with_reducible (first | assumption | apply Chip.put_good | apply Chip.ite_good | apply Chip.foldl_good)
    | with_reducible intro _ | split

theorem Chip.calPending_good {G : Watch} (s : Chip) (d : Die) (cause : Nat) (hs : s.good G) :
    (Chip.calPending s d cause).good G := by
  unfold Chip.calPending
  try dsimp only
  repeat' first
    | with_reducible (first | assumption | apply Chip.updCal_good | apply Chip.put_good | apply Chip.ite_good
                            | apply Chip.foldl_good) | with_reducible intro _ | split

theorem Chip.calPendingOther_good {G : Watch} (s : Chip) (d : Die) (hs : s.good G) : (Chip.calPendingOther s d).good G := by
  unfold Chip.calPendingOther
  try dsimp only
  repeat' first
    | with_reducible (first | assumption | apply Chip.draw_good | apply Chip.calPending_good)
    | with_reducible intro _ | split

theorem Chip.calRequest_good {G : Watch} (s : Chip) (d : Die) (hs : s.good G) : (Chip.calRequest s d).good G := by
  unfold Chip.calRequest
  try dsimp only
  repeat' first
    | with_reducible (first | assumption | apply Chip.inc_good | apply Chip.calPending_good | apply Chip.ite_good
                            | apply Chip.foldl_good) | with_reducible intro _ | split

theorem Chip.calEvent_good {G : Watch} (s : Chip) (d : Die) (cause : Nat) (outcome : Nat) (accepted : List Nat)
    (failed : List Nat) (tref : Nat) (hs : s.good G) :
    (Chip.calEvent s d cause outcome accepted failed tref).good G := by
  unfold Chip.calEvent
  try dsimp only
  repeat' first
    | with_reducible (first | assumption | apply Chip.event_good | apply Chip.ite_good | apply Chip.foldl_good)
    | with_reducible intro _ | split

theorem Chip.settleEvery_good {G : Watch} (s : Chip) (d : Die) (hs : s.good G) : (Chip.settleEvery s d).good G := by
  unfold Chip.settleEvery
  try dsimp only
  repeat' first
    | with_reducible (first | assumption | apply Chip.each_good | apply Chip.settleChannel_good)
    | with_reducible intro _ | split

theorem Chip.abandonPass_good {G : Watch} (s : Chip) (d : Die) (pending : Bool) (hs : s.good G) :
    (Chip.abandonPass s d pending).good G := by
  unfold Chip.abandonPass
  try dsimp only
  repeat' first
    | with_reducible (first | assumption | apply Chip.put_good | apply Chip.each_good | apply Chip.cause_good
                            | apply Chip.spareGiveUp_good | apply Chip.updCal_good | apply Chip.setCalState_good
                            | apply Chip.calPendingOther_good | apply Chip.calEvent_good
                            | apply Chip.settleEvery_good | apply Chip.cond_good)
    | with_reducible intro _ | split

theorem Chip.endItem_good {G : Watch} (s : Chip) (d : Die) (code : Nat) (status : Nat) (hs : s.good G) :
    (Chip.endItem s d code status).good G := by
  unfold Chip.endItem
  try dsimp only
  repeat' first
    | with_reducible (first | assumption | apply Chip.put_good | apply Chip.report_good
                            | apply Chip.spareRelease_good | apply Chip.failChannel_good | apply EngRun.bad_good
                            | apply Chip.updPass_good | apply Chip.cond_good | apply Chip.ite_good)
    | with_reducible intro _ | split

theorem Chip.beginPass_good {G : Watch} (s : Chip) (d : Die) (cause : Nat) (st : Nat) (w : Nat) (hs : s.good G) :
    (Chip.beginPass s d cause st w).good G := by
  unfold Chip.beginPass
  try dsimp only
  repeat' first
    | with_reducible (first | assumption | apply Chip.put_good | apply Chip.cause_good | apply Chip.updCal_good
                            | apply Chip.setCalState_good | apply Chip.ite_good)
    | with_reducible intro _ | split

theorem Chip.calPassStart_good {G : Watch} (d : Die) (s : Chip) (hs : s.good G) : (Chip.calPassStart d s).good G := by
  unfold Chip.calPassStart
  try dsimp only
  repeat' first
    | with_reducible (first | assumption | apply Chip.beginPass_good | apply Chip.updCal_good
                            | apply Chip.abandonPass_good | apply Chip.put_good | apply Chip.ite_good
                            | apply Chip.foldl_good) | with_reducible intro _ | split

theorem Chip.calItemGrant_good {G : Watch} (d : Die) (s : Chip) (hs : s.good G) : (Chip.calItemGrant d s).good G := by
  unfold Chip.calItemGrant
  try dsimp only
  repeat' first
    | with_reducible (first | assumption | apply Chip.put_good | apply Chip.spareEnter_good
                            | apply Chip.updPass_good | apply Chip.setCalState_good | apply Chip.cond_good
                            | apply Chip.ite_good)
    | with_reducible intro _ | split

theorem Chip.updItem_good {G : Watch} (s : Chip) (d : Die) (code : Nat) (f : CalItem → CalItem) (hs : s.good G) :
    (Chip.updItem s d code f).good G := by
  unfold Chip.updItem
  try dsimp only
  repeat' first
    | with_reducible (first | assumption | apply Chip.updPass_good | apply Chip.ite_good | apply Chip.foldl_good)
    | with_reducible intro _ | split

theorem Chip.windowSpoilt_good {G : Watch} (s : Chip) (d : Die) (p : CalPass) (i : CalItem) (hs : s.good G) :
    (Chip.windowSpoilt s d p i).good G := by
  unfold Chip.windowSpoilt
  try dsimp only
  repeat' first
    | with_reducible (first | assumption | apply Chip.endItem_good | apply Chip.updItem_good | apply Chip.ite_good)
    | with_reducible intro _ | split

theorem Chip.calSpoil_good {G : Watch} (s : Chip) (d : Die) (hs : s.good G) : (Chip.calSpoil s d).good G := by
  unfold Chip.calSpoil
  try dsimp only
  repeat' first
    | with_reducible (first | assumption | apply Chip.updPass_good)
    | with_reducible intro _ | split

theorem Chip.calCandidate_good {G : Watch} (d : Die) (w : CalWin) (s : Chip) (hs : s.good G) :
    (Chip.calCandidate d w s).good G := by
  unfold Chip.calCandidate
  try dsimp only
  repeat' first
    | with_reducible (first | assumption | apply Chip.draw_good | apply Chip.endItem_good | apply Chip.updItem_good
                            | apply Chip.windowSpoilt_good | apply Chip.ite_good)
    | with_reducible intro _ | split

theorem Chip.calItemVerdict_good {G : Watch} (d : Die) (w : CalWin) (s : Chip) (hs : s.good G) :
    (Chip.calItemVerdict d w s).good G := by
  unfold Chip.calItemVerdict
  try dsimp only
  repeat' first
    | with_reducible (first | assumption | apply Chip.updPass_good | apply Chip.endItem_good
                            | apply Chip.windowSpoilt_good | apply Chip.ite_good)
    | with_reducible intro _ | split

theorem Chip.endSense_good {G : Watch} (s : Chip) (d : Die) (n : Nat) (good : Option (Int × Int)) (hs : s.good G) :
    (Chip.endSense s d n good).good G := by
  unfold Chip.endSense
  try dsimp only
  repeat' first
    | with_reducible (first | assumption | apply Chip.updPass_good | apply Chip.ite_good)
    | with_reducible intro _ | split

theorem Chip.currentSenseItem_good {G : Watch} (d : Die) (n : Nat) (r : RcalIn) (s : Chip) (hs : s.good G) :
    (Chip.currentSenseItem d n r s).good G := by
  unfold Chip.currentSenseItem
  try dsimp only
  repeat' first
    | with_reducible (first | assumption | apply Chip.put_good | apply Chip.report_good | apply Chip.updCal_good
                            | apply Chip.endSense_good | apply Chip.ite_good)
    | with_reducible intro _ | split

theorem Chip.applyItem_good {G : Watch} (d : Die) (a : Nat × Int × Int × Nat) (s : Chip) (hs : s.good G) :
    (Chip.applyItem d a s).good G := by
  unfold Chip.applyItem
  try dsimp only
  repeat' first
    | with_reducible (first | assumption | apply Chip.put_good | apply Chip.putI_good | apply Chip.ite_good
                            | apply Chip.foldl_good) | with_reducible intro _ | split

theorem Chip.calPassEnd_good {G : Watch} (d : Die) (s : Chip) (hs : s.good G) : (Chip.calPassEnd d s).good G := by
  unfold Chip.calPassEnd
  try dsimp only
  repeat' first
    | with_reducible (first | assumption | apply Chip.setReg_good | apply Chip.put_good | apply Chip.inc_good
                            | apply Chip.each_good | apply Chip.draw_good | apply Chip.cause_good
                            | apply Chip.updCal_good | apply Chip.setCalState_good | apply Chip.calEvent_good
                            | apply Chip.settleEvery_good | apply Chip.applyItem_good | apply Chip.cond_good
                            | apply Chip.ite_good)
    | with_reducible intro _ | split

theorem Chip.senseLine_good {G : Watch} (s : Chip) (d : Die) (hs : s.good G) : (Chip.senseLine s d).good G := by
  unfold Chip.senseLine
  try dsimp only
  repeat' first
    | with_reducible (first | assumption | apply Chip.updCal_good | apply Chip.ite_good)
    | with_reducible intro _ | split

theorem Chip.skipSenses_good {G : Watch} (s : Chip) (d : Die) (skip : Nat → Bool) (hs : s.good G) :
    (Chip.skipSenses s d skip).good G := by
  unfold Chip.skipSenses
  try dsimp only
  repeat' first
    | with_reducible (first | assumption | apply Chip.updPass_good | apply Chip.ite_good)
    | with_reducible intro _ | split

theorem Chip.senseAtOnce_good {G : Watch} (s : Chip) (d : Die) (hs : s.good G) : (Chip.senseAtOnce s d).good G := by
  unfold Chip.senseAtOnce
  try dsimp only
  repeat' first
    | with_reducible (first | assumption | apply Chip.skipSenses_good | apply Chip.cond_good)
    | with_reducible intro _ | split

theorem Chip.sensePage_good {G : Watch} (s : Chip) (d : Die) (hs : s.good G) : (Chip.sensePage s d).good G := by
  unfold Chip.sensePage
  try dsimp only
  repeat' first
    | with_reducible (first | assumption | apply Chip.updCal_good | apply Chip.skipSenses_good)
    | with_reducible intro _ | split

theorem Chip.calLine_good {G : Watch} (d : Die) (s : Chip) (hs : s.good G) : (Chip.calLine d s).good G := by
  unfold Chip.calLine
  try dsimp only
  repeat' first
    | with_reducible (first | assumption | apply Chip.updCal_good | apply Chip.updPass_good
                            | apply Chip.trimLine_good | apply Chip.setCalState_good | apply Chip.senseLine_good
                            | apply Chip.senseAtOnce_good | apply Chip.ite_good)
    | with_reducible intro _ | split

theorem Chip.refEvent_good {G : Watch} (s : Chip) (d : Die) (hs : s.good G) : (Chip.refEvent s d).good G := by
  unfold Chip.refEvent
  try dsimp only
  repeat' first
    | with_reducible (first | assumption | apply Chip.event_good | apply Chip.ite_good | apply Chip.foldl_good)
    | with_reducible intro _ | split

theorem Chip.refDisagree_good {G : Watch} (s : Chip) (d : Die) (m : PageMeas) (hs : s.good G) :
    (Chip.refDisagree s d m).good G := by
  unfold Chip.refDisagree
  try dsimp only
  repeat' first
    | with_reducible (first | assumption | apply Chip.put_good | apply Chip.raise_good
                            | apply Chip.calPendingOther_good | apply Chip.abandonPass_good
                            | apply Chip.refEvent_good | apply Chip.cond_good | apply Chip.ite_good)
    | with_reducible intro _ | split

theorem Chip.refMonitor_good {G : Watch} (s : Chip) (d : Die) (m : PageMeas) (hs : s.good G) :
    (Chip.refMonitor s d m).good G := by
  unfold Chip.refMonitor
  try dsimp only
  repeat' first
    | with_reducible (first | assumption | apply Chip.put_good | apply Chip.putI_good | apply Chip.putB_good
                            | apply Chip.cause_good | apply EngRun.bad_good | apply Chip.updCal_good
                            | apply Chip.refDisagree_good | apply Chip.cond_good | apply Chip.ite_good)
    | with_reducible intro _ | split

theorem Chip.calTriggers_good {G : Watch} (s : Chip) (d : Die) (hs : s.good G) : (Chip.calTriggers s d).good G := by
  unfold Chip.calTriggers
  try dsimp only
  repeat' first
    | with_reducible (first | assumption | apply Chip.calPending_good | apply Chip.ite_good)
    | with_reducible intro _ | split

theorem Chip.calPage_good {G : Watch} (d : Die) (m : PageMeas) (s : Chip) (hs : s.good G) : (Chip.calPage d m s).good G := by
  unfold Chip.calPage
  try dsimp only
  repeat' first
    | with_reducible (first | assumption | apply Chip.putB_good | apply Chip.inc_good | apply Chip.each_good
                            | apply Chip.updCal_good | apply Chip.updPass_good | apply Chip.trimPage_good
                            | apply Chip.sensePage_good | apply Chip.refMonitor_good | apply Chip.calTriggers_good
                            | apply Chip.cond_good)
    | with_reducible intro _ | split

theorem Chip.writeCalCmd_good {G : Watch} (s : Chip) (d : Die) (w : Word) (hs : s.good G) :
    (Chip.writeCalCmd s d w).good G := by
  unfold Chip.writeCalCmd
  try dsimp only
  repeat' first
    | with_reducible (first | assumption | apply Chip.put_good | apply Chip.calPendingOther_good
                            | apply Chip.calRequest_good | apply Chip.abandonPass_good | apply Chip.cond_good
                            | apply Chip.ite_good)
    | with_reducible intro _ | split

theorem Chip.updNib_good {G : Watch} (s : Chip) (d : Die) (f : NibX → NibX) (hs : s.good G) : (Chip.updNib s d f).good G := by
  unfold Chip.updNib
  try dsimp only
  repeat' first
    | with_reducible (first | assumption | apply Chip.ite_good | apply Chip.upd_good | apply Chip.foldl_good)
    | with_reducible intro _ | split | exact ‹DieX.good _ _ _›

theorem Chip.updLane_good {G : Watch} (s : Chip) (d : Die) (q : Nat) (f : LaneX → LaneX) (hs : s.good G) :
    (Chip.updLane s d q f).good G := by
  unfold Chip.updLane
  try dsimp only
  repeat' first
    | with_reducible (first | assumption | apply Chip.updNib_good | apply Chip.ite_good | apply Chip.foldl_good)
    | with_reducible intro _ | split

theorem Chip.setLaneMode_good {G : Watch} (s : Chip) (d : Die) (q : Nat) (m : Nat) (hs : s.good G) :
    (Chip.setLaneMode s d q m).good G := by
  unfold Chip.setLaneMode
  try dsimp only
  repeat' first
    | with_reducible (first | assumption | apply Chip.put_good | apply Chip.ite_good | apply Chip.foldl_good)
    | with_reducible intro _ | split

theorem Chip.showNibCount_good {G : Watch} (s : Chip) (d : Die) (hs : s.good G) : (Chip.showNibCount s d).good G := by
  unfold Chip.showNibCount
  try dsimp only
  repeat' first
    | with_reducible (first | assumption | apply Chip.put_good | apply Chip.ite_good | apply Chip.each_good
                            | apply Chip.foldl_good) | with_reducible intro _ | split

theorem Chip.touch_good {G : Watch} (s : Chip) (d : Die) (e : Nat) (hs : s.good G) : (Chip.touch s d e).good G := by
  unfold Chip.touch
  try dsimp only
  repeat' first
    | with_reducible (first | assumption | apply Chip.updNib_good | apply Chip.ite_good | apply Chip.foldl_good)
    | with_reducible intro _ | split

theorem Chip.putEntry_good {G : Watch} (s : Chip) (d : Die) (e : Nat) (f : Fld) (v : Nat) (hs : s.good G) :
    (Chip.putEntry s d e f v).good G := by
  unfold Chip.putEntry
  try dsimp only
  repeat' first
    | with_reducible (first | assumption | apply Chip.touch_good | apply Chip.put_good | apply Chip.ite_good
                            | apply Chip.foldl_good) | with_reducible intro _ | split

theorem Chip.setEntryState_good {G : Watch} (s : Chip) (d : Die) (e : Nat) (st : Nat) (hs : s.good G) :
    (Chip.setEntryState s d e st).good G := by
  unfold Chip.setEntryState
  try dsimp only
  repeat' first
    | with_reducible (first | assumption | apply Chip.updNib_good | apply Chip.putEntry_good
                            | apply Chip.showNibCount_good | apply Chip.nibTempEnd_good | apply Chip.ite_good
                            | apply Chip.cond_good | apply Chip.foldl_good) | with_reducible intro _ | split

theorem Chip.clearEntry_good {G : Watch} (s : Chip) (d : Die) (e : Nat) (hs : s.good G) : (Chip.clearEntry s d e).good G := by
  unfold Chip.clearEntry
  try dsimp only
  repeat' first
    | with_reducible (first | assumption | apply Chip.setEntryState_good | apply Chip.touch_good | apply Chip.updNib_good
                            | apply Chip.ite_good | apply Chip.setReg_good | apply Chip.each_good | apply Chip.foldl_good)
    | with_reducible intro _ | split

theorem Chip.copyEntry_good {G : Watch} (s : Chip) (d : Die) (src : Die) (e : Nat) (hs : s.good G) :
    (Chip.copyEntry s d src e).good G := by
  unfold Chip.copyEntry
  try dsimp only
  repeat' first
    | with_reducible (first | assumption | apply Chip.ite_good | apply Chip.setReg_good | apply Chip.each_good
                            | apply Chip.foldl_good) | with_reducible intro _ | split

theorem Chip.nibRosterTransfer_good {G : Watch} (d : Die) (parity : Option (Nat × Bool)) (s : Chip) (hs : s.good G) :
    (Chip.nibRosterTransfer d parity s).good G := by
  unfold Chip.nibRosterTransfer
  try dsimp only
  repeat' first
    | with_reducible (first | assumption | apply Chip.report_good | apply Chip.useInjection_good
                            | apply Chip.updNib_good | apply Chip.touch_good | apply Chip.setEntryState_good
                            | apply Chip.cond_good | apply Chip.ite_good | apply Chip.foldl_good)
    | with_reducible intro _ | split

theorem Chip.rosterUpdateReceived_good {G : Watch} (d : Die) (src : Die) (e : Nat) (s : Chip) (hs : s.good G) :
    (Chip.rosterUpdateReceived d src e s).good G := by
  unfold Chip.rosterUpdateReceived
  try dsimp only
  repeat' first
    | with_reducible (first | assumption | apply Chip.updNib_good | apply Chip.copyEntry_good | apply Chip.ite_good
                            | apply Chip.foldl_good) | with_reducible intro _ | split

theorem Chip.drive_good {G : Watch} (s : Chip) (d : Die) (q : Nat) (bits : List Bool) (hs : s.good G) :
    (Chip.drive s d q bits).good G := by
  unfold Chip.drive
  try dsimp only
  repeat' first
    | with_reducible (first | assumption | apply Chip.updLane_good)
    | with_reducible intro _ | split

theorem Chip.rollCall_good {G : Watch} (s : Chip) (d : Die) (q : Nat) (answered : Bool) (hs : s.good G) :
    (Chip.rollCall s d q answered).good G := by
  unfold Chip.rollCall
  try dsimp only
  repeat' first
    | with_reducible (first | assumption | apply Chip.putB_good | apply Chip.updLane_good)
    | with_reducible intro _ | split

theorem Chip.nameNib_good {G : Watch} (s : Chip) (d : Die) (q : Nat) (e : Nat) (hs : s.good G) :
    (Chip.nameNib s d q e).good G := by
  unfold Chip.nameNib
  try dsimp only
  repeat' first
    | with_reducible (first | assumption | apply Chip.updLane_good | apply Chip.drive_good)
    | with_reducible intro _ | split

theorem Chip.park_good {G : Watch} (s : Chip) (d : Die) (q : Nat) (hs : s.good G) : (Chip.park s d q).good G := by
  unfold Chip.park
  try dsimp only
  repeat' first
    | with_reducible (first | assumption | apply Chip.drive_good)
    | with_reducible intro _ | split

theorem Chip.admitEntry_good {G : Watch} (s : Chip) (d : Die) (q : Nat) (e : Nat) (echo : Nat) (hs : s.good G) :
    (Chip.admitEntry s d q e echo).good G := by
  unfold Chip.admitEntry
  try dsimp only
  repeat' first
    | with_reducible (first | assumption | apply Chip.put_good | apply Chip.updNib_good | apply Chip.putEntry_good
                            | apply Chip.setEntryState_good | apply Chip.drive_good | apply Chip.nameNib_good
                            | apply Chip.park_good | apply Chip.ite_good)
    | with_reducible intro _ | split

theorem Chip.admitNib_good {G : Watch} (s : Chip) (d : Die) (q : Nat) (id : Nat) (echo : Nat) (hs : s.good G) :
    (Chip.admitNib s d q id echo).good G := by
  unfold Chip.admitNib
  try dsimp only
  repeat' first
    | with_reducible (first | assumption | apply Chip.setReg_good | apply Chip.put_good | apply Chip.report_good
                            | apply Chip.putEntry_good | apply Chip.setEntryState_good | apply Chip.clearEntry_good
                            | apply Chip.park_good | apply Chip.admitEntry_good | apply Chip.ite_good)
    | with_reducible intro _ | split

theorem Chip.search_good {G : Watch} (d : Die) (q : Nat) (x2 : List WalkIn) (x3 : Nat) (x4 : Bool) (x5 : Chip)
    (hx5 : x5.good G) :
    (Chip.search d q x2 x3 x4 x5).good G := by
  induction x2 generalizing x3 x4 x5 with
  | nil => unfold Chip.search; exact hx5
  | cons w rest ih =>
    cases x3 with
    | zero => unfold Chip.search; exact hx5
    | succ n =>
      unfold Chip.search
      dsimp only
      split
      · exact Chip.rollCall_good _ _ _ _ hx5
      · generalize (List.flatten _) = l
        have hp := Chip.drive_good _ d q (guarded ordWalkNew ++ l) (Chip.rollCall_good _ d q true hx5)
        split
        · exact hp
        · split
          · split
            · exact Chip.inc_good _ _ _ _ _ hp
            · exact ih _ _ _ (Chip.inc_good _ _ _ _ _ hp)
          · split
            · exact ih _ _ _ (Chip.park_good _ _ _ (Chip.report_good _ _ _ (Chip.inc_good _ _ _ _ _ hp)))
            · exact ih _ _ _ (Chip.admitNib_good _ _ _ _ _ hp)

theorem Chip.laneStream_good {G : Watch} (s : Chip) (d : Die) (q : Nat) (hs : s.good G) : (Chip.laneStream s d q).good G := by
  unfold Chip.laneStream
  try dsimp only
  repeat' first
    | with_reducible (first | assumption | apply Chip.putSat_good | apply Chip.setLaneMode_good
                            | apply Chip.ite_good)
    | with_reducible intro _ | split

theorem Chip.streamReset_good {G : Watch} (s : Chip) (d : Die) (q : Nat) (answered : Bool) (hs : s.good G) :
    (Chip.streamReset s d q answered).good G := by
  unfold Chip.streamReset
  try dsimp only
  repeat' first
    | with_reducible (first | assumption | apply Chip.setLaneMode_good | apply Chip.drive_good
                            | apply Chip.rollCall_good | apply Chip.laneStream_good | apply Chip.ite_good)
    | with_reducible intro _ | split

theorem Chip.waitEdge_good {G : Watch} (s : Chip) (d : Die) (q : Nat) (hs : s.good G) :
    (Chip.waitEdge s d q).good G := by
  unfold Chip.waitEdge
  try dsimp only
  repeat' first
    | with_reducible (first | assumption | apply Chip.updLane_good)
    | with_reducible intro _ | split

theorem Chip.releaseSlots_good {G : Watch} (s : Chip) (d : Die) (q : Nat) (hs : s.good G) :
    (Chip.releaseSlots s d q).good G := by
  unfold Chip.releaseSlots
  try dsimp only
  repeat' first
    | with_reducible (first | assumption | apply Chip.each_good | apply Chip.putEntry_good | apply Chip.drive_good
                            | apply Chip.nameNib_good)
    | with_reducible intro _ | split

theorem Chip.laneDue_good {G : Watch} (s : Chip) (d : Die) (q : Nat) (hs : s.good G) : (Chip.laneDue s d q).good G := by
  unfold Chip.laneDue
  try dsimp only
  repeat' first
    | with_reducible (first | assumption | apply Chip.updLane_good | apply Chip.setLaneMode_good
                            | apply Chip.ite_good)
    | with_reducible intro _ | split

theorem Chip.lanesUp_good {G : Watch} (s : Chip) (d : Die) (hs : s.good G) : (Chip.lanesUp s d).good G := by
  unfold Chip.lanesUp
  try dsimp only
  repeat' first
    | with_reducible (first | assumption | apply Chip.showNibCount_good | apply Chip.laneDue_good)
    | with_reducible intro _ | split

theorem Chip.laneStart_good {G : Watch} (d : Die) (q : Nat) (walks : List WalkIn) (clear : Bool) (stream : Bool) (s :
    Chip) (hs : s.good G) :
    (Chip.laneStart d q walks clear stream s).good G := by
  unfold Chip.laneStart
  try dsimp only
  repeat' first
    | with_reducible (first | assumption | apply Chip.put_good | apply Chip.each_good | apply Chip.stream_good
                            | apply Chip.updLane_good | apply Chip.setLaneMode_good | apply Chip.setEntryState_good
                            | apply Chip.drive_good | apply Chip.rollCall_good | apply Chip.search_good
                            | apply Chip.streamReset_good | apply Chip.releaseSlots_good | apply Chip.cond_good
                            | apply Chip.ite_good)
    | with_reducible intro _ | split

theorem Chip.census_good {G : Watch} (d : Die) (q : Nat) (walks : List WalkIn) (echoes : List Nat) (stream : Bool) (s
    : Chip) (hs : s.good G) :
    (Chip.census d q walks echoes stream s).good G := by
  unfold Chip.census
  try dsimp only
  repeat' first
    | with_reducible (first | assumption | apply Chip.each_good | apply Chip.stream_good | apply Chip.updLane_good
                            | apply Chip.nameNib_good | apply Chip.admitEntry_good | apply Chip.search_good
                            | apply Chip.streamReset_good | apply Chip.releaseSlots_good | apply Chip.ite_good)
    | with_reducible intro _ | split

theorem Chip.cycleEdge_good {G : Watch} (s : Chip) (d : Die) (q : Nat) (hs : s.good G) :
    (Chip.cycleEdge s d q).good G := by
  unfold Chip.cycleEdge
  try dsimp only
  repeat' first
    | with_reducible (first | assumption | apply Chip.updLane_good | apply Chip.laneStream_good)
    | with_reducible intro _ | split

theorem Chip.streamCycleStart_good {G : Watch} (d : Die) (q : Nat) (hold : Nat) (held : Bool) (s : Chip) (hs : s.good
    G) :
    (Chip.streamCycleStart d q hold held s).good G := by
  unfold Chip.streamCycleStart
  try dsimp only
  repeat' first
    | with_reducible (first | assumption | apply Chip.putB_good | apply Chip.putSat_good | apply Chip.updLane_good
                            | apply Chip.setLaneMode_good | apply Chip.census_good | apply Chip.cycleEdge_good
                            | apply Chip.cond_good | apply Chip.ite_good)
    | with_reducible intro _ | split

theorem Chip.noteSeen_good {G : Watch} (s : Chip) (d : Die) (e : Nat) (bits : Nat) (hs : s.good G) :
    (Chip.noteSeen s d e bits).good G := by
  unfold Chip.noteSeen
  try dsimp only
  repeat' first
    | with_reducible (first | assumption | apply Chip.updNib_good | apply Chip.ite_good | apply Chip.foldl_good)
    | with_reducible intro _ | split

theorem Chip.missFrame_good {G : Watch} (s : Chip) (d : Die) (e : Nat) (hs : s.good G) : (Chip.missFrame s d e).good G := by
  unfold Chip.missFrame
  try dsimp only
  repeat' first
    | with_reducible (first | assumption | apply Chip.setEntryState_good | apply Chip.updNib_good | apply Chip.ite_good
                            | apply Chip.foldl_good) | with_reducible intro _ | split

theorem Chip.brokenCheck_good {G : Watch} (s : Chip) (d : Die) (e : Nat) (temp : Int) (hs : s.good G) :
    (Chip.brokenCheck s d e temp).good G := by
  unfold Chip.brokenCheck
  try dsimp only
  repeat' first
    | with_reducible (first | assumption | apply Chip.updNib_good | apply Chip.showNibCount_good
                            | apply Chip.putEntry_good | apply Chip.ite_good | apply Chip.foldl_good)
    | with_reducible intro _ | split

theorem Chip.validFrame_good {G : Watch} (s : Chip) (d : Die) (e : Nat) (f : Nat) (hs : s.good G) :
    (Chip.validFrame s d e f).good G := by
  unfold Chip.validFrame
  try dsimp only
  repeat' first
    | with_reducible (first | assumption | apply Chip.put_good | apply Chip.nibTemp_good | apply Chip.updNib_good
                            | apply Chip.putEntry_good | apply Chip.setEntryState_good | apply Chip.noteSeen_good
                            | apply Chip.brokenCheck_good | apply Chip.cond_good | apply Chip.ite_good)
    | with_reducible intro _ | split

theorem Chip.nibWindowDecision_good {G : Watch} (d : Die) (q : Nat) (slot : Nat) (wire : BitVec 40) (s : Chip)
    (hs : s.good G) :
    (Chip.nibWindowDecision d q slot wire s).good G := by
  unfold Chip.nibWindowDecision
  try dsimp only
  repeat' first
    | with_reducible (first | assumption | apply Chip.inc_good | apply Chip.report_good
                            | apply Chip.useInjection_good | apply Chip.putEntry_good | apply Chip.noteSeen_good
                            | apply Chip.missFrame_good | apply Chip.validFrame_good | apply Chip.cond_good
                            | apply Chip.ite_good)
    | with_reducible intro _ | split

theorem Chip.laneShort_good {G : Watch} (d : Die) (q : Nat) (s : Chip) (hs : s.good G) : (Chip.laneShort d q s).good G := by
  unfold Chip.laneShort
  try dsimp only
  repeat' first
    | with_reducible (first | assumption | apply Chip.put_good | apply Chip.updLane_good
                            | apply Chip.setLaneMode_good | apply Chip.census_good | apply Chip.ite_good)
    | with_reducible intro _ | split

theorem Chip.dutyGovernorRelease_good {G : Watch} (d : Die) (q : Nat) (lowUs : Nat) (highUs : Nat) (s : Chip)
    (hs : s.good G) :
    (Chip.dutyGovernorRelease d q lowUs highUs s).good G := by
  unfold Chip.dutyGovernorRelease
  try dsimp only
  repeat' first
    | with_reducible (first | assumption | apply Chip.updLane_good | apply Chip.cycleEdge_good | apply Chip.ite_good)
    | with_reducible intro _ | split

theorem Chip.writeQlnCmd_good {G : Watch} (s : Chip) (d : Die) (q : Nat) (w : Word) (hs : s.good G) :
    (Chip.writeQlnCmd s d q w).good G := by
  unfold Chip.writeQlnCmd
  try dsimp only
  repeat' first
    | with_reducible (first | assumption | apply Chip.draw_good | apply Chip.updLane_good
                            | apply Chip.setLaneMode_good | apply Chip.rollCall_good | apply Chip.waitEdge_good
                            | apply Chip.laneDue_good | apply Chip.census_good | apply Chip.cond_good
                            | apply Chip.ite_good)
    | with_reducible intro _ | split

theorem Chip.writeQlnCfg_good {G : Watch} (s : Chip) (d : Die) (q : Nat) (w : Word) (hs : s.good G) :
    (Chip.writeQlnCfg s d q w).good G := by
  unfold Chip.writeQlnCfg
  try dsimp only
  repeat' first
    | with_reducible (first | assumption | apply Chip.laneDue_good | apply Chip.ite_good | apply Chip.setReg_good
                            | apply Chip.cond_good | apply Chip.foldl_good) | with_reducible intro _ | split

theorem Chip.rawOp_good {G : Watch} (s : Chip) (d : Die) (q : Nat) (op : Nat) (nbits : Nat) (data : Nat) (answer : Nat)
    (hs : s.good G) :
    (Chip.rawOp s d q op nbits data answer).good G := by
  unfold Chip.rawOp
  try dsimp only
  repeat' first
    | with_reducible (first | assumption | apply Chip.setReg_good | apply Chip.putSat_good | apply Chip.updLane_good
                            | apply Chip.setLaneMode_good | apply Chip.drive_good | apply Chip.rollCall_good
                            | apply Chip.waitEdge_good | apply Chip.cond_good | apply Chip.ite_good)
    | with_reducible intro _ | split

theorem Chip.writeRaw_good {G : Watch} (s : Chip) (d : Die) (q : Nat) (w : Word) (hs : s.good G) :
    (Chip.writeRaw s d q w).good G := by
  unfold Chip.writeRaw
  try dsimp only
  repeat' first
    | with_reducible (first | assumption | apply Chip.draw_good | apply Chip.rawOp_good | apply Chip.ite_good)
    | with_reducible intro _ | split

theorem Chip.writeEntry_good {G : Watch} (s : Chip) (e : Nat) (word : Nat) (w : Word) (hs : s.good G) :
    (Chip.writeEntry s e word w).good G := by
  unfold Chip.writeEntry
  try dsimp only
  repeat' first
    | with_reducible (first | assumption | apply Chip.setReg_good | apply Chip.showNibTemp_good
                            | apply Chip.updNib_good | apply Chip.showNibCount_good | apply Chip.touch_good
                            | apply Chip.putEntry_good | apply Chip.setEntryState_good | apply Chip.clearEntry_good
                            | apply Chip.cond_good | apply Chip.ite_good)
    | with_reducible intro _ | split

theorem Chip.writeEntryCopy_good {G : Watch} (s : Chip) (k : Die) (e : Nat) (word : Nat) (w : Word) (hs : s.good G) :
    (Chip.writeEntryCopy s k e word w).good G := by
  unfold Chip.writeEntryCopy
  try dsimp only
  repeat' first
    | with_reducible (first | assumption | apply Chip.setReg_good | apply Chip.each_good | apply Chip.ite_good)
    | with_reducible intro _ | split

theorem Chip.applyEntryWrite_good {G : Watch} (s : Chip) (k : Die) (e : Nat) (word : Nat) (w : Word) (hs : s.good G) :
    (Chip.applyEntryWrite s k e word w).good G := by
  unfold Chip.applyEntryWrite
  try dsimp only
  repeat' first
    | with_reducible (first | assumption | apply Chip.writeEntry_good | apply Chip.writeEntryCopy_good
                            | apply Chip.ite_good)
    | with_reducible intro _ | split

theorem Chip.censusDue_good {G : Watch} (s : Chip) (d : Die) (q : Nat) (hs : s.good G) : (Chip.censusDue s d q).good G := by
  unfold Chip.censusDue
  try dsimp only
  repeat' first
    | with_reducible (first | assumption | apply Chip.inc_good | apply Chip.updLane_good | apply Chip.ite_good
                            | apply Chip.foldl_good) | with_reducible intro _ | split

theorem Chip.nibSummary_good {G : Watch} (d : Die) (s : Chip) (hs : s.good G) : (Chip.nibSummary d s).good G := by
  unfold Chip.nibSummary
  try dsimp only
  repeat' first
    | with_reducible (first | assumption | apply Chip.offerStream_good | apply Chip.ite_good | apply Chip.each_good
                            | apply Chip.foldl_good) | with_reducible intro _ | split

theorem Chip.nibPage_good {G : Watch} (d : Die) (s : Chip) (hs : s.good G) : (Chip.nibPage d s).good G := by
  unfold Chip.nibPage
  try dsimp only
  repeat' first
    | with_reducible (first | assumption | apply Chip.updNib_good | apply Chip.nibSummary_good | apply Chip.inc_good
                            | apply Chip.censusDue_good | apply Chip.updLane_good | apply Chip.ite_good
                            | apply Chip.cond_good | apply Chip.each_good | apply Chip.foldl_good)
    | with_reducible intro _ | split

theorem Chip.rosterDieLost_good {G : Watch} (s : Chip) (d : Die) (lost : Die) (hs : s.good G) :
    (Chip.rosterDieLost s d lost).good G := by
  unfold Chip.rosterDieLost
  try dsimp only
  repeat' first
    | with_reducible (first | assumption | apply Chip.put_good | apply Chip.ite_good | apply Chip.each_good
                            | apply Chip.foldl_good) | with_reducible intro _ | split

theorem Chip.chkRun_good {G : Watch} (s : Chip) (d : Die) (fw : Bool) (a : Nat) (n : Nat) (payload : Option (List
    Byte)) (serves : Option Nat) (hs : s.good G) :
    (Chip.chkRun s d fw a n payload serves).good G := by
  unfold Chip.chkRun
  try dsimp only
  repeat' first
    | with_reducible (first | assumption | apply Chip.put_good | apply Chip.putB_good | apply Chip.upd_good)
    | with_reducible intro _ | split | exact ‹DieX.good _ _ _›

theorem Chip.chkStart_good {G : Watch} (s : Chip) (d : Die) (fw : Bool) (a : Nat) (n : Nat) (hs : s.good G) :
    (Chip.chkStart s d fw a n).good G := by
  unfold Chip.chkStart
  try dsimp only
  repeat' first
    | with_reducible (first | assumption | apply Chip.put_good | apply Chip.chkRun_good | apply Chip.ite_good)
    | with_reducible intro _ | split

theorem Chip.chkGo_good {G : Watch} (d : Die) (fw : Bool) (s : Chip) (hs : s.good G) : (Chip.chkGo d fw s).good G := by
  unfold Chip.chkGo
  try dsimp only
  repeat' first
    | with_reducible (first | assumption | apply Chip.upd_good | apply Chip.chkStart_good | apply Chip.ite_good)
    | with_reducible intro _ | split | exact ‹DieX.good _ _ _›

theorem Chip.chkNext_good {G : Watch} (s : Chip) (d : Die) (hs : s.good G) : (Chip.chkNext s d).good G := by
  unfold Chip.chkNext
  try dsimp only
  repeat' first
    | with_reducible (first | assumption | apply Chip.upd_good | apply Chip.chkStart_good)
    | with_reducible intro _ | split | exact ‹DieX.good _ _ _›

theorem Chip.chkAnswer_good {G : Watch} (s : Chip) (d : Die) (serves : Option Nat) (result : Option Nat) (hs : s.good G) :
    (Chip.chkAnswer s d serves result).good G := by
  unfold Chip.chkAnswer
  try dsimp only
  repeat' first
    | with_reducible (first | assumption | apply Chip.commit_good | apply Chip.settle_good | apply Chip.ite_good
                            | apply Chip.foldl_good) | with_reducible intro _ | split

theorem Chip.chkAbort_good {G : Watch} (d : Die) (s : Chip) (hs : s.good G) : (Chip.chkAbort d s).good G := by
  unfold Chip.chkAbort
  try dsimp only
  repeat' first
    | with_reducible (first | assumption | apply Chip.put_good | apply Chip.chkNext_good | apply Chip.chkAnswer_good
                            | apply Chip.ite_good | apply Chip.upd_good | apply Chip.foldl_good) | with_reducible intro _
    | split | exact ‹DieX.good _ _ _›

theorem Chip.loadSet_good {G : Watch} (s : Chip) (d : Die) (n : Nat) (hs : s.good G) : (Chip.loadSet s d n).good G := by
  unfold Chip.loadSet
  try dsimp only
  repeat' first
    | with_reducible (first | assumption | apply Chip.ite_good | apply Chip.setReg_good | apply Chip.foldl_good)
    | with_reducible intro _ | split

theorem Chip.check_good {G : Watch} (d : Die) (seq : Nat) (s : Chip) (hs : s.good G) : (Chip.check d seq s).good G := by
  unfold Chip.check
  try dsimp only
  repeat' first
    | with_reducible (first | assumption | apply Chip.executeEntry_good | apply Chip.chkRun_good
                            | apply Chip.loadSet_good | apply Chip.ite_good)
    | with_reducible intro _ | split

theorem Chip.updBoot_good {G : Watch} (s : Chip) (d : Die) (f : BootX → BootX) (hs : s.good G)
    (hf : ∀ x, ramWf x.code = true → ramWf (f x).code = true) :
    (Chip.updBoot s d f).good G := by
  exact Chip.upd_good _ _ _ hs fun x hx => ⟨by
    have h := hx.1
    simp only [DieX.wf, Bool.and_eq_true] at h ⊢
    exact ⟨⟨hf _ h.1.1, h.1.2⟩, h.2⟩, hx.2⟩

theorem Chip.settleExecuting_good {G : Watch} (s : Chip) (d : Die) (hs : s.good G) : (Chip.settleExecuting s d).good G := by
  unfold Chip.settleExecuting
  try dsimp only
  repeat' first
    | with_reducible (first | assumption | apply Chip.settle_good | apply Chip.ite_good | apply Chip.upd_good
                            | apply Chip.foldl_good) | with_reducible intro _ | split | exact ‹DieX.good _ _ _›

theorem Chip.runCore_good {G : Watch} (s : Chip) (d : Die) (hs : s.good G) : (Chip.runCore s d).good G := by
  unfold Chip.runCore
  try dsimp only
  repeat' first
    | with_reducible (first | assumption | apply Chip.put_good | apply Chip.upd_good | apply Chip.padsShow_good
                            | apply Chip.cond_good)
    | with_reducible intro _ | split | exact ‹DieX.good _ _ _›

theorem Chip.restartCore_good {G : Watch} (s : Chip) (d : Die) (hs : s.good G) : (Chip.restartCore s d).good G := by
  unfold Chip.restartCore
  try dsimp only
  repeat' first
    | with_reducible (first | assumption | apply Chip.runCore_good | apply Chip.put_good | apply Chip.ite_good
                            | apply Chip.foldl_good) | with_reducible intro _ | split

theorem Chip.stopCore_good {G : Watch} (s : Chip) (d : Die) (hs : s.good G) : (Chip.stopCore s d).good G := by
  unfold Chip.stopCore
  try dsimp only
  repeat' first
    | with_reducible (first | assumption | apply Chip.settleExecuting_good | apply Chip.report_good | apply Chip.put_good
                            | apply Chip.restartCore_good | apply Chip.ite_good | apply Chip.upd_good
                            | apply Chip.foldl_good) | with_reducible intro _ | split | exact ‹DieX.good _ _ _›

theorem Chip.completeLoad_good {G : Watch} (s : Chip) (d : Die) (hs : s.good G) : (Chip.completeLoad s d).good G := by
  unfold Chip.completeLoad
  try dsimp only
  repeat' first
    | with_reducible (first | assumption | apply Chip.put_good | apply Chip.ite_good | apply Chip.cond_good
                            | apply Chip.foldl_good) | with_reducible intro _ | split

theorem Chip.applyLoadBegin_good {G : Watch} (d : Die) (q : List Byte) (s : Chip) (hs : s.good G) :
    (Chip.applyLoadBegin d q s).good G := by
  unfold Chip.applyLoadBegin
  try dsimp only
  repeat' first
    | with_reducible (first | assumption | apply Chip.put_good | apply Chip.updBoot_good | apply Chip.settleExecuting_good
                            | apply Chip.ite_good | apply Chip.setReg_good | apply Chip.foldl_good)
    | exact fun (_ : BootX) h => h | exact fun (_ : BootX) _ => rfl | exact fun (_ : BootX) h => ramWf_ramStore _ _ _ h
    | with_reducible intro _ | split

theorem Chip.applyLoadData_good {G : Watch} (d : Die) (q : List Byte) (s : Chip) (hs : s.good G) :
    (Chip.applyLoadData d q s).good G := by
  unfold Chip.applyLoadData
  try dsimp only
  repeat' first
    | with_reducible (first | assumption | apply Chip.inc_good | apply Chip.updBoot_good | apply Chip.completeLoad_good
                            | apply Chip.put_good | apply Chip.ite_good | apply Chip.foldl_good)
    | exact fun (_ : BootX) h => h | exact fun (_ : BootX) _ => rfl | exact fun (_ : BootX) h => ramWf_ramStore _ _ _ h
    | with_reducible intro _ | split

theorem Chip.applyLoadEnd_good {G : Watch} (d : Die) (q : List Byte) (s : Chip) (hs : s.good G) :
    (Chip.applyLoadEnd d q s).good G := by
  unfold Chip.applyLoadEnd
  try dsimp only
  repeat' first
    | with_reducible (first | assumption | apply Chip.put_good | apply Chip.updBoot_good
                            | apply Chip.completeLoad_good | apply Chip.ite_good)
    | exact fun (_ : BootX) h => h | exact fun (_ : BootX) _ => rfl
    | exact fun (_ : BootX) h => ramWf_ramStore _ _ _ h | with_reducible intro _ | split

theorem Chip.applyLoadBoot_good {G : Watch} (d : Die) (q : List Byte) (s : Chip) (hs : s.good G) :
    (Chip.applyLoadBoot d q s).good G := by
  unfold Chip.applyLoadBoot
  try dsimp only
  repeat' first
    | with_reducible (first | assumption | apply Chip.restartCore_good | apply Chip.runCore_good | apply Chip.ite_good
                            | apply Chip.foldl_good) | with_reducible intro _ | split

theorem Chip.ringWide_good {G : Watch} (s : Chip) (d : Die) (op : Nat) (f : FrameIn) (act : List Byte → Chip → Chip)
    (hs : s.good G) (hact : ∀ y0 y1, y1.good G → (act y0 y1).good G) :
    (Chip.ringWide s d op f act).good G := by
  unfold Chip.ringWide
  dsimp only
  split
  · exact hs
  · split
    · exact Chip.frameLinkFail_good _ _ _ hs
    · split
      · exact Chip.inc_good _ _ _ _ _ (Chip.noteTaken_good _ _ _ _ _ hs)
      · exact hact _ _ (Chip.put_good _ _ _ _ _ (Chip.noteTaken_good _ _ _ _ _ hs))

theorem Chip.loadCommand_good {G : Watch} (s : Chip) (d : Die) (op : Nat) (src : CmdSrc) (act : List Byte → Chip → Chip)
    (form : Chip → List Byte → Chip.Formed) (hs : s.good G) (hact : ∀ y0 y1, y1.good G → (act y0 y1).good G) :
    (Chip.loadCommand s d op src act form).good G := by
  unfold Chip.loadCommand
  try dsimp only
  repeat' first
    | with_reducible (first | assumption | apply Chip.executeEntry_good | apply Chip.ringWide_good | apply Chip.ite_good
                            | apply Chip.foldl_good) | with_reducible intro _ | split

theorem Chip.imageCheckComplete_good {G : Watch} (d : Die) (s : Chip) (hs : s.good G) :
    (Chip.imageCheckComplete d s).good G := by
  unfold Chip.imageCheckComplete
  try dsimp only
  repeat' first
    | with_reducible (first | assumption | apply Chip.put_good | apply Chip.updBoot_good | apply Chip.ite_good
                            | apply Chip.setReg_good | apply Chip.cond_good | apply Chip.foldl_good)
    | exact fun (_ : BootX) h => h | exact fun (_ : BootX) _ => rfl | exact fun (_ : BootX) h => ramWf_ramStore _ _ _ h
    | with_reducible intro _ | split

theorem Chip.loadMissingSend_good {G : Watch} (d : Die) (s : Chip) (hs : s.good G) : (Chip.loadMissingSend d s).good G := by
  unfold Chip.loadMissingSend
  try dsimp only
  repeat' first
    | with_reducible (first | assumption | apply Chip.updBoot_good | apply Chip.event_good | apply Chip.ite_good
                            | apply Chip.foldl_good) | exact fun (_ : BootX) h => h | exact fun (_ : BootX) _ => rfl
    | exact fun (_ : BootX) h => ramWf_ramStore _ _ _ h | with_reducible intro _ | split

theorem Chip.loadResultSend_good {G : Watch} (d : Die) (s : Chip) (hs : s.good G) : (Chip.loadResultSend d s).good G := by
  unfold Chip.loadResultSend
  try dsimp only
  repeat' first
    | with_reducible (first | assumption | apply Chip.event_good | apply Chip.updBoot_good | apply Chip.ite_good)
    | exact fun (_ : BootX) h => h | exact fun (_ : BootX) _ => rfl
    | exact fun (_ : BootX) h => ramWf_ramStore _ _ _ h | with_reducible intro _ | split

theorem Chip.retransmitBlock_good {G : Watch} (d : Die) (b : Nat) (s : Chip) (hs : s.good G) :
    (Chip.retransmitBlock d b s).good G := by
  unfold Chip.retransmitBlock
  try dsimp only
  repeat' first
    | with_reducible (first | assumption | apply Chip.takeSeq_good | apply Chip.enqueue_good | apply Chip.ite_good
                            | apply Chip.foldl_good) | with_reducible intro _ | split

theorem Chip.firmwareRetransmit_good {G : Watch} (d : Die) (smod : Nat) (loadid : Nat) (blocks : List Nat) (s : Chip)
    (hs : s.good G) :
    (Chip.firmwareRetransmit d smod loadid blocks s).good G := by
  unfold Chip.firmwareRetransmit
  try dsimp only
  repeat' first
    | with_reducible (first | assumption | apply Chip.updRing_good | apply Chip.updBoot_good
                            | apply Chip.retransmitBlock_good | apply Chip.ite_good | apply Chip.foldl_good)
    | exact fun (_ : BootX) h => h | exact fun (_ : BootX) _ => rfl
    | exact fun (_ : BootX) h => ramWf_ramStore _ _ _ h | with_reducible intro _ | split

theorem Chip.eccLost_good {G : Watch} (s : Chip) (d : Die) (ram : Nat) (target : EccTarget) (hs : s.good G) :
    (Chip.eccLost s d ram target).good G := by
  unfold Chip.eccLost
  try dsimp only
  repeat' first
    | with_reducible (first | assumption | apply Chip.put_good | apply Chip.report_good | apply Chip.updEntry_good
                            | apply Chip.journal_good | apply Chip.setEntryState_good | apply Chip.stopCore_good
                            | apply Chip.ite_good)
    | with_reducible intro _ | split

theorem Chip.chkRunDone_good {G : Watch} (d : Die) (ecc : Option EccTarget) (s : Chip) (hs : s.good G) :
    (Chip.chkRunDone d ecc s).good G := by
  unfold Chip.chkRunDone
  try dsimp only
  repeat' first
    | with_reducible (first | assumption | apply Chip.setReg_good | apply Chip.put_good | apply Chip.upd_good
                            | apply Chip.draw_good | apply Chip.report_good | apply Chip.useInjection_good
                            | apply Chip.chkNext_good | apply Chip.chkAnswer_good | apply Chip.eccLost_good
                            | apply Chip.cond_good | apply Chip.ite_good)
    | with_reducible intro _ | split | exact ‹DieX.good _ _ _›

theorem Chip.ramEccError_good {G : Watch} (d : Die) (ram : Nat) (correctable : Bool) (target : EccTarget) (s : Chip)
    (hs : s.good G) :
    (Chip.ramEccError d ram correctable target s).good G := by
  unfold Chip.ramEccError
  try dsimp only
  repeat' first
    | with_reducible (first | assumption | apply Chip.report_good | apply Chip.useInjection_good
                            | apply Chip.eccLost_good | apply Chip.cond_good | apply Chip.ite_good)
    | with_reducible intro _ | split

end Sys2Proof.Machine
end

