-- ==== Sys2Proof/Laws/KeepsSystem.lean ====
section
/-! SUPPORT. Every operation keeps the stores in canonical form and what is watched: self-test, lifecycle, power, snapshots, folios and faults. -/

namespace Sys2Proof.Machine

theorem Chip.updBist_good {G : Watch} (s : Chip) (d : Die) (f : BistX → BistX) (hs : s.good G) :
    (Chip.updBist s d f).good G := by
  unfold Chip.updBist
  try dsimp only
  repeat' first
    | with_reducible (first | assumption | apply Chip.ite_good | apply Chip.upd_good | apply Chip.foldl_good)
    | with_reducible intro _ | split | exact ‹DieX.good _ _ _›

theorem Chip.rowLost_good {G : Watch} (s : Chip) (d : Die) (m : Nat) (r : Nat) (hs : s.good G) :
    (Chip.rowLost s d m r).good G := by
  unfold Chip.rowLost
  try dsimp only
  repeat' first
    | with_reducible (first | assumption | apply Chip.put_good | apply Chip.each_good | apply Chip.report_good
                            | apply Chip.countLoss_good | apply Chip.setEntryState_good | apply Chip.cond_good
                            | apply Chip.ite_good)
    | with_reducible intro _ | split

theorem Chip.repairRow_good {G : Watch} (s : Chip) (d : Die) (m : Nat) (r : Nat) (bit : Option Nat) (hs : s.good G) :
    (Chip.repairRow s d m r bit).good G := by
  unfold Chip.repairRow
  try dsimp only
  repeat' first
    | with_reducible (first | assumption | apply Chip.put_good | apply Chip.inc_good | apply Chip.updBist_good
                            | apply Chip.report_good | apply Chip.rowLost_good | apply Chip.ite_good
                            | apply Chip.foldl_good) | with_reducible intro _ | split

theorem Chip.testRows_good {G : Watch} (s : Chip) (d : Die) (j : Nat) (fails : List (Nat × Nat × Option Nat))
    (hs : s.good G) :
    (Chip.testRows s d j fails).good G := by
  unfold Chip.testRows
  try dsimp only
  repeat' first
    | with_reducible (first | assumption | apply Chip.repairRow_good | apply Chip.ite_good | apply Chip.each_good
                            | apply Chip.foldl_good) | with_reducible intro _ | split

theorem Chip.bistRestart_good {G : Watch} (s : Chip) (d : Die) (hs : s.good G) : (Chip.bistRestart s d).good G := by
  unfold Chip.bistRestart
  try dsimp only
  repeat' first
    | with_reducible (first | assumption | apply Chip.put_good | apply Chip.ite_good | apply Chip.foldl_good)
    | with_reducible intro _ | split

theorem Chip.sliceIncomplete_good {G : Watch} (s : Chip) (d : Die) (p : Nat) (hs : s.good G) :
    (Chip.sliceIncomplete s d p).good G := by
  unfold Chip.sliceIncomplete
  try dsimp only
  repeat' first
    | with_reducible (first | assumption | apply Chip.report_good | apply Chip.inc_good | apply Chip.put_good
                            | apply Chip.ite_good | apply Chip.foldl_good) | with_reducible intro _ | split

theorem Chip.sliceRun_good {G : Watch} (s : Chip) (d : Die) (p : Nat) (k : Nat) (seed : Nat) (response : Word) (hs :
    s.good G) :
    (Chip.sliceRun s d p k seed response).good G := by
  unfold Chip.sliceRun
  try dsimp only
  repeat' first
    | with_reducible (first | assumption | apply Chip.updBist_good | apply Chip.ite_good)
    | with_reducible intro _ | split

theorem Chip.sliceOutcome_good {G : Watch} (s : Chip) (d : Die) (p : Nat) (ok : Bool) (hs : s.good G) :
    (Chip.sliceOutcome s d p ok).good G := by
  unfold Chip.sliceOutcome
  try dsimp only
  repeat' first
    | with_reducible (first | assumption | apply Chip.put_good | apply Chip.report_good | apply Chip.ite_good
                            | apply Chip.cond_good | apply Chip.foldl_good) | with_reducible intro _ | split

theorem Chip.periodicSlice_good {G : Watch} (s : Chip) (d : Die) (finished : Bool) (response : Word) (hs : s.good G) :
    (Chip.periodicSlice s d finished response).good G := by
  unfold Chip.periodicSlice
  try dsimp only
  repeat' first
    | with_reducible (first | assumption | apply Chip.put_good | apply Chip.bistRestart_good
                            | apply Chip.sliceIncomplete_good | apply Chip.sliceRun_good
                            | apply Chip.sliceOutcome_good | apply Chip.ite_good)
    | with_reducible intro _ | split

theorem Chip.periodicRows_good {G : Watch} (s : Chip) (d : Die) (fails : List (Nat × Nat × Option Nat)) (hs : s.good
    G) :
    (Chip.periodicRows s d fails).good G := by
  unfold Chip.periodicRows
  try dsimp only
  repeat' first
    | with_reducible (first | assumption | apply Chip.inc_good | apply Chip.updBist_good | apply Chip.testRows_good
                            | apply Chip.cond_good)
    | with_reducible intro _ | split

theorem Chip.endRun_good {G : Watch} (s : Chip) (d : Die) (st : Nat) (hs : s.good G) : (Chip.endRun s d st).good G := by
  unfold Chip.endRun
  try dsimp only
  repeat' first
    | with_reducible (first | assumption | apply Chip.bistRestart_good | apply Chip.updBist_good | apply Chip.put_good
                            | apply Chip.ite_good | apply Chip.foldl_good) | with_reducible intro _ | split

theorem Chip.stepRun_good {G : Watch} (s : Chip) (d : Die) (r : BistRun) (hs : s.good G) : (Chip.stepRun s d r).good G := by
  unfold Chip.stepRun
  try dsimp only
  repeat' first
    | with_reducible (first | assumption | apply EngRun.run_good | apply Chip.updBist_good | apply Chip.endRun_good
                            | apply Chip.ite_good)
    | with_reducible intro _ | split

theorem Chip.runWindow_good {G : Watch} (s : Chip) (d : Die) (r : BistRun) (finished : Bool) (response : Word) (fails
    : List (Nat × Nat × Option Nat)) (hs : s.good G) :
    (Chip.runWindow s d r finished response fails).good G := by
  unfold Chip.runWindow
  try dsimp only
  repeat' first
    | with_reducible (first | assumption | apply Chip.put_good | apply EngRun.bad_good | apply Chip.updBist_good
                            | apply Chip.testRows_good | apply Chip.sliceIncomplete_good | apply Chip.sliceRun_good
                            | apply Chip.sliceOutcome_good | apply Chip.periodicRows_good | apply Chip.stepRun_good
                            | apply Chip.cond_good | apply Chip.ite_good | apply Chip.foldl_good)
    | with_reducible intro _ | split

theorem Chip.cutSlice_good {G : Watch} (s : Chip) (d : Die) (hs : s.good G) : (Chip.cutSlice s d).good G := by
  unfold Chip.cutSlice
  try dsimp only
  repeat' first
    | with_reducible (first | assumption | apply Chip.bistRestart_good | apply Chip.sliceIncomplete_good)
    | with_reducible intro _ | split

theorem Chip.bistSlice_good {G : Watch} (d : Die) (finished : Bool) (response : Word) (fails : List (Nat × Nat ×
    Option Nat)) (s : Chip) (hs : s.good G) :
    (Chip.bistSlice d finished response fails s).good G := by
  unfold Chip.bistSlice
  try dsimp only
  repeat' first
    | with_reducible (first | assumption | apply EngRun.run_good | apply Chip.periodicSlice_good
                            | apply Chip.periodicRows_good | apply Chip.runWindow_good | apply Chip.ite_good)
    | with_reducible intro _ | split

theorem Chip.startRun_good {G : Watch} (s : Chip) (d : Die) (kind : Nat) (part : Nat) (hs : s.good G) :
    (Chip.startRun s d kind part).good G := by
  unfold Chip.startRun
  try dsimp only
  repeat' first
    | with_reducible (first | assumption | apply Chip.updBist_good | apply Chip.put_good | apply Chip.ite_good
                            | apply Chip.setReg_good | apply Chip.foldl_good) | with_reducible intro _ | split

theorem Chip.bistAbort_good {G : Watch} (s : Chip) (d : Die) (hs : s.good G) : (Chip.bistAbort s d).good G := by
  unfold Chip.bistAbort
  try dsimp only
  repeat' first
    | with_reducible (first | assumption | apply Chip.endRun_good | apply Chip.ite_good | apply Chip.foldl_good)
    | with_reducible intro _ | split

theorem Chip.elementTestStart_good {G : Watch} (d : Die) (s : Chip) (hs : s.good G) : (Chip.elementTestStart d s).good G := by
  unfold Chip.elementTestStart
  try dsimp only
  repeat' first
    | with_reducible (first | assumption | apply Chip.updBist_good | apply Chip.spareEnter_good | apply Chip.ite_good
                            | apply Chip.cond_good | apply Chip.foldl_good) | with_reducible intro _ | split

theorem Chip.elementTestVerdict_good {G : Watch} (d : Die) (readings : List Int) (s : Chip) (hs : s.good G) :
    (Chip.elementTestVerdict d readings s).good G := by
  unfold Chip.elementTestVerdict
  try dsimp only
  repeat' first
    | with_reducible (first | assumption | apply Chip.put_good | apply Chip.settleChannel_good
                            | apply Chip.spareRelease_good | apply Chip.failChannel_good
                            | apply Chip.calPendingOther_good | apply Chip.updBist_good | apply Chip.cond_good
                            | apply Chip.ite_good)
    | with_reducible intro _ | split

theorem Chip.channelRepair_good {G : Watch} (d : Die) (c : Nat) (s : Chip) (hs : s.good G) :
    (Chip.channelRepair d c s).good G := by
  unfold Chip.channelRepair
  try dsimp only
  repeat' first
    | with_reducible (first | assumption | apply Chip.abandonTest_good | apply Chip.endItem_good | apply Chip.updBist_good
                            | apply Chip.spareEnter_good | apply Chip.updCfe_good | apply Chip.ite_good
                            | apply Chip.each_good | apply Chip.foldl_good) | with_reducible intro _ | split

theorem Chip.bistFuseGo_good {G : Watch} (s : Chip) (d : Die) (hs : s.good G) : (Chip.bistFuseGo s d).good G := by
  unfold Chip.bistFuseGo
  try dsimp only
  repeat' first
    | with_reducible (first | assumption | apply Chip.updBist_good | apply Chip.put_good | apply Chip.ite_good
                            | apply Chip.foldl_good) | with_reducible intro _ | split

theorem Chip.fuseProgrammingDone_good {G : Watch} (d : Die) (ok : Bool) (s : Chip) (hs : s.good G) :
    (Chip.fuseProgrammingDone d ok s).good G := by
  unfold Chip.fuseProgrammingDone
  try dsimp only
  repeat' first
    | with_reducible (first | assumption | apply Chip.put_good | apply Chip.updBist_good | apply Chip.putB_good
                            | apply Chip.draw_good | apply Chip.ite_good | apply Chip.upd_good | apply Chip.cond_good
                            | apply Chip.each_good | apply Chip.foldl_good) | with_reducible intro _ | split
    | exact ‹DieX.good _ _ _›

theorem Chip.bistLine_good {G : Watch} (d : Die) (s : Chip) (hs : s.good G) : (Chip.bistLine d s).good G := by
  unfold Chip.bistLine
  try dsimp only
  repeat' first
    | with_reducible (first | assumption | apply Chip.inc_good | apply Chip.ite_good | apply Chip.each_good
                            | apply Chip.foldl_good) | with_reducible intro _ | split

theorem Chip.bistPage_good {G : Watch} (d : Die) (s : Chip) (hs : s.good G) : (Chip.bistPage d s).good G := by
  unfold Chip.bistPage
  try dsimp only
  repeat' first
    | with_reducible (first | assumption | apply Chip.updBist_good | apply Chip.inc_good | apply Chip.ite_good
                            | apply Chip.each_good | apply Chip.foldl_good) | with_reducible intro _ | split

theorem Chip.updLcy_good {G : Watch} (s : Chip) (d : Die) (f : LcyX → LcyX) (hs : s.good G)
    (hp : ∀ l n, l.prog.testBit n = true → (f l).prog.testBit n = true) (hr : ∀ l n, l.revoked.testBit n = true →
    (f l).revoked.testBit n = true) :
    (Chip.updLcy s d f).good G := by
  exact Chip.upd_good _ _ _ hs fun x hx => ⟨hx.1, hx.2.1, fun n h => hp _ n (hx.2.2.1 n h), fun n h => hr _ n (hx.2.2.2 n h)⟩

theorem Chip.retireCore_good {G : Watch} (s : Chip) (d : Die) (hs : s.good G) : (Chip.retireCore s d).good G := by
  unfold Chip.retireCore
  try dsimp only
  repeat' first
    | with_reducible (first | assumption | apply Chip.settleExecuting_good | apply Chip.put_good | apply Chip.ite_good
                            | apply Chip.foldl_good) | with_reducible intro _ | split

theorem Chip.enterLifecycle_good {G : Watch} (s : Chip) (d : Die) (st : Nat) (hs : s.good G) :
    (Chip.enterLifecycle s d st).good G := by
  unfold Chip.enterLifecycle
  try dsimp only
  repeat' first
    | with_reducible (first | assumption | apply Chip.updLcy_good | apply Chip.put_good | apply Chip.retireCore_good
                            | apply Chip.stageRetire_good | apply Chip.ite_good | apply Chip.cond_good
                            | apply Chip.foldl_good) | exact fun (_ : LcyX) _ h => h | with_reducible intro _ | split

theorem Chip.reportTransition_good {G : Watch} (s : Chip) (d : Die) (dst : Die) (seq : Nat) (hs : s.good G) :
    (Chip.reportTransition s d dst seq).good G := by
  unfold Chip.reportTransition
  try dsimp only
  repeat' first
    | with_reducible (first | assumption | apply Chip.updJnl_good | apply Chip.updEntry_good | apply Chip.answerRelay_good
                            | apply Chip.ite_good | apply Chip.foldl_good) | with_reducible intro _ | split

theorem Chip.applyAdvance_good {G : Watch} (d : Die) (q : List Byte) (s : Chip) (hs : s.good G) :
    (Chip.applyAdvance d q s).good G := by
  unfold Chip.applyAdvance
  try dsimp only
  repeat' first
    | with_reducible (first | assumption | apply Chip.reportTransition_good | apply Chip.enterLifecycle_good
                            | apply Chip.updLcy_good | apply Chip.put_good | apply Chip.ite_good | apply Chip.foldl_good)
    | exact fun (_ : LcyX) _ h => h | with_reducible intro _ | split

theorem Chip.lifecycleTransitionDone_good {G : Watch} (d : Die) (s : Chip) (hs : s.good G) :
    (Chip.lifecycleTransitionDone d s).good G := by
  unfold Chip.lifecycleTransitionDone
  try dsimp only
  repeat' first
    | with_reducible (first | assumption | apply Chip.reportTransition_good | apply Chip.enterLifecycle_good
                            | apply Chip.put_good | apply Chip.ite_good | apply Chip.foldl_good) | with_reducible intro _
    | split

theorem Chip.applyChallenge_good {G : Watch} (d : Die) (q : List Byte) (s : Chip) (hs : s.good G) :
    (Chip.applyChallenge d q s).good G := by
  unfold Chip.applyChallenge
  try dsimp only
  repeat' first
    | with_reducible (first | assumption | apply Chip.updLcy_good | apply Chip.ite_good | apply Chip.foldl_good)
    | exact fun (_ : LcyX) _ h => h | with_reducible intro _ | split

theorem Chip.applyResponse_good {G : Watch} (d : Die) (q : List Byte) (s : Chip) (hs : s.good G) :
    (Chip.applyResponse d q s).good G := by
  unfold Chip.applyResponse
  try dsimp only
  repeat' first
    | with_reducible (first | assumption | apply Chip.put_good | apply Chip.inc_good | apply Chip.report_good
                            | apply Chip.updLcy_good | apply Chip.ite_good)
    | exact fun (_ : LcyX) _ h => h | with_reducible intro _ | split

theorem Chip.lcyPage_good {G : Watch} (d : Die) (s : Chip) (hs : s.good G) : (Chip.lcyPage d s).good G := by
  unfold Chip.lcyPage
  try dsimp only
  repeat' first
    | with_reducible (first | assumption | apply Chip.put_good | apply Chip.updLcy_good | apply Chip.cond_good)
    | exact fun (_ : LcyX) _ h => h | with_reducible intro _ | split

theorem Chip.keyOp_good {G : Watch} (s : Chip) (d : Die) (op : Nat) (slot : Nat) (hs : s.good G) :
    (Chip.keyOp s d op slot).good G := by
  unfold Chip.keyOp
  try dsimp only
  repeat' first
    | with_reducible (first | assumption | apply Chip.updLcy_good | apply Chip.put_good | apply Chip.ite_good
                            | apply Chip.foldl_good) | exact fun (_ : LcyX) _ h => h | with_reducible intro _ | split

theorem Chip.writeFuseCmd_good {G : Watch} (s : Chip) (d : Die) (w : Word) (hs : s.good G) :
    (Chip.writeFuseCmd s d w).good G := by
  unfold Chip.writeFuseCmd
  try dsimp only
  repeat' first
    | with_reducible (first | assumption | apply Chip.put_good | apply Chip.keyOp_good | apply Chip.ite_good
                            | apply Chip.cond_good | apply Chip.foldl_good) | with_reducible intro _ | split

theorem Chip.setKeys_good {G : Watch} (s : Chip) (d : Die) (op : Nat) (slot : Nat) (bytes : List Byte) (hs : s.good G) :
    (Chip.setKeys s d op slot bytes).good G := by
  unfold Chip.setKeys
  dsimp only
  refine Chip.put_good _ _ _ _ _ (Chip.put_good _ _ _ _ _ (Chip.put_good _ _ _ _ _ (Chip.updLcy_good _ _ _ hs ?_ ?_)))
  · intro l n h
    split
    · simp [Nat.testBit_or, h]
    · split <;> exact h
  · intro l n h
    split
    · exact h
    · split
      · simp [Nat.testBit_or, h]
      · exact h

theorem Chip.keyFuseProgrammingDone_good {G : Watch} (d : Die) (ok : Bool) (s : Chip) (hs : s.good G) :
    (Chip.keyFuseProgrammingDone d ok s).good G := by
  unfold Chip.keyFuseProgrammingDone
  try dsimp only
  repeat' first
    | with_reducible (first | assumption | apply Chip.updLcy_good | apply Chip.put_good | apply Chip.setKeys_good
                            | apply Chip.draw_good | apply Chip.ite_good | apply Chip.cond_good | apply Chip.foldl_good)
    | exact fun (_ : LcyX) _ h => h | with_reducible intro _ | split

theorem DieX.lose_good {G : Watch} (d : Die) (x : DieX) (k : Nat) (hx : x.good G d) : (x.lose k).good G d := by
  unfold DieX.lose
  repeat' split
  all_goals exact hx

theorem Chip.updPwr_good {G : Watch} (s : Chip) (d : Die) (f : PwrX → PwrX) (hs : s.good G) : (Chip.updPwr s d f).good G := by
  unfold Chip.updPwr
  try dsimp only
  repeat' first
    | with_reducible (first | assumption | apply Chip.ite_good | apply Chip.upd_good | apply Chip.foldl_good)
    | with_reducible intro _ | split | exact ‹DieX.good _ _ _›

theorem Chip.setPwr_good {G : Watch} (s : Chip) (d : Die) (st : Nat) (target : Nat) (step : Nat) (hs : s.good G) :
    (Chip.setPwr s d st target step).good G := by
  unfold Chip.setPwr
  try dsimp only
  repeat' first
    | with_reducible (first | assumption | apply Chip.put_good | apply Chip.ite_good | apply Chip.foldl_good)
    | with_reducible intro _ | split

theorem Chip.loseRegs_good {G : Watch} (s : Chip) (d : Die) (p : Nat → Bool) (snap : Bool) (hs : s.good G) :
    (Chip.loseRegs s d p snap).good G := by
  unfold Chip.loseRegs
  dsimp only
  exact ⟨storeWf_foldl _ _ _ _ hs.1, hs.2⟩

theorem Chip.loseDomain_good {G : Watch} (s : Chip) (d : Die) (k : Nat) (snap : Bool) (hs : s.good G) :
    (Chip.loseDomain s d k snap).good G := by
  unfold Chip.loseDomain
  dsimp only
  have ht : ((s.loseRegs d (fun a => addrDomain a == k) snap).upd d fun x => x.lose k).good G :=
    Chip.upd_good _ _ _ (Chip.loseRegs_good _ _ _ _ hs) fun x hx => DieX.lose_good d x k hx
  split
  · exact Chip.cond_good _ _ _ (Chip.setReg_good _ _ _ _ ht) fun t h => Chip.setReg_good _ _ _ _ h
  · split
    · exact Chip.setReg_good _ _ _ _ ht
    · split
      · exact Chip.showNibCount_good _ _ ht
      · split
        · exact Chip.put_good _ _ _ _ _ ht
        · exact ht

theorem Chip.powerDown_good {G : Watch} (s : Chip) (d : Die) (k : Fin 9) (hs : s.good G) : (Chip.powerDown s d k).good G := by
  unfold Chip.powerDown
  try dsimp only
  repeat' first
    | with_reducible (first | assumption | apply Chip.updPwr_good | apply Chip.loseDomain_good | apply Chip.ite_good
                            | apply Chip.foldl_good) | with_reducible intro _ | split

theorem Chip.powersDown_good {G : Watch} (s : Chip) (d : Die) (l : List (Fin 9)) (hs : s.good G) :
    (Chip.powersDown s d l).good G := by
  unfold Chip.powersDown
  try dsimp only
  repeat' first
    | with_reducible (first | assumption | apply Chip.powerDown_good | apply Chip.ite_good | apply Chip.each_good
                            | apply Chip.foldl_good) | with_reducible intro _ | split

theorem Chip.forceLevel0_good {G : Watch} (s : Chip) (d : Die) (hs : s.good G) : (Chip.forceLevel0 s d).good G := by
  unfold Chip.forceLevel0
  try dsimp only
  repeat' first
    | with_reducible (first | assumption | apply Chip.updPwr_good | apply Chip.put_good | apply Chip.ite_good
                            | apply Chip.foldl_good) | with_reducible intro _ | split

theorem Chip.startLevel_good {G : Watch} (s : Chip) (d : Die) (hs : s.good G) : (Chip.startLevel s d).good G := by
  unfold Chip.startLevel
  try dsimp only
  repeat' first
    | with_reducible (first | assumption | apply Chip.updPwr_good | apply Chip.put_good | apply Chip.ite_good
                            | apply Chip.foldl_good) | with_reducible intro _ | split

theorem Chip.levelEdge_good {G : Watch} (d : Die) (s : Chip) (hs : s.good G) : (Chip.levelEdge d s).good G := by
  unfold Chip.levelEdge
  try dsimp only
  repeat' first
    | with_reducible (first | assumption | apply Chip.put_good | apply Chip.forceLevel0_good
                            | apply Chip.startLevel_good | apply Chip.ite_good)
    | with_reducible intro _ | split

theorem Chip.perfLevelTransitionEnd_good {G : Watch} (d : Die) (s : Chip) (hs : s.good G) :
    (Chip.perfLevelTransitionEnd d s).good G := by
  unfold Chip.perfLevelTransitionEnd
  try dsimp only
  repeat' first
    | with_reducible (first | assumption | apply Chip.startLevel_good | apply Chip.updPwr_good | apply Chip.put_good
                            | apply Chip.ite_good | apply Chip.foldl_good) | with_reducible intro _ | split

theorem Chip.markAbandon_good {G : Watch} (s : Chip) (v : Nat × Nat × Nat × Nat) (hs : s.good G) :
    (Chip.markAbandon s v).good G := by
  unfold Chip.markAbandon
  try dsimp only
  repeat' first
    | with_reducible (first | assumption | apply Chip.updPwr_good | apply Chip.ite_good | apply Chip.each_good
                            | apply Chip.foldl_good) | with_reducible intro _ | split

theorem Chip.wakeBit_good {G : Watch} (s : Chip) (d : Die) (b : Nat) (hs : s.good G) : (Chip.wakeBit s d b).good G := by
  unfold Chip.wakeBit
  try dsimp only
  repeat' first
    | with_reducible (first | assumption | apply Chip.put_good | apply Chip.ite_good | apply Chip.foldl_good)
    | with_reducible intro _ | split

theorem Chip.wakeEvent_good {G : Watch} (s : Chip) (d : Die) (b : Nat) (hs : s.good G) : (Chip.wakeEvent s d b).good G := by
  unfold Chip.wakeEvent
  try dsimp only
  repeat' first
    | with_reducible (first | assumption | apply Chip.each_good | apply Chip.updPwr_good | apply Chip.setPwr_good
                            | apply Chip.markAbandon_good | apply Chip.wakeBit_good | apply Chip.cond_good
                            | apply Chip.ite_good)
    | with_reducible intro _ | split

theorem Chip.sendBursts_good {G : Watch} (s : Chip) (na : Bool) (sb : Bool) (hs : s.good G) :
    (Chip.sendBursts s na sb).good G := by
  unfold Chip.sendBursts
  try dsimp only
  repeat' first
    | with_reducible (first | assumption | apply Chip.each_good | apply Chip.updPwr_good)
    | with_reducible intro _ | split

theorem Chip.wakeLineAsserted_good {G : Watch} (d : Die) (s : Chip) (hs : s.good G) : (Chip.wakeLineAsserted d s).good G := by
  unfold Chip.wakeLineAsserted
  try dsimp only
  repeat' first
    | with_reducible (first | assumption | apply Chip.updPwr_good | apply Chip.setPwr_good | apply Chip.wakeBit_good
                            | apply Chip.markAbandon_good | apply Chip.ite_good | apply Chip.cond_good
                            | apply Chip.foldl_good) | with_reducible intro _ | split

theorem Chip.wakePin_good {G : Watch} (d : Die) (pin : Nat) (level : Bool) (ticks : Nat) (s : Chip) (hs : s.good G) :
    (Chip.wakePin d pin level ticks s).good G := by
  unfold Chip.wakePin
  dsimp only
  exact Chip.ite_good _ _ _ (fun _ => hs) fun _ => Chip.ite_good _ _ _ (fun _ => Chip.wakeEvent_good _ _ _ (Chip.cond_good _ _ _
    (Chip.rest_good s _ _ hs) fun _ h => Chip.sendBursts_good _ _ _ h)) fun _ => Chip.rest_good s _ _ hs

theorem Chip.wakeBurstDetected_good {G : Watch} (d : Die) (p : Port) (s : Chip) (hs : s.good G) :
    (Chip.wakeBurstDetected d p s).good G := by
  unfold Chip.wakeBurstDetected
  try dsimp only
  repeat' first
    | with_reducible (first | assumption | apply Chip.put_good | apply Chip.wakeEvent_good
                            | apply Chip.sendBursts_good | apply Chip.ite_good)
    | with_reducible intro _ | split

theorem Chip.dozeCommandWake_good {G : Watch} (d : Die) (s : Chip) (hs : s.good G) : (Chip.dozeCommandWake d s).good G := by
  unfold Chip.dozeCommandWake
  try dsimp only
  repeat' first
    | with_reducible (first | assumption | apply Chip.wakeEvent_good | apply Chip.ite_good | apply Chip.foldl_good)
    | with_reducible intro _ | split

theorem Chip.pwrWake_good {G : Watch} (d : Die) (s : Chip) (hs : s.good G) : (Chip.pwrWake d s).good G := by
  unfold Chip.pwrWake
  try dsimp only
  repeat' first
    | with_reducible (first | assumption | apply Chip.wakeEvent_good | apply Chip.ite_good | apply Chip.foldl_good)
    | with_reducible intro _ | split

theorem Chip.padrel_good {G : Watch} (d : Die) (mask : Nat) (s : Chip) (hs : s.good G) : (Chip.padrel d mask s).good G := by
  unfold Chip.padrel
  try dsimp only
  repeat' first
    | with_reducible (first | assumption | apply Chip.put_good | apply Chip.padsShow_good | apply Chip.cond_good
                            | apply Chip.foldl_good)
    | with_reducible intro _ | split

theorem Chip.padLine_good {G : Watch} (d : Die) (s : Chip) (hs : s.good G) : (Chip.padLine d s).good G := by
  unfold Chip.padLine
  try dsimp only
  repeat' first
    | with_reducible (first | assumption | apply Chip.padrel_good | apply Chip.ite_good | apply Chip.foldl_good)
    | with_reducible intro _ | split

theorem Chip.writePwrCmd_good {G : Watch} (s : Chip) (d : Die) (w : Word) (hs : s.good G) :
    (Chip.writePwrCmd s d w).good G := by
  unfold Chip.writePwrCmd
  try dsimp only
  repeat' first
    | with_reducible (first | assumption | apply Chip.padrel_good | apply Chip.put_good | apply Chip.pwrWake_good
                            | apply Chip.ite_good | apply Chip.cond_good | apply Chip.foldl_good) | with_reducible intro _
    | split

theorem Chip.stepBegin_good {G : Watch} (s : Chip) (d : Die) (n : Nat) (hs : s.good G) : (Chip.stepBegin s d n).good G := by
  unfold Chip.stepBegin
  try dsimp only
  repeat' first
    | with_reducible (first | assumption | apply Chip.put_good | apply Chip.spareGiveUp_good
                            | apply Chip.stageSleep_good | apply Chip.stopActive_good | apply Chip.abandonPass_good
                            | apply Chip.updBist_good | apply Chip.updPwr_good)
    | with_reducible intro _ | split

theorem Chip.stepStop_good {G : Watch} (s : Chip) (d : Die) (n : Nat) (hs : s.good G) : (Chip.stepStop s d n).good G := by
  unfold Chip.stepStop
  try dsimp only
  repeat' first
    | with_reducible (first | assumption | apply Chip.put_good | apply Chip.each_good | apply Chip.updEng_good
                            | apply Chip.ite_good)
    | with_reducible intro _ | split

theorem Chip.frontsStop_good {G : Watch} (s : Chip) (d : Die) (hs : s.good G) : (Chip.frontsStop s d).good G := by
  unfold Chip.frontsStop
  try dsimp only
  repeat' first
    | with_reducible (first | assumption | apply Chip.closeFrame_good | apply Chip.stopSweep_good | apply Chip.updPwr_good
                            | apply Chip.updCfe_good | apply Chip.ite_good | apply Chip.foldl_good)
    | with_reducible intro _ | split

theorem Chip.askStep_good {G : Watch} (s : Chip) (d : Die) (n : Nat) (hs : s.good G) : (Chip.askStep s d n).good G := by
  unfold Chip.askStep
  try dsimp only
  repeat' first
    | with_reducible (first | assumption | apply Chip.stepBegin_good | apply Chip.updPwr_good | apply Chip.put_good
                            | apply Chip.ite_good | apply Chip.foldl_good) | with_reducible intro _ | split

theorem Chip.passStep_good {G : Watch} (s : Chip) (d : Die) (hs : s.good G) : (Chip.passStep s d).good G := by
  unfold Chip.passStep
  try dsimp only
  repeat' first
    | with_reducible (first | assumption | apply Chip.updPwr_good | apply Chip.frontsStop_good | apply Chip.askStep_good
                            | apply Chip.ite_good | apply Chip.cond_good | apply Chip.foldl_good) | with_reducible intro _
    | split

theorem Chip.question_good {G : Watch} (s : Chip) (d : Die) (hs : s.good G) : (Chip.question s d).good G := by
  unfold Chip.question
  try dsimp only
  repeat' first
    | with_reducible (first | assumption | apply Chip.updPwr_good | apply Chip.markAbandon_good
                            | apply Chip.stepStop_good | apply Chip.ite_good | apply Chip.foldl_good)
    | with_reducible intro _ | split

theorem Chip.pwrHandshakeStep_good {G : Watch} (d : Die) (s : Chip) (hs : s.good G) : (Chip.pwrHandshakeStep d s).good G := by
  unfold Chip.pwrHandshakeStep
  try dsimp only
  repeat' first
    | with_reducible (first | assumption | apply Chip.question_good | apply Chip.passStep_good | apply Chip.ite_good
                            | apply Chip.cond_good | apply Chip.foldl_good) | with_reducible intro _ | split

theorem Chip.beginEntry_good {G : Watch} (s : Chip) (d : Die) (target : Nat) (hs : s.good G) :
    (Chip.beginEntry s d target).good G := by
  unfold Chip.beginEntry
  try dsimp only
  repeat' first
    | with_reducible (first | assumption | apply Chip.updPwr_good | apply Chip.setPwr_good | apply Chip.askStep_good)
    | with_reducible intro _ | split

theorem Chip.entryDelayLimit_good {G : Watch} (d : Die) (s : Chip) (hs : s.good G) : (Chip.entryDelayLimit d s).good G := by
  unfold Chip.entryDelayLimit
  try dsimp only
  repeat' first
    | with_reducible (first | assumption | apply Chip.markAbandon_good | apply Chip.cond_good)
    | with_reducible intro _ | split

theorem Chip.ringReleaseTimeout_good {G : Watch} (d : Die) (s : Chip) (hs : s.good G) :
    (Chip.ringReleaseTimeout d s).good G := by
  unfold Chip.ringReleaseTimeout
  try dsimp only
  repeat' first
    | with_reducible (first | assumption | apply Chip.markAbandon_good | apply Chip.ite_good | apply Chip.foldl_good)
    | with_reducible intro _ | split

theorem Chip.settledEdge_good {G : Watch} (d : Die) (s : Chip) (hs : s.good G) : (Chip.settledEdge d s).good G := by
  unfold Chip.settledEdge
  try dsimp only
  repeat' first
    | with_reducible (first | assumption | apply Chip.updPwr_good | apply Chip.ite_good | apply Chip.foldl_good)
    | with_reducible intro _ | split

theorem Chip.entryAbandon_good {G : Watch} (d : Die) (s : Chip) (hs : s.good G) : (Chip.entryAbandon d s).good G := by
  unfold Chip.entryAbandon
  try dsimp only
  repeat' first
    | with_reducible (first | assumption | apply Chip.setPwr_good | apply Chip.put_good | apply Chip.updPwr_good
                            | apply Chip.updCxs_good | apply Chip.ite_good | apply Chip.setReg_good | apply Chip.cond_good
                            | apply Chip.foldl_good) | with_reducible intro _ | split

theorem Chip.restartDomain_good {G : Watch} (s : Chip) (d : Die) (k : Nat) (hs : s.good G) :
    (Chip.restartDomain s d k).good G := by
  unfold Chip.restartDomain
  try dsimp only
  repeat' first
    | with_reducible (first | assumption | apply Chip.each_good | apply Chip.gap_good
                            | apply Chip.settleChannel_good | apply Chip.updCxs_good | apply Chip.updSlot_good
                            | apply Chip.setLaneMode_good | apply Chip.bistRestart_good | apply Chip.updPwr_good
                            | apply Chip.cond_good)
    | with_reducible intro _ | split

theorem Chip.domainRestart_good {G : Watch} (d : Die) (s : Chip) (hs : s.good G) : (Chip.domainRestart d s).good G := by
  unfold Chip.domainRestart
  try dsimp only
  repeat' first
    | with_reducible (first | assumption | apply Chip.updPwr_good | apply Chip.restartDomain_good | apply Chip.ite_good
                            | apply Chip.foldl_good) | with_reducible intro _ | split

theorem Chip.powerLoss_good {G : Watch} (s : Chip) (d : Die) (hs : s.good G) (ht : ∀ e, ¬ G.tick e) :
    (Chip.powerLoss s d).good G := by
  unfold Chip.powerLoss
  dsimp only
  refine Chip.draw_good _ ⟨storeWf_filter _ _ hs.1, fun e => ?_⟩
  have hd := hs.2 d
  have he := hs.2 e
  simp only [Chip.die, Chip.upd, Fin.getElem_fin, Vector.getElem_set] at hd he ⊢
  split
  · next h => have : d = e := Fin.ext h
              subst this; exact ⟨rfl, fun h => absurd h (ht _), hd.2.2⟩
  · exact he

theorem Chip.fallAsleep_good {G : Watch} (s : Chip) (d : Die) (ratio : Nat) (phase : Nat) (target : Nat) (draw : Nat)
    (hs : s.good G) :
    (Chip.fallAsleep s d ratio phase target draw).good G := by
  unfold Chip.fallAsleep
  try dsimp only
  repeat' first
    | with_reducible (first | assumption | apply Chip.setReg_good | apply Chip.put_good | apply Chip.putB_good
                            | apply Chip.draw_good | apply Chip.updTime_good | apply Chip.levellerSleep_good
                            | apply Chip.check_good | apply Chip.updPwr_good | apply Chip.powersDown_good)
    | exact fun (_ : TimeX) => rfl | with_reducible intro _ | split

theorem Chip.sleepCommit_good {G : Watch} (d : Die) (ratio : Nat) (phase : Nat) (draw : Nat) (s : Chip) (hs : s.good
    G) (ht : ∀ e, ¬ G.tick e) :
    (Chip.sleepCommit d ratio phase draw s).good G := by
  unfold Chip.sleepCommit
  try dsimp only
  repeat' first
    | with_reducible (first | assumption | apply Chip.setReg_good | apply Chip.put_good | apply Chip.upd_good
                            | apply Chip.draw_good | apply Chip.driveFaultN_good | apply Chip.updPwr_good
                            | apply Chip.setPwr_good | apply Chip.powersDown_good | apply Chip.powerLoss_good
                            | apply Chip.fallAsleep_good | apply Chip.cond_good | apply Chip.ite_good)
    | with_reducible intro _ | split | exact ‹DieX.good _ _ _›

theorem Chip.sleepTickSaturate_good {G : Watch} (d : Die) (s : Chip) (hs : s.good G) :
    (Chip.sleepTickSaturate d s).good G := by
  unfold Chip.sleepTickSaturate
  try dsimp only
  repeat' first
    | with_reducible (first | assumption | apply Chip.put_good | apply Chip.ite_good | apply Chip.foldl_good)
    | with_reducible intro _ | split

theorem Chip.nightcapFail_good {G : Watch} (s : Chip) (d : Die) (srcs : List Nat) (hs : s.good G) :
    (Chip.nightcapFail s d srcs).good G := by
  unfold Chip.nightcapFail
  try dsimp only
  repeat' first
    | with_reducible (first | assumption | apply Chip.put_good | apply Chip.each_good | apply Chip.updPwr_good
                            | apply Chip.wakeEvent_good | apply Chip.sendBursts_good | apply Chip.ite_good)
    | with_reducible intro _ | split

theorem Chip.nightcapTrim_good {G : Watch} (s : Chip) (d : Die) (readings : List Int) (hs : s.good G) :
    (Chip.nightcapTrim s d readings).good G := by
  unfold Chip.nightcapTrim
  try dsimp only
  repeat' first
    | with_reducible (first | assumption | apply Chip.showInUse_good | apply Chip.putI_good | apply Chip.updThm_good
                            | apply Chip.ite_good | apply Chip.each_good | apply Chip.foldl_good) | with_reducible intro _
    | split

theorem Chip.nightcapRun_good {G : Watch} (d : Die) (again : Bool) (c1 : List Nat) (c2 : List Nat) (span1 : Nat)
    (span2 : Nat) (test1 : Nat) (test2 : Nat) (readings : List Int) (low : Bool) (draw : Nat) (s : Chip) (hs : s.good
    G) :
    (Chip.nightcapRun d again c1 c2 span1 span2 test1 test2 readings low draw s).good G := by
  unfold Chip.nightcapRun
  try dsimp only
  repeat' first
    | with_reducible (first | assumption | apply Chip.inc_good | apply Chip.draw_good
                            | apply Chip.levellerSleep_good | apply Chip.updPwr_good | apply Chip.nightcapFail_good
                            | apply Chip.nightcapTrim_good | apply Chip.ite_good)
    | with_reducible intro _ | split

theorem Chip.supplyDip_good {G : Watch} (d : Die) (vreg5 : Nat) (s : Chip) (hs : s.good G) :
    (Chip.supplyDip d vreg5 s).good G := by
  unfold Chip.supplyDip
  try dsimp only
  repeat' first
    | with_reducible (first | assumption | apply Chip.updPwr_good | apply Chip.put_good | apply Chip.putSat_good
                            | apply Chip.report_good | apply Chip.inc_good | apply Chip.ite_good | apply Chip.foldl_good)
    | with_reducible intro _ | split

theorem Chip.dipEdge_good {G : Watch} (d : Die) (vreg5 : Nat) (s : Chip) (hs : s.good G) :
    (Chip.dipEdge d vreg5 s).good G := by
  unfold Chip.dipEdge
  try dsimp only
  repeat' first
    | with_reducible (first | assumption | apply Chip.put_good | apply Chip.each_good | apply Chip.setCause_good
                            | apply Chip.updPwr_good | apply Chip.cond_good | apply Chip.ite_good)
    | with_reducible intro _ | split

theorem Chip.supplyDipEnd_good {G : Watch} (d : Die) (vreg5 : Nat) (s : Chip) (hs : s.good G) :
    (Chip.supplyDipEnd d vreg5 s).good G := by
  unfold Chip.supplyDipEnd
  try dsimp only
  repeat' first
    | with_reducible (first | assumption | apply Chip.put_good | apply Chip.putSat_good | apply Chip.updPwr_good
                            | apply Chip.ite_good | apply Chip.foldl_good) | with_reducible intro _ | split

theorem Chip.supplyLine_good {G : Watch} (d : Die) (m : LineMeas) (s : Chip) (hs : s.good G) :
    (Chip.supplyLine d m s).good G := by
  unfold Chip.supplyLine
  try dsimp only
  repeat' first
    | with_reducible (first | assumption | apply Chip.putSat_good | apply Chip.put_good | apply Chip.ite_good
                            | apply Chip.cond_good | apply Chip.foldl_good) | with_reducible intro _ | split

theorem Chip.supplyLoss_good {G : Watch} (d : Die) (vstkLow : Bool) (vreg5Low : Bool) (s : Chip) (hs : s.good G) :
    (Chip.supplyLoss d vstkLow vreg5Low s).good G := by
  unfold Chip.supplyLoss
  try dsimp only
  repeat' first
    | with_reducible (first | assumption | apply Chip.updPwr_good | apply Chip.forceLevel0_good | apply Chip.updCxs_good
                            | apply Chip.powersDown_good | apply Chip.ite_good | apply Chip.foldl_good)
    | with_reducible intro _ | split

theorem Chip.lastgaspSend_good {G : Watch} (d : Die) (s : Chip) (hs : s.good G) : (Chip.lastgaspSend d s).good G := by
  unfold Chip.lastgaspSend
  try dsimp only
  repeat' first
    | with_reducible (first | assumption | apply Chip.originate_good | apply Chip.cause_good
                            | apply Chip.updPwr_good | apply Chip.ite_good)
    | with_reducible intro _ | split

theorem Chip.powerOnReset_good {G : Watch} (d : Die) (s : Chip) (hs : s.good G) (ht : ∀ e, ¬ G.tick e) :
    (Chip.powerOnReset d s).good G := by
  unfold Chip.powerOnReset
  try dsimp only
  repeat' first
    | with_reducible (first | assumption | apply Chip.driveFaultN_good | apply Chip.powerLoss_good | apply Chip.ite_good
                            | apply Chip.foldl_good) | with_reducible intro _ | split

theorem Chip.vstkOvervoltage_good {G : Watch} (d : Die) (vstk : Nat) (s : Chip) (hs : s.good G) :
    (Chip.vstkOvervoltage d vstk s).good G := by
  unfold Chip.vstkOvervoltage
  try dsimp only
  repeat' first
    | with_reducible (first | assumption | apply Chip.report_good | apply Chip.put_good | apply Chip.putSat_good
                            | apply Chip.ite_good | apply Chip.foldl_good) | with_reducible intro _ | split

theorem Chip.vstkOvervoltageClear_good {G : Watch} (d : Die) (vstk : Nat) (s : Chip) (hs : s.good G) :
    (Chip.vstkOvervoltageClear d vstk s).good G := by
  unfold Chip.vstkOvervoltageClear
  try dsimp only
  repeat' first
    | with_reducible (first | assumption | apply Chip.put_good | apply Chip.putSat_good | apply Chip.ite_good
                            | apply Chip.foldl_good) | with_reducible intro _ | split

theorem Chip.applyPowerState_good {G : Watch} (d : Die) (q : List Byte) (s : Chip) (hs : s.good G) :
    (Chip.applyPowerState d q s).good G := by
  unfold Chip.applyPowerState
  try dsimp only
  repeat' first
    | with_reducible (first | assumption | apply Chip.wakeEvent_good | apply Chip.beginEntry_good | apply Chip.put_good
                            | apply Chip.ite_good | apply Chip.cond_good | apply Chip.each_good | apply Chip.foldl_good)
    | with_reducible intro _ | split

theorem Chip.updSnap_good {G : Watch} (s : Chip) (d : Die) (f : SnapX → SnapX) (hs : s.good G) :
    (Chip.updSnap s d f).good G := by
  unfold Chip.updSnap
  try dsimp only
  repeat' first
    | with_reducible (first | assumption | apply Chip.ite_good | apply Chip.upd_good | apply Chip.foldl_good)
    | with_reducible intro _ | split | exact ‹DieX.good _ _ _›

theorem Chip.blotInEdge_good {G : Watch} (d : Die) (level : Bool) (cycle : Nat) (s : Chip) (hs : s.good G) :
    (Chip.blotInEdge d level cycle s).good G := by
  unfold Chip.blotInEdge
  try dsimp only
  repeat' first
    | with_reducible (first | assumption | apply Chip.trigger_good | apply Chip.level_good | apply Chip.updSnap_good
                            | apply Chip.cond_good | apply Chip.ite_good)
    | with_reducible intro _ | split

theorem Chip.blotLineEdge_good {G : Watch} (d : Die) (src : Die) (at_ : EventAt) (s : Chip) (hs : s.good G) :
    (Chip.blotLineEdge d src at_ s).good G := by
  unfold Chip.blotLineEdge
  try dsimp only
  repeat' first
    | with_reducible (first | assumption | apply Chip.updSnap_good | apply Chip.ite_good)
    | with_reducible intro _ | split

theorem Chip.latchBlock_good {G : Watch} (d : Die) (block : Nat) (s : Chip) (hs : s.good G) :
    (Chip.latchBlock d block s).good G := by
  unfold Chip.latchBlock
  try dsimp only
  repeat' first
    | with_reducible (first | assumption | apply Chip.ite_good | apply Chip.setReg_good | apply Chip.each_good
                            | apply Chip.foldl_good) | with_reducible intro _ | split

theorem Chip.latchHeader_good {G : Watch} (s : Chip) (d : Die) (hs : s.good G) : (Chip.latchHeader s d).good G := by
  unfold Chip.latchHeader
  try dsimp only
  repeat' first
    | with_reducible (first | assumption | apply Chip.setReg_good | apply Chip.ite_good)
    | with_reducible intro _ | split

theorem Chip.snapshotLatch_good {G : Watch} (d : Die) (s : Chip) (hs : s.good G) : (Chip.snapshotLatch d s).good G := by
  unfold Chip.snapshotLatch
  try dsimp only
  repeat' first
    | with_reducible (first | assumption | apply Chip.put_good | apply Chip.inc_good | apply Chip.each_good
                            | apply Chip.putAll_good | apply Chip.event_good | apply Chip.updEng_good
                            | apply Chip.updSnap_good | apply Chip.latchBlock_good | apply Chip.latchHeader_good
                            | apply Chip.cond_good | apply Chip.ite_good)
    | with_reducible intro _ | split

theorem Chip.armSnapshot_good {G : Watch} (s : Chip) (hs : s.good G) : (Chip.armSnapshot s).good G := by
  unfold Chip.armSnapshot
  try dsimp only
  repeat' first
    | with_reducible (first | assumption | apply Chip.updSnap_good | apply Chip.ite_good | apply Chip.each_good
                            | apply Chip.foldl_good) | with_reducible intro _ | split

theorem Chip.snapEdge_good {G : Watch} (d : Die) (s : Chip) (hs : s.good G) : (Chip.snapEdge d s).good G := by
  unfold Chip.snapEdge
  try dsimp only
  repeat' first
    | with_reducible (first | assumption | apply Chip.put_good | apply Chip.updSnap_good | apply Chip.ite_good
                            | apply Chip.foldl_good) | with_reducible intro _ | split

theorem Chip.writeSnapCtrl_good {G : Watch} (s : Chip) (d : Die) (w : Word) (hs : s.good G) :
    (Chip.writeSnapCtrl s d w).good G := by
  unfold Chip.writeSnapCtrl
  try dsimp only
  repeat' first
    | with_reducible (first | assumption | apply Chip.armSnapshot_good | apply Chip.trigger_good | apply Chip.ite_good
                            | apply Chip.cond_good | apply Chip.foldl_good) | with_reducible intro _ | split

theorem Chip.snapHdr0Read_good {G : Watch} (d : Die) (s : Chip) (hs : s.good G) : (Chip.snapHdr0Read d s).good G := by
  unfold Chip.snapHdr0Read
  try dsimp only
  repeat' first
    | with_reducible (first | assumption | apply Chip.putAll_good | apply Chip.put_good | apply Chip.ite_good
                            | apply Chip.foldl_good) | with_reducible intro _ | split

theorem Chip.updFol_good {G : Watch} (s : Chip) (d : Die) (f : FolX → FolX) (hs : s.good G)
    (hf : ∀ x, wordsWf x.copyA = true → wordsWf x.copyB = true → wordsWf (f x).copyA = true ∧ wordsWf (f x).copyB = true) :
    (Chip.updFol s d f).good G := by
  exact Chip.upd_good _ _ _ hs fun x hx => ⟨by
    have h := hx.1
    simp only [DieX.wf, Bool.and_eq_true] at h ⊢
    exact ⟨⟨h.1.1, (hf _ h.1.2 h.2).1⟩, (hf _ h.1.2 h.2).2⟩, hx.2⟩

theorem Chip.setCopyValid_good {G : Watch} (s : Chip) (d : Die) (b : Bool) (v : Bool) (hs : s.good G) :
    (Chip.setCopyValid s d b v).good G := by
  unfold Chip.setCopyValid
  try dsimp only
  repeat' first
    | with_reducible (first | assumption | apply Chip.putB_good | apply Chip.ite_good | apply Chip.foldl_good)
    | with_reducible intro _ | split

theorem Chip.folWrite_good {G : Watch} (s : Chip) (d : Die) (n : Nat) (w : Word) (hs : s.good G) :
    (Chip.folWrite s d n w).good G := by
  unfold Chip.folWrite
  dsimp only
  refine Chip.setCopyValid_good _ _ _ _ (Chip.updFol_good _ _ _ hs fun x ha hb => ?_)
  have key : ∀ l, wordsWf l = true → wordsWf (if w = 0 then storeDel l n else storePut l n w) = true := by
    intro l hl
    split
    · exact wordsWf_storeDel _ _ hl
    · next hw => exact wordsWf_storePut _ _ _ hl hw
  split
  · exact ⟨ha, key _ hb⟩
  · exact ⟨key _ ha, hb⟩

theorem Chip.sealCopy_good {G : Watch} (s : Chip) (d : Die) (seq : Nat) (crc : Nat) (hs : s.good G) :
    (Chip.sealCopy s d seq crc).good G := by
  unfold Chip.sealCopy
  try dsimp only
  repeat' first
    | with_reducible (first | assumption | apply Chip.updFol_good | apply Chip.put_good | apply Chip.setCopyValid_good
                            | apply Chip.ite_good | apply Chip.setReg_good | apply Chip.foldl_good)
    | exact fun (_ : FolX) h k => ⟨h, k⟩ | (constructor <;> assumption) | with_reducible intro _ | split

theorem Chip.sealRefused_good {G : Watch} (s : Chip) (d : Die) (err : Nat) (rec : Nat) (hs : s.good G) :
    (Chip.sealRefused s d err rec).good G := by
  unfold Chip.sealRefused
  try dsimp only
  repeat' first
    | with_reducible (first | assumption | apply Chip.put_good | apply Chip.ite_good | apply Chip.cond_good
                            | apply Chip.foldl_good) | with_reducible intro _ | split

theorem Chip.requestSeal_good {G : Watch} (s : Chip) (d : Die) (seq : Nat) (crc : Nat) (hs : s.good G) :
    (Chip.requestSeal s d seq crc).good G := by
  unfold Chip.requestSeal
  try dsimp only
  repeat' first
    | with_reducible (first | assumption | apply Chip.sealCopy_good | apply Chip.sealRefused_good | apply Chip.ite_good
                            | apply Chip.foldl_good) | with_reducible intro _ | split

theorem Chip.showModePend_good {G : Watch} (s : Chip) (d : Die) (hs : s.good G) : (Chip.showModePend s d).good G := by
  unfold Chip.showModePend
  try dsimp only
  repeat' first
    | with_reducible (first | assumption | apply Chip.putB_good | apply Chip.ite_good | apply Chip.foldl_good)
    | with_reducible intro _ | split

theorem Chip.copyFails_good {G : Watch} (s : Chip) (d : Die) (b : Bool) (hs : s.good G) : (Chip.copyFails s d b).good G := by
  unfold Chip.copyFails
  try dsimp only
  repeat' first
    | with_reducible (first | assumption | apply Chip.report_good | apply Chip.put_good | apply Chip.setCopyValid_good
                            | apply Chip.ite_good | apply Chip.cond_good | apply Chip.foldl_good) | with_reducible intro _
    | split

theorem Chip.folioScrub_good {G : Watch} (d : Die) (rotA : Bool) (rotB : Bool) (s : Chip) (hs : s.good G) :
    (Chip.folioScrub d rotA rotB s).good G := by
  unfold Chip.folioScrub
  try dsimp only
  repeat' first
    | with_reducible (first | assumption | apply Chip.report_good | apply Chip.put_good | apply Chip.useInjection_good
                            | apply Chip.copyFails_good | apply Chip.ite_good | apply Chip.each_good
                            | apply Chip.foldl_good) | with_reducible intro _ | split

theorem Chip.folioEvent_good {G : Watch} (s : Chip) (d : Die) (cause : Nat) (hs : s.good G) :
    (Chip.folioEvent s d cause).good G := by
  unfold Chip.folioEvent
  try dsimp only
  repeat' first
    | with_reducible (first | assumption | apply Chip.updBoot_good | apply Chip.event_good | apply Chip.ite_good
                            | apply Chip.foldl_good) | exact fun (_ : BootX) h => h | exact fun (_ : BootX) _ => rfl
    | exact fun (_ : BootX) h => ramWf_ramStore _ _ _ h | with_reducible intro _ | split

theorem Chip.folioFlush_good {G : Watch} (s : Chip) (d : Die) (hs : s.good G) : (Chip.folioFlush s d).good G := by
  unfold Chip.folioFlush
  try dsimp only
  repeat' first
    | with_reducible (first | assumption | apply Chip.folioEvent_good | apply Chip.updBoot_good | apply Chip.ite_good
                            | apply Chip.foldl_good) | exact fun (_ : BootX) h => h | exact fun (_ : BootX) _ => rfl
    | exact fun (_ : BootX) h => ramWf_ramStore _ _ _ h | with_reducible intro _ | split

theorem Chip.folioCheck_good {G : Watch} (s : Chip) (d : Die) (b : BootFacts) (hs : s.good G) :
    (Chip.folioCheck s d b).good G := by
  unfold Chip.folioCheck
  try dsimp only
  repeat' first
    | with_reducible (first | assumption | apply Chip.each_good | apply Chip.copyFails_good | apply Chip.cond_good)
    | with_reducible intro _ | split

theorem Chip.folioSelect_good {G : Watch} (s : Chip) (d : Die) (hs : s.good G) : (Chip.folioSelect s d).good G := by
  unfold Chip.folioSelect
  try dsimp only
  repeat' first
    | with_reducible (first | assumption | apply Chip.put_good | apply Chip.updBoot_good | apply Chip.ite_good
                            | apply Chip.cond_good | apply Chip.foldl_good) | exact fun (_ : BootX) h => h
    | exact fun (_ : BootX) _ => rfl | exact fun (_ : BootX) h => ramWf_ramStore _ _ _ h | with_reducible intro _ | split

theorem Chip.countEvents_good {G : Watch} (s : Chip) (d : Die) (n : Nat) (ev : Nat) (present : Bool) (hs : s.good G) :
    (Chip.countEvents s d n ev present).good G := by
  unfold Chip.countEvents
  try dsimp only
  repeat' first
    | with_reducible (first | assumption | apply Chip.inc_good | apply Chip.setSticky_good | apply Chip.putSat_good
                            | apply Chip.ite_good | apply Chip.upd_good | apply Chip.cond_good | apply Chip.foldl_good)
    | with_reducible intro _ | split | exact ‹DieX.good _ _ _›

theorem Chip.escalate_good {G : Watch} (s : Chip) (d : Die) (k : Nat) (hs : s.good G) : (Chip.escalate s d k).good G := by
  unfold Chip.escalate
  try dsimp only
  repeat' first
    | with_reducible (first | assumption | apply Chip.put_good | apply Chip.ite_good | apply Chip.cond_good
                            | apply Chip.foldl_good) | with_reducible intro _ | split

theorem Chip.refreshLive_good {G : Watch} (s : Chip) (d : Die) (hs : s.good G) : (Chip.refreshLive s d).good G := by
  unfold Chip.refreshLive
  try dsimp only
  repeat' first
    | with_reducible (first | assumption | apply Chip.put_good | apply Chip.ite_good | apply Chip.each_good
                            | apply Chip.foldl_good) | with_reducible intro _ | split

theorem Chip.fcolEvaluation_good {G : Watch} (d : Die) (parityOk : Bool) (readbackOk : Bool) (s : Chip) (hs : s.good G) :
    (Chip.fcolEvaluation d parityOk readbackOk s).good G := by
  unfold Chip.fcolEvaluation
  try dsimp only
  repeat' first
    | with_reducible (first | assumption | apply Chip.put_good | apply Chip.putB_good | apply Chip.upd_good
                            | apply Chip.each_good | apply Chip.draw_good | apply Chip.report_good
                            | apply Chip.faultEvent_good | apply Chip.stateEvent_good | apply Chip.trigger_good
                            | apply Chip.showFaultOrder_good | apply EngRun.bad_good | apply Chip.countEvents_good
                            | apply Chip.escalate_good | apply Chip.refreshLive_good | apply Chip.cond_good
                            | apply Chip.ite_good)
    | with_reducible intro _ | split | exact ‹DieX.good _ _ _›

theorem Chip.rollWindows_good {G : Watch} (d : Die) (s : Chip) (hs : s.good G) : (Chip.rollWindows d s).good G := by
  unfold Chip.rollWindows
  try dsimp only
  repeat' first
    | with_reducible (first | assumption | apply Chip.emptyWindow_good | apply Chip.putSat_good | apply Chip.ite_good
                            | apply Chip.upd_good | apply Chip.each_good | apply Chip.foldl_good) | with_reducible intro _
    | split | exact ‹DieX.good _ _ _›

theorem Chip.requestResume_good {G : Watch} (s : Chip) (d : Die) (hs : s.good G) : (Chip.requestResume s d).good G := by
  unfold Chip.requestResume
  try dsimp only
  repeat' first
    | with_reducible (first | assumption | apply Chip.ite_good | apply Chip.upd_good | apply Chip.foldl_good)
    | with_reducible intro _ | split | exact ‹DieX.good _ _ _›

theorem Chip.armInjection_good {G : Watch} (s : Chip) (d : Die) (checker : Nat) (count : Nat) (hs : s.good G) :
    (Chip.armInjection s d checker count).good G := by
  unfold Chip.armInjection
  try dsimp only
  repeat' first
    | with_reducible (first | assumption | apply Chip.put_good | apply Chip.ite_good | apply Chip.foldl_good)
    | with_reducible intro _ | split

theorem Chip.clearEventCounters_good {G : Watch} (s : Chip) (d : Die) (hs : s.good G) :
    (Chip.clearEventCounters s d).good G := by
  unfold Chip.clearEventCounters
  try dsimp only
  repeat' first
    | with_reducible (first | assumption | apply Chip.ite_good | apply Chip.setReg_good | apply Chip.each_good
                            | apply Chip.foldl_good) | with_reducible intro _ | split

end Sys2Proof.Machine
end

