-- ==== Sys2Proof/Laws/KeepsModule.lean ====
section
/-! SUPPORT. Every operation keeps the stores in canonical form and what is watched: register writes, modes,
command effects, edges, loss and start-up. -/

namespace Sys2Proof.Machine

theorem Chip.writeFields_good {G : Watch} (s : Chip) (d : Die) (a : Nat) (r : RegDesc) (w : Word) (hs : s.good G) :
    (Chip.writeFields s d a r w).good G := by
  unfold Chip.writeFields
  try dsimp only
  repeat' first
    | with_reducible (first | assumption | apply Chip.updBoot_good | apply Chip.ite_good | apply Chip.setReg_good
                            | apply Chip.cond_good | apply Chip.foldl_good) | exact fun (_ : BootX) h => h
    | exact fun (_ : BootX) _ => rfl | exact fun (_ : BootX) h => ramWf_ramStore _ _ _ h | with_reducible intro _ | split

theorem Chip.writeHeld_good {G : Watch} (s : Chip) (d : Die) (a : Nat) (r : RegDesc) (w : Word) (hs : s.good G) :
    (Chip.writeHeld s d a r w).good G := by
  unfold Chip.writeHeld
  try dsimp only
  repeat' first
    | with_reducible (first | assumption | apply Chip.writePending_good | apply Chip.ite_good | apply Chip.foldl_good)
    | with_reducible intro _ | split

theorem Chip.writeCxs_good {G : Watch} (s : Chip) (d : Die) (a : Nat) (r : RegDesc) (w : Word) (hs : s.good G) :
    (Chip.writeCxs s d a r w).good G := by
  unfold Chip.writeCxs
  try dsimp only
  repeat' first
    | with_reducible (first | assumption | apply Chip.showForced_good | apply Chip.writeCxsCfg_good
                            | apply Chip.writeQtgt_good | apply Chip.writeFields_good | apply Chip.ite_good)
    | with_reducible intro _ | split

theorem Chip.writeInj_good {G : Watch} (s : Chip) (d : Die) (a : Nat) (r : RegDesc) (w : Word) (hs : s.good G) :
    (Chip.writeInj s d a r w).good G := by
  unfold Chip.writeInj
  try dsimp only
  repeat' first
    | with_reducible (first | assumption | apply Chip.writeCapture_good | apply Chip.writeInjCfg_good
                            | apply Chip.writeInjFreq_good | apply Chip.writeFields_good | apply Chip.writeHeld_good
                            | apply Chip.ite_good | apply Chip.foldl_good) | with_reducible intro _ | split

theorem Chip.writeThm_good {G : Watch} (s : Chip) (d : Die) (a : Nat) (r : RegDesc) (w : Word) (hs : s.good G) :
    (Chip.writeThm s d a r w).good G := by
  unfold Chip.writeThm
  try dsimp only
  repeat' first
    | with_reducible (first | assumption | apply Chip.clearExcl_good | apply Chip.writeFields_good
                            | apply Chip.writeThmCfg_good | apply Chip.clearHold_good | apply Chip.showThrottle_good
                            | apply Chip.auxOffs_good | apply Chip.ite_good | apply Chip.cond_good
                            | apply Chip.foldl_good) | with_reducible intro _ | split

theorem Chip.write0_good {G : Watch} (s : Chip) (d : Die) (a : Nat) (r : RegDesc) (w : Word) (hs : s.good G) :
    (Chip.write0 s d a r w).good G := by
  unfold Chip.write0
  try dsimp only
  repeat' first
    | with_reducible (first | assumption | apply Chip.writeCxs_good | apply Chip.writeFields_good
                            | apply Chip.writeHeld_good | apply Chip.writeInj_good | apply Chip.writeThm_good
                            | apply Chip.ite_good | apply Chip.foldl_good) | with_reducible intro _ | split

theorem Chip.writeCfe_good {G : Watch} (s : Chip) (d : Die) (a : Nat) (r : RegDesc) (w : Word) (hs : s.good G) :
    (Chip.writeCfe s d a r w).good G := by
  unfold Chip.writeCfe
  try dsimp only
  repeat' first
    | with_reducible (first | assumption | apply Chip.each_good | apply Chip.settleChannel_good
                            | apply Chip.auxOffs_good | apply Chip.writeNotch_good | apply Chip.writeFields_good
                            | apply Chip.ite_good)
    | with_reducible intro _ | split

theorem Chip.writeOwd_good {G : Watch} (s : Chip) (d : Die) (a : Nat) (r : RegDesc) (w : Word) (hs : s.good G) :
    (Chip.writeOwd s d a r w).good G := by
  unfold Chip.writeOwd
  try dsimp only
  repeat' first
    | with_reducible (first | assumption | apply Chip.wiringInterlock_good | apply Chip.writeOwdCmd_good
                            | apply Chip.dropCleared_good | apply Chip.writeRwire_good | apply Chip.writeFields_good
                            | apply Chip.cond_good | apply Chip.ite_good)
    | with_reducible intro _ | split

theorem Chip.write1_good {G : Watch} (s : Chip) (d : Die) (a : Nat) (r : RegDesc) (w : Word) (hs : s.good G) :
    (Chip.write1 s d a r w).good G := by
  unfold Chip.write1
  try dsimp only
  repeat' first
    | with_reducible (first | assumption | apply Chip.writeCfe_good | apply Chip.writeOwd_good
                            | apply Chip.writeEisCmd_good | apply Chip.writeZt_good | apply Chip.writeFields_good
                            | apply Chip.writeQlnCfg_good | apply Chip.writeQlnCmd_good | apply Chip.writeRaw_good
                            | apply Chip.ite_good | apply Chip.foldl_good) | with_reducible intro _ | split

theorem Chip.writeChkCtrl_good {G : Watch} (s : Chip) (d : Die) (w : Word) (hs : s.good G) :
    (Chip.writeChkCtrl s d w).good G := by
  unfold Chip.writeChkCtrl
  try dsimp only
  repeat' first
    | with_reducible (first | assumption | apply Chip.chkAbort_good | apply Chip.chkGo_good | apply Chip.ite_good
                            | apply Chip.foldl_good) | with_reducible intro _ | split

theorem Chip.writeFcolCtrl_good {G : Watch} (s : Chip) (d : Die) (w : Word) (hs : s.good G) :
    (Chip.writeFcolCtrl s d w).good G := by
  unfold Chip.writeFcolCtrl
  try dsimp only
  repeat' first
    | with_reducible (first | assumption | apply Chip.requestResume_good | apply Chip.clearEventCounters_good
                            | apply Chip.ite_good | apply Chip.upd_good | apply Chip.cond_good | apply Chip.foldl_good)
    | with_reducible intro _ | split | exact ‹DieX.good _ _ _›

theorem Chip.writeFcol_good {G : Watch} (s : Chip) (d : Die) (a : Nat) (r : RegDesc) (w : Word) (hs : s.good G) :
    (Chip.writeFcol s d a r w).good G := by
  unfold Chip.writeFcol
  try dsimp only
  repeat' first
    | with_reducible (first | assumption | apply Chip.clearSticky_good | apply Chip.writeFcolCtrl_good
                            | apply Chip.armInjection_good | apply Chip.writeFields_good | apply Chip.ite_good
                            | apply Chip.upd_good | apply Chip.foldl_good) | with_reducible intro _ | split
    | exact ‹DieX.good _ _ _›

theorem Chip.writeFolio_good {G : Watch} (s : Chip) (d : Die) (a : Nat) (r : RegDesc) (w : Word) (hs : s.good G) :
    (Chip.writeFolio s d a r w).good G := by
  unfold Chip.writeFolio
  try dsimp only
  repeat' first
    | with_reducible (first | assumption | apply Chip.folWrite_good | apply Chip.requestSeal_good
                            | apply Chip.showModePend_good | apply Chip.writeFields_good | apply Chip.ite_good
                            | apply Chip.foldl_good) | with_reducible intro _ | split

theorem Chip.writeBist_good {G : Watch} (s : Chip) (d : Die) (a : Nat) (r : RegDesc) (w : Word) (hs : s.good G) :
    (Chip.writeBist s d a r w).good G := by
  unfold Chip.writeBist
  try dsimp only
  repeat' first
    | with_reducible (first | assumption | apply Chip.bistAbort_good | apply Chip.writeFields_good
                            | apply Chip.bistFuseGo_good | apply Chip.ite_good | apply Chip.cond_good
                            | apply Chip.foldl_good) | with_reducible intro _ | split

theorem Chip.write2_good {G : Watch} (s : Chip) (d : Die) (a : Nat) (r : RegDesc) (w : Word) (hs : s.good G) :
    (Chip.write2 s d a r w).good G := by
  unfold Chip.write2
  try dsimp only
  repeat' first
    | with_reducible (first | assumption | apply Chip.writeChkCtrl_good | apply Chip.writeFields_good
                            | apply Chip.writeFolio_good | apply Chip.writeCalCmd_good | apply Chip.writeFcol_good
                            | apply Chip.writePwrCmd_good | apply Chip.writeBist_good | apply Chip.writeFuseCmd_good
                            | apply Chip.ite_good | apply Chip.foldl_good) | with_reducible intro _ | split

theorem Chip.write3_good {G : Watch} (s : Chip) (d : Die) (a : Nat) (r : RegDesc) (w : Word) (hs : s.good G) :
    (Chip.write3 s d a r w).good G := by
  unfold Chip.write3
  try dsimp only
  repeat' first
    | with_reducible (first | assumption | apply Chip.putB_good | apply Chip.applyEntryWrite_good
                            | apply Chip.writeSnapCtrl_good | apply Chip.writeFields_good | apply Chip.ite_good)
    | with_reducible intro _ | split

theorem Chip.regApply_good {G : Watch} (s : Chip) (d : Die) (a : Nat) (w : Word) (hs : s.good G) :
    (Chip.regApply s d a w).good G := by
  unfold Chip.regApply
  try dsimp only
  repeat' first
    | with_reducible (first | assumption | apply Chip.write0_good | apply Chip.write1_good | apply Chip.write2_good
                            | apply Chip.write3_good | apply Chip.ite_good | apply Chip.foldl_good)
    | with_reducible intro _ | split

theorem Chip.regWrite_good {G : Watch} (s : Chip) (d : Die) (a : Nat) (w : Word) (hs : s.good G) :
    (Chip.regWrite s d a w).good G := by
  unfold Chip.regWrite
  try dsimp only
  repeat' first
    | with_reducible (first | assumption | apply Chip.takeNotes_good | apply Chip.regApply_good | apply Chip.ite_good
                            | apply Chip.foldl_good) | with_reducible intro _ | split

theorem Chip.regWriteAny_good {G : Watch} (s : Chip) (d : Die) (a : Nat) (w : Word) (hs : s.good G) :
    (Chip.regWriteAny s d a w).good G := by
  unfold Chip.regWriteAny
  try dsimp only
  repeat' first
    | with_reducible (first | assumption | apply Chip.regWrite_good | apply Chip.regApply_good | apply Chip.ite_good
                            | apply Chip.each_good | apply Chip.foldl_good) | with_reducible intro _ | split

theorem Chip.readMark_good {G : Watch} (s : Chip) (d : Die) (a : Nat) (hs : s.good G) : (Chip.readMark s d a).good G := by
  unfold Chip.readMark
  try dsimp only
  repeat' first
    | with_reducible (first | assumption | apply Chip.put_good | apply Chip.snapHdr0Read_good | apply Chip.ite_good
                            | apply Chip.foldl_good) | with_reducible intro _ | split

theorem Chip.applyRecords_good {G : Watch} (s : Chip) (d : Die) (b : Bool) (hs : s.good G) :
    (Chip.applyRecords s d b).1.good G := by
  unfold Chip.applyRecords
  exact Chip.updEng_good _ _ _ (Chip.cond_good _ _ _ (Chip.updCxs_good _ _ _ (Chip.targetWrites_good _ _ (Chip.each_good _ _ _
    (Chip.updCxs_good _ _ _ hs) fun _ _ h => Chip.regApply_good _ _ _ _ h))) fun _ h => Chip.filterLine_good _ _ h)

theorem Chip.handBal_good {G : Watch} (s : Chip) (d : Die) (hs : s.good G) : (Chip.handBal s d).good G := by
  unfold Chip.handBal
  try dsimp only
  repeat' first
    | with_reducible (first | assumption | apply Chip.each_good | apply Chip.stopRamps_good
                            | apply Chip.showForced_good)
    | with_reducible intro _ | split

theorem Chip.handSearch_good {G : Watch} (s : Chip) (d : Die) (hs : s.good G) : (Chip.handSearch s d).good G := by
  unfold Chip.handSearch
  try dsimp only
  repeat' first
    | with_reducible (first | assumption | apply Chip.laneDue_good | apply Chip.updLane_good | apply Chip.ite_good
                            | apply Chip.each_good | apply Chip.foldl_good) | with_reducible intro _ | split

theorem Chip.handThrottle_good {G : Watch} (s : Chip) (d : Die) (limit : Nat) (hs : s.good G) :
    (Chip.handThrottle s d limit).good G := by
  unfold Chip.handThrottle
  try dsimp only
  repeat' first
    | with_reducible (first | assumption | apply Chip.showThrottle_good | apply Chip.throttleToHost_good
                            | apply Chip.ite_good | apply Chip.foldl_good) | with_reducible intro _ | split

theorem Chip.handTime_good {G : Watch} (s : Chip) (d : Die) (hs : s.good G) : (Chip.handTime s d).good G := by
  unfold Chip.handTime
  try dsimp only
  repeat' first
    | with_reducible (first | assumption | apply Chip.setPll_good | apply Chip.updTime_good | apply Chip.ite_good)
    | exact fun (_ : TimeX) => rfl | with_reducible intro _ | split

theorem Chip.enterModes_good {G : Watch} (s : Chip) (d : Die) (new : Word) (hs : s.good G) :
    (Chip.enterModes s d new).good G := by
  unfold Chip.enterModes
  try dsimp only
  repeat' first
    | with_reducible (first | assumption | apply Chip.handBal_good | apply Chip.handSearch_good
                            | apply Chip.handThrottle_good | apply Chip.showModePend_good | apply Chip.handTime_good
                            | apply Chip.ite_good | apply Chip.setReg_good | apply Chip.cond_good | apply Chip.foldl_good)
    | with_reducible intro _ | split

theorem Chip.folioSwitch_good {G : Watch} (d : Die) (s : Chip) (hs : s.good G) : (Chip.folioSwitch d s).good G := by
  unfold Chip.folioSwitch
  try dsimp only
  repeat' first
    | with_reducible (first | assumption | apply Chip.applyRecords_good | apply Chip.put_good | apply Chip.folioEvent_good
                            | apply Chip.enterModes_good | apply Chip.updFol_good | apply Chip.ite_good
                            | apply Chip.foldl_good) | exact fun (_ : FolX) h k => ⟨h, k⟩ | (constructor <;> assumption)
    | with_reducible intro _ | split

theorem Chip.reapplyCopy_good {G : Watch} (s : Chip) (d : Die) (hs : s.good G) : (Chip.reapplyCopy s d).good G := by
  unfold Chip.reapplyCopy
  try dsimp only
  repeat' first
    | with_reducible (first | assumption | apply Chip.applyRecords_good | apply Chip.showModePend_good
                            | apply Chip.put_good | apply Chip.updFol_good | apply Chip.ite_good | apply Chip.foldl_good)
    | exact fun (_ : FolX) h k => ⟨h, k⟩ | (constructor <;> assumption) | with_reducible intro _ | split

theorem Chip.folioReapply_good {G : Watch} (d : Die) (s : Chip) (hs : s.good G) : (Chip.folioReapply d s).good G := by
  unfold Chip.folioReapply
  try dsimp only
  repeat' first
    | with_reducible (first | assumption | apply Chip.folioEvent_good | apply Chip.updBoot_good
                            | apply Chip.reapplyCopy_good | apply Chip.ite_good | apply Chip.foldl_good)
    | exact fun (_ : BootX) h => h | exact fun (_ : BootX) _ => rfl | exact fun (_ : BootX) h => ramWf_ramStore _ _ _ h
    | with_reducible intro _ | split

theorem Chip.modeLine_good {G : Watch} (d : Die) (s : Chip) (hs : s.good G) : (Chip.modeLine d s).good G := by
  unfold Chip.modeLine
  try dsimp only
  repeat' first
    | with_reducible (first | assumption | apply Chip.enterModes_good | apply Chip.updFol_good | apply Chip.ite_good
                            | apply Chip.foldl_good) | exact fun (_ : FolX) h k => ⟨h, k⟩ | (constructor <;> assumption)
    | with_reducible intro _ | split

theorem Chip.applyFolioWrite_good {G : Watch} (d : Die) (q : List Byte) (s : Chip) (hs : s.good G) :
    (Chip.applyFolioWrite d q s).good G := by
  unfold Chip.applyFolioWrite
  try dsimp only
  repeat' first
    | with_reducible (first | assumption | apply Chip.regApply_good | apply Chip.ite_good | apply Chip.each_good
                            | apply Chip.foldl_good) | with_reducible intro _ | split

theorem Chip.applyBalStop_good {G : Watch} (d : Die) (mask : Nat) (s : Chip) (hs : s.good G) :
    (Chip.applyBalStop d mask s).good G := by
  unfold Chip.applyBalStop
  try dsimp only
  repeat' first
    | with_reducible (first | assumption | apply Chip.regApply_good | apply Chip.ite_good | apply Chip.each_good
                            | apply Chip.foldl_good) | with_reducible intro _ | split

theorem Chip.applyAct_good {G : Watch} (d : Die) (op : Nat) (q : List Byte) (s : Chip) (hs : s.good G) :
    (Chip.applyAct d op q s).good G := by
  unfold Chip.applyAct
  try dsimp only
  repeat' first
    | with_reducible (first | assumption | apply Chip.put_good | apply Chip.updJnl_good
                            | apply Chip.joinOutcome_good | apply Chip.updCal_good | apply Chip.calRequest_good
                            | apply Chip.applyLoadBegin_good | apply Chip.applyLoadData_good
                            | apply Chip.applyLoadEnd_good | apply Chip.applyLoadBoot_good
                            | apply Chip.startRun_good | apply Chip.applyAdvance_good
                            | apply Chip.applyChallenge_good | apply Chip.applyResponse_good
                            | apply Chip.applyPowerState_good | apply Chip.requestSeal_good
                            | apply Chip.requestResume_good | apply Chip.armInjection_good
                            | apply Chip.readMark_good | apply Chip.applyFolioWrite_good
                            | apply Chip.applyBalStop_good | apply Chip.ite_good)
    | with_reducible intro _ | split

theorem Chip.applyEffect_good {G : Watch} (d : Die) (e : Effect) (s : Chip) (hs : s.good G) :
    (Chip.applyEffect d e s).good G := by
  unfold Chip.applyEffect
  try dsimp only
  repeat' first
    | with_reducible (first | assumption | apply Chip.regApply_good | apply Chip.applyAct_good | apply Chip.ite_good
                            | apply Chip.foldl_good) | with_reducible intro _ | split

theorem Chip.applyDue_good {G : Watch} (d : Die) (s : Chip) (hs : s.good G) : (Chip.applyDue d s).good G := by
  unfold Chip.applyDue
  try dsimp only
  repeat' first
    | with_reducible (first | assumption | apply Chip.updJnl_good | apply Chip.applyEffect_good | apply Chip.ite_good
                            | apply Chip.each_good | apply Chip.foldl_good) | with_reducible intro _ | split

theorem Chip.beginActivities_good {G : Watch} (d : Die) (s : Chip) (hs : s.good G) : (Chip.beginActivities d s).good G := by
  unfold Chip.beginActivities
  try dsimp only
  repeat' first
    | with_reducible (first | assumption | apply Chip.updJnl_good | apply Chip.applyEffect_good | apply Chip.ite_good
                            | apply Chip.each_good | apply Chip.foldl_good) | with_reducible intro _ | split

theorem Chip.preview_good {G : Watch} (s : Chip) (d : Die) (hs : s.good G) : (Chip.preview s d).good G := by
  unfold Chip.preview
  try dsimp only
  repeat' first
    | with_reducible (first | assumption | apply Chip.applyDue_good | apply Chip.ite_good | apply Chip.foldl_good)
    | with_reducible intro _ | split

theorem Chip.tryWrite_good {G : Watch} (s : Chip) (d : Die) (a : Nat) (w : Word) (hs : s.good G) :
    (Chip.tryWrite s d a w).good G := by
  unfold Chip.tryWrite
  try dsimp only
  repeat' first
    | with_reducible (first | assumption | apply Chip.regApply_good | apply Chip.ite_good | apply Chip.each_good
                            | apply Chip.foldl_good) | with_reducible intro _ | split

theorem Chip.ping_good {G : Watch} (d : Die) (f : FrameIn) (s : Chip) (hs : s.good G) : (Chip.ping d f s).good G := by
  unfold Chip.ping
  try dsimp only
  repeat' first
    | with_reducible (first | assumption | apply Chip.put_good | apply Chip.respond_good
                            | apply Chip.frameLinkFail_good | apply Chip.foreignCmd_good | apply Chip.ite_good)
    | with_reducible intro _ | split

theorem Chip.takeAddress_good {G : Watch} (s : Chip) (next : Nat) (base : Nat) (hs : s.good G) :
    (Chip.takeAddress s next base).good G := by
  unfold Chip.takeAddress
  try dsimp only
  repeat' first
    | with_reducible (first | assumption | apply Chip.putAll_good | apply Chip.showJournal_good | apply Chip.put_good
                            | apply Chip.updJnl_good | apply Chip.ite_good | apply Chip.each_good | apply Chip.foldl_good)
    | with_reducible intro _ | split

theorem Chip.enumerate_good {G : Watch} (d : Die) (f : FrameIn) (s : Chip) (hs : s.good G) :
    (Chip.enumerate d f s).good G := by
  unfold Chip.enumerate
  try dsimp only
  repeat' first
    | with_reducible (first | assumption | apply Chip.put_good | apply Chip.respond_good
                            | apply Chip.frameLinkFail_good | apply Chip.forward_good | apply Chip.takeAddress_good
                            | apply Chip.ite_good)
    | with_reducible intro _ | split

theorem Chip.opcode_good {G : Watch} (s : Chip) (d : Die) (seq : Nat) (op : Nat) (block : Nat)
    (form : Chip → List Byte → Chip.Formed) (hs : s.good G) :
    (Chip.opcode s d seq op block form).good G := by
  unfold Chip.opcode
  try dsimp only
  repeat' first
    | with_reducible (first | assumption | apply Chip.executeEntry_good | apply Chip.preview_good | apply Chip.ite_good
                            | apply Chip.foldl_good) | with_reducible intro _ | split

theorem Chip.portEdge_good {G : Watch} (d : Die) (p : Port) (s : Chip) (hs : s.good G) : (Chip.portEdge d p s).good G := by
  unfold Chip.portEdge
  try dsimp only
  repeat' first
    | with_reducible (first | assumption | apply Chip.inc_good | apply Chip.updRing_good | apply Chip.put_good
                            | apply Chip.cause_good | apply Chip.ite_good | apply Chip.cond_good | apply Chip.foldl_good)
    | with_reducible intro _ | split

theorem Chip.beaconEdge_good {G : Watch} (d : Die) (s : Chip) (hs : s.good G) : (Chip.beaconEdge d s).good G := by
  unfold Chip.beaconEdge
  try dsimp only
  repeat' first
    | with_reducible (first | assumption | apply Chip.put_good | apply Chip.inc_good | apply Chip.updTime_good
                            | apply Chip.portEdge_good | apply Chip.cond_good | apply Chip.ite_good)
    | exact fun (_ : TimeX) => rfl | with_reducible intro _ | split

theorem Chip.linkEdge_good {G : Watch} (d : Die) (s : Chip) (hs : s.good G) : (Chip.linkEdge d s).good G := by
  unfold Chip.linkEdge
  try dsimp only
  repeat' first
    | with_reducible (first | assumption | apply Chip.offerLate_good | apply Chip.updRing_good | apply Chip.ite_good)
    | with_reducible intro _ | split

theorem Chip.severeOverrun_good {G : Watch} (s : Chip) (d : Die) (n : Nat) (hs : s.good G) :
    (Chip.severeOverrun s d n).good G := by
  unfold Chip.severeOverrun
  try dsimp only
  repeat' first
    | with_reducible (first | assumption | apply Chip.put_good | apply Chip.stageOverrun_good | apply Chip.setSw_good
                            | apply Chip.dropChannel_good | apply Chip.endBin_good | apply Chip.ite_good
                            | apply Chip.cond_good | apply Chip.foldl_good) | with_reducible intro _ | split

theorem Chip.isolate_good {G : Watch} (d : Die) (n : Nat) (s : Chip) (hs : s.good G) : (Chip.isolate d n s).good G := by
  unfold Chip.isolate
  try dsimp only
  repeat' first
    | with_reducible (first | assumption | apply Chip.upd_good | apply Chip.stopRamps_good
                            | apply Chip.bleedsStopEdge_good | apply Chip.laneDue_good
                            | apply Chip.severeOverrun_good | apply Chip.cond_good | apply Chip.ite_good)
    | with_reducible intro _ | split | exact ‹DieX.good _ _ _›

theorem Chip.reactEdge_good {G : Watch} (d : Die) (s : Chip) (hs : s.good G) : (Chip.reactEdge d s).good G := by
  unfold Chip.reactEdge
  try dsimp only
  repeat' first
    | with_reducible (first | assumption | apply Chip.isolate_good | apply Chip.stopActive_good
                            | apply Chip.stageSafe_good | apply Chip.ite_good | apply Chip.upd_good | apply Chip.cond_good
                            | apply Chip.each_good | apply Chip.foldl_good) | with_reducible intro _ | split
    | exact ‹DieX.good _ _ _›

theorem Chip.lossEdge_good {G : Watch} (d : Die) (i : Senses) (s : Chip) (hs : s.good G) : (Chip.lossEdge d i s).good G := by
  unfold Chip.lossEdge
  try dsimp only
  repeat' first
    | with_reducible (first | assumption | apply Chip.updThm_good | apply Chip.ite_good | apply Chip.foldl_good)
    | with_reducible intro _ | split

theorem Chip.warmEdge_good {G : Watch} (d : Die) (s : Chip) (hs : s.good G) : (Chip.warmEdge d s).good G := by
  unfold Chip.warmEdge
  try dsimp only
  repeat' first
    | with_reducible (first | assumption | apply Chip.updPwr_good | apply Chip.updShd_good | apply Chip.ite_good
                            | apply Chip.foldl_good) | with_reducible intro _ | split

theorem Chip.measureEdge_good {G : Watch} (d : Die) (s : Chip) (hs : s.good G) : (Chip.measureEdge d s).good G := by
  unfold Chip.measureEdge
  try dsimp only
  repeat' first
    | with_reducible (first | assumption | apply Chip.stepSpoil_good | apply Chip.owdSpoil_good
                            | apply Chip.updCfe_good | apply Chip.notchEdge_good | apply Chip.auxEdge_good
                            | apply Chip.eisEdge_good | apply Chip.calSpoil_good | apply Chip.cond_good
                            | apply Chip.ite_good)
    | with_reducible intro _ | split

theorem Chip.restoreSticky_good {G : Watch} (d : Die) (s : Chip) (hs : s.good G) : (Chip.restoreSticky d s).good G := by
  unfold Chip.restoreSticky
  try dsimp only
  repeat' first
    | with_reducible (first | assumption | apply Chip.put_good | apply Chip.each_good | apply Chip.cond_good)
    | with_reducible intro _ | split

theorem Chip.gapEdge_good {G : Watch} (d : Die) (s : Chip) (hs : s.good G) : (Chip.gapEdge d s).good G := by
  unfold Chip.gapEdge
  try dsimp only
  repeat' first
    | with_reducible (first | assumption | apply Chip.updJnl_good | apply Chip.cond_good)
    | with_reducible intro _ | split

theorem Chip.strokeEdge_good {G : Watch} (d : Die) (i : Senses) (s : Chip) (hs : s.good G) (ht : ∀ e, ¬ G.tick e) :
    (Chip.strokeEdge d i s).good G := by
  unfold Chip.strokeEdge
  try dsimp only
  repeat' first
    | with_reducible (first | assumption | apply Chip.driveFaultN_good | apply Chip.setStroke_good
                            | apply Chip.engineEdge_good | apply Chip.stageEdge_good | apply Chip.harnessEdge_good
                            | apply Chip.orderlyStopEdge_good | apply Chip.settleUnlisted_good
                            | apply Chip.levelEdge_good | apply Chip.settledEdge_good | apply Chip.dipEdge_good
                            | apply Chip.snapEdge_good | apply Chip.applyDue_good | apply Chip.beaconEdge_good
                            | apply Chip.linkEdge_good | apply Chip.reactEdge_good | apply Chip.lossEdge_good
                            | apply Chip.warmEdge_good | apply Chip.measureEdge_good | apply Chip.restoreSticky_good
                            | apply Chip.gapEdge_good | apply Chip.cond_good | apply Chip.ite_good)
    | with_reducible intro _ | split

theorem Chip.lineBoundary_good {G : Watch} (d : Die) (m : LineMeas) (s : Chip) (hs : s.good G) :
    (Chip.lineBoundary d m s).good G := by
  unfold Chip.lineBoundary
  try dsimp only
  repeat' first
    | with_reducible (first | assumption | apply Chip.draw_good | apply Chip.spareStep_good
                            | apply Chip.levellerLine_good | apply Chip.stageLine_good | apply Chip.owdLine_good
                            | apply Chip.filterLine_good | apply Chip.thmLine_good | apply Chip.calLine_good
                            | apply Chip.bistLine_good | apply Chip.padLine_good | apply Chip.supplyLine_good
                            | apply Chip.folioFlush_good | apply Chip.modeLine_good | apply Chip.cond_good
                            | apply Chip.ite_good)
    | with_reducible intro _ | split

theorem Chip.echoPage_good {G : Watch} (d : Die) (s : Chip) (hs : s.good G) : (Chip.echoPage d s).good G := by
  unfold Chip.echoPage
  try dsimp only
  repeat' first
    | with_reducible (first | assumption | apply Chip.updRing_good | apply Chip.ite_good | apply Chip.cond_good
                            | apply Chip.foldl_good) | with_reducible intro _ | split

theorem Chip.hopPage_good {G : Watch} (d : Die) (s : Chip) (hs : s.good G) : (Chip.hopPage d s).good G := by
  unfold Chip.hopPage
  try dsimp only
  repeat' first
    | with_reducible (first | assumption | apply Chip.showHop_good | apply Chip.cond_good)
    | with_reducible intro _ | split

theorem Chip.blotPage_good {G : Watch} (d : Die) (blot : Option (Nat × Nat)) (s : Chip) (hs : s.good G) :
    (Chip.blotPage d blot s).good G := by
  unfold Chip.blotPage
  try dsimp only
  repeat' first
    | with_reducible (first | assumption | apply Chip.takeSeq_good | apply Chip.enqueue_good
                            | apply Chip.noteTaken_good | apply Chip.scheduleBlot_good | apply Chip.cond_good
                            | apply Chip.ite_good)
    | with_reducible intro _ | split

theorem Chip.heartbeatPage_good {G : Watch} (d : Die) (s : Chip) (hs : s.good G) : (Chip.heartbeatPage d s).good G := by
  unfold Chip.heartbeatPage
  try dsimp only
  repeat' first
    | with_reducible (first | assumption | apply Chip.event_good | apply Chip.ite_good | apply Chip.cond_good
                            | apply Chip.foldl_good) | with_reducible intro _ | split

theorem Chip.ringSummaryPage_good {G : Watch} (d : Die) (s : Chip) (hs : s.good G) : (Chip.ringSummaryPage d s).good G := by
  unfold Chip.ringSummaryPage
  try dsimp only
  repeat' first
    | with_reducible (first | assumption | apply Chip.event_good | apply Chip.updRing_good | apply Chip.ite_good
                            | apply Chip.cond_good | apply Chip.foldl_good) | with_reducible intro _ | split

theorem Chip.agesPage_good {G : Watch} (d : Die) (s : Chip) (hs : s.good G) : (Chip.agesPage d s).good G := by
  unfold Chip.agesPage
  try dsimp only
  repeat' first
    | with_reducible (first | assumption | apply Chip.upd_good | apply EngRun.run_good | apply Chip.updBoot_good
                            | apply Chip.ite_good)
    | exact fun (_ : BootX) h => h | exact fun (_ : BootX) _ => rfl
    | exact fun (_ : BootX) h => ramWf_ramStore _ _ _ h | with_reducible intro _ | split | exact ‹DieX.good _ _ _›

theorem Chip.measurePage_good {G : Watch} (d : Die) (s : Chip) (hs : s.good G) : (Chip.measurePage d s).good G := by
  unfold Chip.measurePage
  try dsimp only
  repeat' first
    | with_reducible (first | assumption | apply Chip.eisPage_good | apply Chip.pageSummary_good | apply Chip.owdPage_good
                            | apply Chip.ite_good | apply Chip.foldl_good) | with_reducible intro _ | split

theorem Chip.pageBoundary_good {G : Watch} (d : Die) (m : PageMeas) (s : Chip) (hs : s.good G) :
    (Chip.pageBoundary d m s).good G := by
  unfold Chip.pageBoundary
  try dsimp only
  repeat' first
    | with_reducible (first | assumption | apply Chip.put_good | apply Chip.cause_good | apply Chip.raise_good
                            | apply Chip.directOrder_good | apply Chip.thmPage_good | apply Chip.calPage_good
                            | apply Chip.nibPage_good | apply Chip.bistPage_good | apply Chip.lcyPage_good
                            | apply Chip.folioScrub_good | apply Chip.rollWindows_good | apply Chip.echoPage_good
                            | apply Chip.hopPage_good | apply Chip.blotPage_good | apply Chip.heartbeatPage_good
                            | apply Chip.ringSummaryPage_good | apply Chip.agesPage_good
                            | apply Chip.measurePage_good | apply Chip.cond_good | apply Chip.ite_good)
    | with_reducible intro _ | split

theorem Chip.takeRelay_good {G : Watch} (k : Die) (src : Die) (e : Entry) (s : Chip) (hs : s.good G) :
    (Chip.takeRelay k src e s).good G := by
  unfold Chip.takeRelay
  try dsimp only
  repeat' first
    | with_reducible (first | assumption | apply Chip.updJnl_good | apply Chip.ite_good | apply Chip.foldl_good)
    | with_reducible intro _ | split

theorem Chip.relayRow_good {G : Watch} (d : Die) (src : Die) (seq : Nat) (broadcast : Bool) (s : Chip) (hs : s.good G) :
    (Chip.relayRow d src seq broadcast s).good G := by
  unfold Chip.relayRow
  try dsimp only
  repeat' first
    | with_reducible (first | assumption | apply Chip.takeRelay_good | apply Chip.ite_good)
    | with_reducible intro _ | split

theorem Chip.takeSummary_good {G : Watch} (s : Chip) (d : Die) (src : Die) (hs : s.good G) :
    (Chip.takeSummary s d src).good G := by
  unfold Chip.takeSummary
  try dsimp only
  repeat' first
    | with_reducible (first | assumption | apply Chip.put_good | apply Chip.ite_good | apply Chip.each_good
                            | apply Chip.foldl_good) | with_reducible intro _ | split

theorem Chip.showGuards_good {G : Watch} (s : Chip) (hs : s.good G) : (Chip.showGuards s).good G := by
  unfold Chip.showGuards
  try dsimp only
  repeat' first
    | with_reducible (first | assumption | apply Chip.showGuard_good | apply Chip.ite_good | apply Chip.each_good
                            | apply Chip.foldl_good) | with_reducible intro _ | split

theorem Chip.dieReturns_good {G : Watch} (s : Chip) (n : Die) (hs : s.good G) : (Chip.dieReturns s n).good G := by
  unfold Chip.dieReturns
  try dsimp only
  repeat' first
    | with_reducible (first | assumption | apply Chip.putAll_good | apply Chip.driveFaultN_good
                            | apply Chip.showGuards_good | apply Chip.put_good | apply Chip.ite_good
                            | apply Chip.each_good | apply Chip.foldl_good) | with_reducible intro _ | split

theorem Chip.heartbeatReceived_good {G : Watch} (d : Die) (src : Die) (s : Chip) (hs : s.good G) :
    (Chip.heartbeatReceived d src s).good G := by
  unfold Chip.heartbeatReceived
  try dsimp only
  repeat' first
    | with_reducible (first | assumption | apply Chip.updRing_good | apply Chip.takeSummary_good
                            | apply Chip.dieReturns_good | apply Chip.ite_good | apply Chip.cond_good
                            | apply Chip.foldl_good) | with_reducible intro _ | split

theorem Chip.completeRelay_good {G : Watch} (s : Chip) (n : Die) (e : Entry) (hs : s.good G) :
    (Chip.completeRelay s n e).1.good G := by
  unfold Chip.completeRelay
  try dsimp only
  repeat' first
    | with_reducible (first | assumption | apply Chip.takeRelay_good | apply Chip.ite_good | apply Chip.each_good
                            | apply Chip.foldl_good) | with_reducible intro _ | split

theorem Chip.answerWard_good {G : Watch} (g : Die) (n : Die) (e : Entry) (s : Chip) (hs : s.good G) :
    (Chip.answerWard g n e s).good G := by
  unfold Chip.answerWard
  try dsimp only
  repeat' first
    | with_reducible (first | assumption | apply Chip.inc_good | apply Chip.respond_good
                            | apply Chip.forgetOutcomes_good | apply Chip.completeRelay_good | apply Chip.ite_good)
    | with_reducible intro _ | split

theorem Chip.wardLost_good {G : Watch} (s : Chip) (g : Die) (n : Die) (hs : s.good G) : (Chip.wardLost s g n).good G := by
  unfold Chip.wardLost
  try dsimp only
  repeat' first
    | with_reducible (first | assumption | apply Chip.answerWard_good | apply Chip.put_good | apply Chip.updJnl_good
                            | apply Chip.ite_good | apply Chip.each_good | apply Chip.foldl_good) | with_reducible intro _
    | split

theorem Chip.newGuardian_good {G : Watch} (w : Die) (s : Chip) (hs : s.good G) : (Chip.newGuardian w s).good G := by
  unfold Chip.newGuardian
  try dsimp only
  repeat' first
    | with_reducible (first | assumption | apply Chip.each_good | apply Chip.updJnl_good
                            | apply Chip.acceptMirrored_good | apply Chip.releaseEntry_good
                            | apply Chip.beginActivities_good)
    | with_reducible intro _ | split

theorem Chip.relaysEnd_good {G : Watch} (w : Die) (s : Chip) (hs : s.good G) : (Chip.relaysEnd w s).good G := by
  unfold Chip.relaysEnd
  try dsimp only
  repeat' first
    | with_reducible (first | assumption | apply Chip.each_good | apply Chip.answerRelay_good
                            | apply Chip.ownTurn_good | apply Chip.ite_good)
    | with_reducible intro _ | split

theorem Chip.neighbourLost_good {G : Watch} (d : Die) (n : Die) (s : Chip) (hs : s.good G) :
    (Chip.neighbourLost d n s).good G := by
  unfold Chip.neighbourLost
  try dsimp only
  repeat' first
    | with_reducible (first | assumption | apply Chip.putAll_good | apply Chip.updRing_good | apply Chip.report_good
                            | apply Chip.wardLost_good | apply Chip.newGuardian_good | apply Chip.rosterDieLost_good
                            | apply Chip.relaysEnd_good | apply Chip.driveFaultN_good | apply Chip.showGuards_good
                            | apply Chip.ite_good | apply Chip.each_good | apply Chip.foldl_good) | with_reducible intro _
    | split

theorem Chip.portsUp_good {G : Watch} (s : Chip) (d : Die) (hs : s.good G) : (Chip.portsUp s d).good G := by
  unfold Chip.portsUp
  try dsimp only
  repeat' first
    | with_reducible (first | assumption | apply Chip.put_good | apply Chip.putB_good | apply Chip.movePort_good)
    | with_reducible intro _ | split

theorem Chip.lifecycleUp_good {G : Watch} (s : Chip) (d : Die) (hs : s.good G) : (Chip.lifecycleUp s d).good G := by
  unfold Chip.lifecycleUp
  try dsimp only
  repeat' first
    | with_reducible (first | assumption | apply Chip.put_good | apply Chip.stageRetire_good | apply Chip.ite_good
                            | apply Chip.cond_good | apply Chip.foldl_good) | with_reducible intro _ | split

theorem Chip.domainsUp_good {G : Watch} (s : Chip) (d : Die) (l : List (Fin 9)) (hs : s.good G) :
    (Chip.domainsUp s d l).good G := by
  unfold Chip.domainsUp
  try dsimp only
  repeat' first
    | with_reducible (first | assumption | apply Chip.padsShow_good | apply Chip.lanesUp_good
                            | apply Chip.bistRestart_good | apply Chip.updPwr_good | apply Chip.portsUp_good
                            | apply Chip.lifecycleUp_good | apply Chip.cond_good | apply Chip.foldl_good)
    | with_reducible intro _ | split

theorem Chip.readStraps_good {G : Watch} (s : Chip) (d : Die) (cst : Nat) (hs : s.good G) :
    (Chip.readStraps s d cst).good G := by
  unfold Chip.readStraps
  try dsimp only
  repeat' first
    | with_reducible (first | assumption | apply Chip.put_good | apply EngRun.bad_good | apply Chip.cond_good
                            | apply Chip.ite_good)
    | with_reducible intro _ | split

theorem Chip.bootFails_good {G : Watch} (s : Chip) (d : Die) (src : Nat) (hs : s.good G) :
    (Chip.bootFails s d src).good G := by
  unfold Chip.bootFails
  refine Chip.driveFaultN_good _ ?_
  exact Chip.upd_good _ _ _ (Chip.put_good _ _ _ _ _ (Chip.report_good _ _ _ hs)) fun _ h => h

theorem Chip.startPll_good {G : Watch} (s : Chip) (d : Die) (hs : s.good G) : (Chip.startPll s d).good G := by
  unfold Chip.startPll
  try dsimp only
  repeat' first
    | with_reducible (first | assumption | apply Chip.updTime_good | apply Chip.setPll_good | apply Chip.ite_good
                            | apply Chip.foldl_good) | exact fun (_ : TimeX) => rfl | with_reducible intro _ | split

theorem Chip.applyFuses_good {G : Watch} (s : Chip) (d : Die) (hs : s.good G) : (Chip.applyFuses s d).good G := by
  unfold Chip.applyFuses
  try dsimp only
  repeat' first
    | with_reducible (first | assumption | apply Chip.put_good | apply Chip.putB_good | apply Chip.each_good
                            | apply Chip.report_good | apply Chip.raise_good | apply Chip.updCfe_good
                            | apply Chip.setSpare_good | apply Chip.updBist_good | apply Chip.cond_good
                            | apply Chip.ite_good | apply Chip.foldl_good)
    | with_reducible intro _ | split

theorem Chip.applyLifecycle_good {G : Watch} (s : Chip) (d : Die) (hs : s.good G) : (Chip.applyLifecycle s d).good G := by
  unfold Chip.applyLifecycle
  try dsimp only
  repeat' first
    | with_reducible (first | assumption | apply Chip.put_good | apply Chip.ite_good | apply Chip.foldl_good)
    | with_reducible intro _ | split

theorem Chip.loadFactory_good {G : Watch} (s : Chip) (d : Die) (temp : Int) (hs : s.good G) :
    (Chip.loadFactory s d temp).good G := by
  unfold Chip.loadFactory
  try dsimp only
  repeat' first
    | with_reducible (first | assumption | apply Chip.setReg_good | apply Chip.each_good | apply Chip.updThm_good
                            | apply Chip.updCal_good)
    | with_reducible intro _ | split

theorem Chip.learnModule_good {G : Watch} (s : Chip) (d : Die) (hs : s.good G) : (Chip.learnModule s d).good G := by
  unfold Chip.learnModule
  try dsimp only
  repeat' first
    | with_reducible (first | assumption | apply Chip.setReg_good | apply Chip.put_good | apply Chip.ite_good)
    | with_reducible intro _ | split

theorem Chip.topStrap_good {G : Watch} (s : Chip) (d : Die) (hs : s.good G) : (Chip.topStrap s d).good G := by
  unfold Chip.topStrap
  try dsimp only
  repeat' first
    | with_reducible (first | assumption | apply Chip.put_good | apply Chip.each_good | apply Chip.putAll_good)
    | with_reducible intro _ | split

theorem Chip.rejoin_good {G : Watch} (s : Chip) (d : Die) (hs : s.good G) : (Chip.rejoin s d).good G := by
  unfold Chip.rejoin
  try dsimp only
  repeat' first
    | with_reducible (first | assumption | apply Chip.put_good | apply Chip.event_good)
    | with_reducible intro _ | split

theorem Chip.coldStart_good {G : Watch} (d : Die) (b : BootFacts) (s : Chip) (hs : s.good G) (ht : ∀ e, ¬ G.tick e) :
    (Chip.coldStart d b s).good G := by
  unfold Chip.coldStart
  dsimp only
  have hz : (({ s with regs := s.regs.filter fun e => addrDie e.1 != d.val } : Chip).upd d fun _ =>
      { DieX.reset with lcy := (s.die d).lcy }).good G := by
    refine ⟨storeWf_filter _ _ hs.1, fun e => ?_⟩
    have hd := hs.2 d
    have he := hs.2 e
    simp only [Chip.die, Chip.upd, Fin.getElem_fin, Vector.getElem_set] at hd he ⊢
    split
    · next h => have : d = e := Fin.ext h
                subst this; exact ⟨rfl, fun h => absurd h (ht _), hd.2.2⟩
    · exact he
  have h0 := Chip.startPll_good _ d (Chip.applyLifecycle_good _ d (Chip.learnModule_good _ d (Chip.updPwr_good _ d
    (fun y => { y with on := y.on.set 0 true, mclk := true }) hz)))
  have h1 := Chip.putB_good _ d BOOT_STAT BOOT_STAT.FUSEOK b.fuseOk (Chip.putB_good _ d BOOT_STAT BOOT_STAT.ROMOK b.romOk h0)
  split
  · exact hs
  · split
    · exact Chip.bootFails_good _ _ _ h1
    · split
      · exact Chip.bootFails_good _ _ _ h1
      · refine Chip.cond_good _ _ _ (Chip.driveFaultN_good _ (Chip.showGuard_good _ _ (Chip.setCalState_good _ _ _ (Chip.domainsUp_good _ _ _
          (Chip.updBoot_good _ _ _ (Chip.each_good _ _ _ (Chip.applyFuses_good _ _ (Chip.readStraps_good _ _ _ (Chip.loadFactory_good _ _ _
            (Chip.put_good _ _ _ _ _ (Chip.cond_good _ _ _ h1 fun _ h => Chip.topStrap_good _ _ h))))) fun _ _ h =>
              Chip.repairRow_good _ _ _ _ _ h) fun _ h => h))))) fun _ h => Chip.rejoin_good _ _ h

theorem Chip.journalReset_good {G : Watch} (s : Chip) (d : Die) (hs : s.good G) : (Chip.journalReset s d).good G := by
  unfold Chip.journalReset
  try dsimp only
  repeat' first
    | with_reducible (first | assumption | apply Chip.each_good | apply Chip.updJnl_good
                            | apply Chip.releaseEntry_good | apply Chip.ite_good)
    | with_reducible intro _ | split

theorem Chip.resetHidden_good {G : Watch} (d : Die) (x : DieX) (hx : x.good G d) (ht : ∀ e, ¬ G.tick e) : (Chip.resetHidden x).good G d :=
  ⟨hx.1, fun h => absurd h (ht _), hx.2.2⟩

theorem Chip.resetDie_good {G : Watch} (s : Chip) (d : Die) (hs : s.good G) (ht : ∀ e, ¬ G.tick e) : (Chip.resetDie s d).good G := by
  unfold Chip.resetDie
  try dsimp only
  repeat' first
    | with_reducible (first | assumption | apply Chip.put_good | apply Chip.upd_good | apply Chip.each_good
                            | apply Chip.putAll_good | apply Chip.showLevel_good | apply Chip.updRing_good
                            | apply Chip.loseRegs_good | apply Chip.loseDomain_good | apply Chip.cond_good)
    | with_reducible intro _ | split | exact Chip.resetHidden_good _ _ ‹DieX.good _ _ _› ht

theorem Chip.coreAgain_good {G : Watch} (s : Chip) (d : Die) (hs : s.good G) : (Chip.coreAgain s d).good G := by
  unfold Chip.coreAgain
  try dsimp only
  repeat' first
    | with_reducible (first | assumption | apply Chip.put_good | apply Chip.restartCore_good | apply Chip.ite_good
                            | apply Chip.cond_good | apply Chip.foldl_good) | with_reducible intro _ | split

theorem Chip.dieReset_good {G : Watch} (d : Die) (b : BootFacts) (s : Chip) (hs : s.good G) (ht : ∀ e, ¬ G.tick e) :
    (Chip.dieReset d b s).good G := by
  unfold Chip.dieReset
  try dsimp only
  repeat' first
    | with_reducible (first | assumption | apply Chip.put_good | apply Chip.report_good
                            | apply Chip.driveFaultN_good | apply Chip.showJournal_good | apply Chip.lanesUp_good
                            | apply Chip.updBoot_good | apply Chip.cutSlice_good | apply Chip.folioCheck_good
                            | apply Chip.folioSelect_good | apply Chip.lifecycleUp_good | apply Chip.readStraps_good
                            | apply Chip.startPll_good | apply Chip.journalReset_good | apply Chip.resetDie_good
                            | apply Chip.coreAgain_good | apply Chip.cond_good | apply Chip.ite_good)
    | exact fun (_ : BootX) h => h | exact fun (_ : BootX) _ => rfl
    | exact fun (_ : BootX) h => ramWf_ramStore _ _ _ h | with_reducible intro _ | split

theorem Chip.wakeCount_good {G : Watch} (s : Chip) (d : Die) (ticks : Nat) (hs : s.good G) (ht : ∀ e, ¬ G.tick e) :
    (Chip.wakeCount s d ticks).good G := by
  unfold Chip.wakeCount
  try dsimp only
  repeat' first
    | with_reducible (first | assumption | apply Chip.put_good | apply Chip.putB_good | apply Chip.putSat_good
                            | apply Chip.draw_good | apply Chip.updTime_good | apply Chip.setStroke_good
                            | apply Chip.cond_good | apply Chip.ite_good)
    | exact fun (_ : TimeX) => rfl | with_reducible intro _ | split

theorem Chip.codeLost_good {G : Watch} (s : Chip) (d : Die) (hs : s.good G) : (Chip.codeLost s d).good G := by
  unfold Chip.codeLost
  try dsimp only
  repeat' first
    | with_reducible (first | assumption | apply Chip.setReg_good | apply Chip.put_good | apply Chip.updBoot_good)
    | exact fun (_ : BootX) h => h | exact fun (_ : BootX) _ => rfl
    | exact fun (_ : BootX) h => ramWf_ramStore _ _ _ h | with_reducible intro _ | split

theorem Chip.wakeFromSleep_good {G : Watch} (d : Die) (ticks : Nat) (b : BootFacts) (s : Chip) (hs : s.good G)
    (ht : ∀ e, ¬ G.tick e) :
    (Chip.wakeFromSleep d ticks b s).good G := by
  unfold Chip.wakeFromSleep
  try dsimp only
  repeat' first
    | with_reducible (first | assumption | apply Chip.put_good | apply Chip.each_good | apply Chip.report_good
                            | apply Chip.setCalState_good | apply Chip.repairRow_good | apply Chip.updPwr_good
                            | apply Chip.setPwr_good | apply Chip.folioCheck_good | apply Chip.folioSelect_good
                            | apply Chip.domainsUp_good | apply Chip.startPll_good | apply Chip.coreAgain_good
                            | apply Chip.wakeCount_good | apply Chip.codeLost_good | apply Chip.cond_good
                            | apply Chip.ite_good)
    | with_reducible intro _ | split

end Sys2Proof.Machine
end

