-- ==== Sys2Proof/Laws/Lane.lean ====
section
/-! SUPPORT. Orders on a lane (R214): nibs take each order that a die drives, whatever follows it, and none of which one write slot was
damaged. -/
namespace Sys2Proof.Machine

/-- The orders of Table 08.6. -/
def laneOrders : List Nat := [ordWalkAll, ordWalkNew, ordName, ordClearAll, ordStream]

@[simp] theorem guarded_length (c : Nat) : (guarded c).length = 16 := by simp [guarded, laneBits]

/-- Only the 16 write slots after the roll-call slot tell the order. -/
theorem orderTaken_append (o l : List Bool) (h : o.length = 16) : orderTaken (o ++ l) = orderTaken o := by
  have h1 : (o ++ l).take 16 = o := by rw [← h]; exact List.take_left
  have h2 : o.take 16 = o := by rw [← h]; exact List.take_length
  simp only [orderTaken, h1, h2]

/-- Nibs take the order that the die drives. -/
theorem orderTaken_guarded (c : Nat) (hc : c ∈ laneOrders) (l : List Bool) : orderTaken (guarded c ++ l) = some c := by
  rw [orderTaken_append _ _ (guarded_length c)]
  revert c
  decide +kernel

/-- An order of which one write slot was damaged is taken as no order. -/
theorem orderTaken_damaged (c : Nat) (hc : c ∈ laneOrders) (i : Nat) (hi : i < 16) (l : List Bool) :
    orderTaken ((guarded c).modify i (!·) ++ l) = none := by
  rw [orderTaken_append _ _ (by rw [List.length_modify, guarded_length])]
  revert c i
  decide +kernel

end Sys2Proof.Machine
end

