-- ==== Sys2Proof/Laws/Regs.lean ====
section
/-! SUPPORT. The register tables: the fields of a register lie in its word and apart from each other, and a written word reaches each
field by its type code alone. -/
namespace Sys2Proof.Machine

/-- A bit lies in a field. -/
def Fld.has (f : Fld) (i : Nat) : Bool := decide (f.lo ≤ i) && decide (i < f.lo + f.w)

/-- Fields within 32 bits, none of them empty, and apart from each other. -/
def fieldsApart : List FieldDesc → Bool
  | [] => true
  | f :: l => decide (0 < f.fld.w) && decide (f.fld.lo + f.fld.w ≤ 32)
      && l.all (fun g => decide (f.fld.lo + f.fld.w ≤ g.fld.lo) || decide (g.fld.lo + g.fld.w ≤ f.fld.lo)) && fieldsApart l

theorem blockRegs_apart (plane block : Nat) : (blockRegs plane block).all (fun r => fieldsApart r.fields) = true := by
  have h : ∀ (c : Prop) [Decidable c] (l m : List RegDesc), l.all (fun r => fieldsApart r.fields) = true →
      m.all (fun r => fieldsApart r.fields) = true → (if c then l else m).all (fun r => fieldsApart r.fields) = true := by
    intro c _ l m hl hm; split <;> assumption
  unfold blockRegs
  repeat' first | (refine h _ _ _ ?_ ?_) | decide +kernel

/-- The fields of every register of the spec lie within its word and apart from each other. -/
theorem regDesc_apart {a : Nat} {r : RegDesc} (h : regDesc a = some r) : fieldsApart r.fields = true := by
  have hm := List.mem_of_find?_eq_some h
  exact List.all_eq_true.1 (blockRegs_apart _ _) r hm

/-! ### A written word, bit by bit (R7, R9, Table 00.3) -/

theorem Fld.mask_getLsbD (f : Fld) (i : Nat) : f.mask.getLsbD i = (decide (i < 32) && f.has i) := by
  simp only [Fld.mask, Fld.has, BitVec.getLsbD_ofNat, ← Nat.shiftLeft_eq, Nat.testBit_shiftLeft, Nat.testBit_two_pow_sub_one]
  grind

theorem Fld.write_getLsbD (f : Fld) (w : Word) (v i : Nat) :
    (f.write w v).getLsbD i = if i < 32 ∧ f.has i = true then v.testBit (i - f.lo) else w.getLsbD i := by
  simp only [Fld.write, BitVec.getLsbD_or, BitVec.getLsbD_and, BitVec.getLsbD_not, Fld.mask_getLsbD, BitVec.getLsbD_ofNat,
    ← Nat.shiftLeft_eq, Nat.testBit_shiftLeft, Nat.testBit_mod_two_pow]
  have := @BitVec.getLsbD_of_ge 32 w i
  simp only [Fld.has]
  grind

theorem Fld.read_testBit (f : Fld) (w : Word) (i : Nat) :
    (f.read w).testBit i = (decide (i < f.w) && w.getLsbD (f.lo + i)) := by
  simp only [Fld.read, ← Nat.shiftRight_eq_div_pow, Nat.testBit_mod_two_pow, Nat.testBit_shiftRight, BitVec.testBit_toNat]

/-- The bit of a field after a write of `w` over `old`, by the field's type code. -/
def typedBit (f : FieldDesc) (old w : Word) (locked : Bool) (i : Nat) : Bool :=
  match f.ty with
  | .ro | .wo => old.getLsbD i
  | .rw => w.getLsbD i
  | .lck => if locked then old.getLsbD i else w.getLsbD i
  | .w1c => if f.fld.read w = 2 ^ f.fld.w - 1 then false else old.getLsbD i
  | .stk => old.getLsbD i && !w.getLsbD i

/-- One field's turn of a write. -/
def fieldTurn (old w : Word) (locked : Bool) (acc : Word) (f : FieldDesc) : Word :=
  match f.ty with
  | .ro => acc
  | .wo => acc
  | .rw => f.fld.write acc (f.fld.read w)
  | .lck => if locked then acc else f.fld.write acc (f.fld.read w)
  | .w1c => if f.fld.read w = 2 ^ f.fld.w - 1 then f.fld.write acc 0 else acc
  | .stk => acc &&& ~~~ (BitVec.ofNat 32 ((f.fld.read old &&& f.fld.read w) * 2 ^ f.fld.lo))

theorem newWord_eq (fields : List FieldDesc) (old w : Word) (locked : Bool) :
    newWord fields old w locked = fields.foldl (fieldTurn old w locked) old := rfl

/-- A field's turn writes its own bits by the type code, where the word still holds the old ones. -/
theorem fieldTurn_inside (old w : Word) (locked : Bool) (acc : Word) (f : FieldDesc) (i : Nat) (hi : i < 32)
    (hh : f.fld.has i = true) (he : acc.getLsbD i = old.getLsbD i) :
    (fieldTurn old w locked acc f).getLsbD i = typedBit f old w locked i := by
  have h2 : f.fld.lo ≤ i ∧ i < f.fld.lo + f.fld.w := by simpa [Fld.has] using hh
  have h3 : i - f.fld.lo < f.fld.w := by omega
  have h4 : f.fld.lo + (i - f.fld.lo) = i := by omega
  unfold fieldTurn typedBit
  cases f.ty <;>
    simp only [Fld.write_getLsbD, Fld.read_testBit, hi, hh, h3, h4, he, BitVec.getLsbD_and, BitVec.getLsbD_not, BitVec.getLsbD_ofNat,
      ← Nat.shiftLeft_eq, Nat.testBit_shiftLeft, h2.1, Nat.testBit_and, decide_true, Bool.true_and, and_self, if_true]
  · split <;> simp only [Fld.write_getLsbD, hi, hh, and_self, if_true, Nat.zero_testBit, he]
  · cases old.getLsbD i <;> cases w.getLsbD i <;> rfl
  · cases locked <;> simp only [Fld.write_getLsbD, Fld.read_testBit, hi, hh, h3, h4, he, and_self, if_true, decide_true,
      Bool.true_and, Bool.false_eq_true, if_false]

/-- A field's turn leaves the bits of no other. -/
theorem fieldTurn_outside (old w : Word) (locked : Bool) (acc : Word) (f : FieldDesc) (i : Nat) (hi : i < 32)
    (hh : f.fld.has i = false) : (fieldTurn old w locked acc f).getLsbD i = acc.getLsbD i := by
  have h2 : ¬ (f.fld.lo ≤ i ∧ i < f.fld.lo + f.fld.w) := by simpa [Fld.has] using hh
  unfold fieldTurn
  cases f.ty <;> simp only [Fld.write_getLsbD, hh, Bool.false_eq_true, and_false, if_false]
  · split <;> simp only [Fld.write_getLsbD, hh, Bool.false_eq_true, and_false, if_false]
  · simp only [BitVec.getLsbD_and, BitVec.getLsbD_not, BitVec.getLsbD_ofNat, ← Nat.shiftLeft_eq, Nat.testBit_shiftLeft, Nat.testBit_and,
      Fld.read_testBit, hi, decide_true, Bool.true_and]
    by_cases hl : f.fld.lo ≤ i
    · have h5 : ¬ i - f.fld.lo < f.fld.w := by omega
      simp only [h5, decide_false, Bool.false_and, Bool.and_false, Bool.not_false, Bool.and_true]
    · simp only [ge_iff_le, hl, decide_false, Bool.false_and, Bool.not_false, Bool.and_true]
  · split <;> simp only [Fld.write_getLsbD, hh, Bool.false_eq_true, and_false, if_false]

/-- A bit outside every field stays. -/
theorem newWord_outside (fields : List FieldDesc) (old w acc : Word) (locked : Bool) (i : Nat) (hi : i < 32)
    (h : ∀ f ∈ fields, f.fld.has i = false) : (fields.foldl (fieldTurn old w locked) acc).getLsbD i = acc.getLsbD i := by
  induction fields generalizing acc with
  | nil => rfl
  | cons f l ih =>
    rw [List.foldl_cons, ih _ fun g hg => h g (List.mem_cons_of_mem _ hg),
      fieldTurn_outside _ _ _ _ _ _ hi (h f (List.mem_cons_self ..))]

/-- A bit of a field is written by the field's type code alone. -/
theorem newWord_inside (fields : List FieldDesc) (old w acc : Word) (locked : Bool) (i : Nat) (hi : i < 32)
    (hap : fieldsApart fields = true) (f : FieldDesc) (hf : f ∈ fields) (hh : f.fld.has i = true)
    (hacc : acc.getLsbD i = old.getLsbD i) :
    (fields.foldl (fieldTurn old w locked) acc).getLsbD i = typedBit f old w locked i := by
  induction fields generalizing acc with
  | nil => exact absurd hf (List.not_mem_nil)
  | cons g l ih =>
    simp only [fieldsApart, Bool.and_eq_true, List.all_eq_true] at hap
    obtain ⟨⟨-, hall⟩, hl⟩ := hap
    have hno : ∀ k ∈ l, g.fld.has i = true → k.fld.has i = false := by
      intro k hk hg
      have := hall k hk
      simp only [Fld.has] at *
      grind
    rw [List.foldl_cons]
    rcases List.mem_cons.1 hf with rfl | hm
    · rw [newWord_outside _ _ _ _ _ _ hi fun k hk => hno k hk hh, fieldTurn_inside _ _ _ _ _ _ hi hh hacc]
    · have hg : g.fld.has i = false := by
        cases hc : g.fld.has i
        · rfl
        · simp [hno f hm hc] at hh
      exact ih _ hl hm (by rw [fieldTurn_outside _ _ _ _ _ _ hi hg, hacc])

/-- What a write leaves, bit by bit: by the type code of the field that has the bit, and unchanged where none has it (R7, R9). -/
theorem newWord_getLsbD {fields : List FieldDesc} (old w : Word) (locked : Bool) (i : Nat) (hi : i < 32)
    (hap : fieldsApart fields = true) :
    (∀ f ∈ fields, f.fld.has i = true → (newWord fields old w locked).getLsbD i = typedBit f old w locked i)
      ∧ ((∀ f ∈ fields, f.fld.has i = false) → (newWord fields old w locked).getLsbD i = old.getLsbD i) :=
  ⟨fun f hf hh => newWord_inside _ _ _ _ _ _ hi hap f hf hh rfl, fun h => newWord_outside _ _ _ _ _ _ hi h⟩

end Sys2Proof.Machine
end

