-- ==== Sys2Proof/Laws/Time.lean ====
section
/-! SUPPORT. What beacon discipline and the forwarding of frames leave: registers at other local addresses. -/
namespace Sys2Proof.Machine
namespace Chip

theorem inc_reg_off (s : Chip) (d e : Die) (a b : Nat) (f : Fld) (n : Nat) (ha : a < 0x20000000) (hb : b < 0x20000000)
    (h : a ≠ b) : (s.inc d a f n).reg e b = s.reg e b := by
  simp only [inc, putSat]; exact reg_put_off _ _ _ _ _ _ _ ha hb h

theorem putSat_reg_off (s : Chip) (d e : Die) (a b : Nat) (f : Fld) (v : Nat) (ha : a < 0x20000000) (hb : b < 0x20000000)
    (h : a ≠ b) : (s.putSat d a f v).reg e b = s.reg e b := by
  simp only [putSat]; exact reg_put_off _ _ _ _ _ _ _ ha hb h

theorem putI_reg_off (s : Chip) (d e : Die) (a b : Nat) (f : Fld) (v : Int) (ha : a < 0x20000000) (hb : b < 0x20000000)
    (h : a ≠ b) : (s.putI d a f v).reg e b = s.reg e b := by
  simp only [putI]; exact reg_put_off _ _ _ _ _ _ _ ha hb h

theorem putB_reg_off (s : Chip) (d e : Die) (a b : Nat) (f : Fld) (v : Bool) (ha : a < 0x20000000) (hb : b < 0x20000000)
    (h : a ≠ b) : (s.putB d a f v).reg e b = s.reg e b := by
  simp only [putB]; exact reg_put_off _ _ _ _ _ _ _ ha hb h

theorem setPll_reg_off (s : Chip) (d e : Die) (v b : Nat) (hb : b < 0x20000000) (h : ULK_PLLSTAT ≠ b) :
    (s.setPll d v).reg e b = s.reg e b := by
  simp only [setPll, putB_reg_off _ _ _ _ _ _ _ (by decide : ULK_PLLSTAT < 0x20000000) hb h,
    reg_put_off _ _ _ _ _ _ _ (by decide : ULK_PLLSTAT < 0x20000000) hb h]

/-- The correction recorded after a wake touches four registers. -/
theorem wakeCorrection_reg_off (s : Chip) (d e : Die) (delta : Int) (b : Nat) (hb : b < 0x20000000) (h1 : PWR_WAKE_CORR ≠ b)
    (h2 : ULK_STROKE_HI ≠ b) (h3 : PWR_SLEEP_TICKS_HI ≠ b) : (s.wakeCorrection d delta).reg e b = s.reg e b := by
  unfold wakeCorrection cond
  dsimp only
  rw [event_reg]
  split <;> simp (disch := first | assumption | decide) only [report_reg, reg_put_off, putI_reg_off]

theorem freqOff_reg_off (s : Chip) (d e : Die) (b : Nat) (hb : b < 0x20000000) (h : ULK_PLLSTAT ≠ b) :
    (s.freqOff d).reg e b = s.reg e b := by
  unfold freqOff draw; exact putI_reg_off _ _ _ _ _ _ _ (by decide) hb h

/-- Beacon discipline touches the PLL's register and, after a wake, those of its correction. -/
theorem discipline_reg_off (s : Chip) (d e : Die) (delta offset : Int) (b : Nat) (hb : b < 0x20000000) (h0 : ULK_PLLSTAT ≠ b)
    (h1 : PWR_WAKE_CORR ≠ b) (h2 : ULK_STROKE_HI ≠ b) (h3 : PWR_SLEEP_TICKS_HI ≠ b) :
    (s.discipline d delta offset).reg e b = s.reg e b := by
  unfold discipline cond updTime
  dsimp only
  repeat' split
  all_goals simp (disch := first | assumption | decide) only [upd_reg, setPll_reg_off, wakeCorrection_reg_off, putI_reg_off, freqOff_reg_off]

theorem passOn_reg_off (s : Chip) (d e : Die) (p : Port) (f : Frame) (bad : Bool) (b : Nat) (hb : b < 0x20000000)
    (h : ULK_TX ≠ b) : (s.passOn d p f bad).reg e b = s.reg e b := by
  unfold passOn beaconWaits send updRing draw cond
  dsimp only
  repeat' split
  all_goals first | rfl | (rw [reg_put_off _ _ _ _ _ _ _ (by decide) hb h]; rfl)

/-- Forwarding a frame touches the discard count of its port and the level of the lane. -/
theorem forward_reg_off (s : Chip) (d e : Die) (p : Port) (f : Frame) (bad : Bool) (b : Nat) (hb : b < 0x20000000)
    (h : ULK_TX ≠ b) (h0 : ULK_MISS 0 ≠ b) (h1 : ULK_MISS 1 ≠ b) : (s.forward d p f bad).reg e b = s.reg e b := by
  unfold forward
  dsimp only
  repeat' split
  · rfl
  · cases p
    · exact inc_reg_off _ _ _ _ _ _ _ (by decide) hb h0
    · exact inc_reg_off _ _ _ _ _ _ _ (by decide) hb h1
  · exact passOn_reg_off _ _ _ _ _ _ _ hb h

theorem showLevel_reg_off (s : Chip) (d e : Die) (b : Nat) (hb : b < 0x20000000) (h : ULK_TX ≠ b) :
    (s.showLevel d).reg e b = s.reg e b := by
  unfold showLevel; exact putSat_reg_off _ _ _ _ _ _ _ (by decide) hb h

theorem queueGap_reg_off (s : Chip) (d e : Die) (first count cause mask : Nat) (b : Nat) (hb : b < 0x20000000) (h : ULK_TX ≠ b) :
    (s.queueGap d first count cause mask).reg e b = s.reg e b := by
  unfold queueGap queueGapOf
  dsimp only
  repeat' split
  · rfl
  · rw [showLevel_reg_off _ _ _ _ hb h]; rfl
  · rfl

theorem offerNow_reg_off (s : Chip) (d e : Die) (p : List Byte) (r c first stop : Nat) (b : Nat) (hb : b < 0x20000000)
    (h : ULK_TX ≠ b) : (s.offerNow d p r c first stop).reg e b = s.reg e b := by
  unfold offerNow
  dsimp only
  repeat' split
  · rfl
  · rw [showLevel_reg_off _ _ _ _ hb h]; rfl
  · rw [report_reg, inc_reg_off _ _ _ _ _ _ _ (by decide) hb h]
  · rw [upd_reg, report_reg, inc_reg_off _ _ _ _ _ _ _ (by decide) hb h]
  · rw [queueGap_reg_off _ _ _ _ _ _ _ _ hb h, report_reg, inc_reg_off _ _ _ _ _ _ _ (by decide) hb h]

theorem offerStream_reg_off (s : Chip) (d e : Die) (p : List Byte) (r c first stop : Nat) (b : Nat) (hb : b < 0x20000000)
    (h : ULK_TX ≠ b) : (s.offerStream d p r c first stop).reg e b = s.reg e b := by
  unfold offerStream
  split
  · rfl
  · exact offerNow_reg_off _ _ _ _ _ _ _ _ _ hb h

theorem closeFrame_reg_off (s : Chip) (d e : Die) (c b : Nat) (hb : b < 0x20000000) (h : ULK_TX ≠ b) :
    (s.closeFrame d c).reg e b = s.reg e b := by
  unfold closeFrame
  dsimp only
  split
  · rfl
  · split
    · rfl
    · rw [offerStream_reg_off _ _ _ _ _ _ _ _ _ hb h]; rfl

/-- An interruption marked in the streams touches the level of the stream buffer and its count of drops. -/
theorem gapOf_reg_off (s : Chip) (d e : Die) (first count cause m : Nat) (b : Nat) (hb : b < 0x20000000) (h : ULK_TX ≠ b) :
    (s.gapOf d first count cause m).reg e b = s.reg e b := by
  unfold gapOf owdSpoil cond
  dsimp only
  repeat' split
  all_goals simp (disch := first | assumption | decide) only [queueGap_reg_off, closeFrame_reg_off, upd_reg]

end Chip
end Sys2Proof.Machine
end

