-- ==== Sys2Proof/WellFormed.lean ====
section
/-! DEFINITION. What a command of the table may carry: each number inside the field or the range that the spec gives it, each
list of readings as long as what is read. Every meaning is total; the check says which terms spell a command. -/
namespace Sys2Proof

/-- A value of a 16-bit field: a SEQ (R243, R268), a converter code (R74), an ID. -/
def code16 (n : Nat) : Bool := decide (n < 65536)

/-- A module address of a frame, 7 bits (R243). -/
def moduleWf (m : Nat) : Bool := decide (m < 128)

/-- A roster entry (R224). -/
def entryWf (e : Nat) : Bool := decide (e < 3072)

/-- A failed row: a macro of the RAM, a row of the macro, a bit of the row (R420). -/
def rowFailWf (r : Nat × Nat × Option Nat) : Bool := decide (r.1 < 18) && decide (r.2.1 < 64) && r.2.2.all fun b => decide (b < 39)

/-- The three position straps, the four cell-count straps (R17, R296), and a die temperature of the 16 bits of THM_TDIE. -/
def BootFacts.wf (b : BootFacts) : Bool :=
  decide (b.pos < 8) && decide (b.cst < 16) && b.rowFails.all rowFailWf && decide (-32768 ≤ b.temp) && decide (b.temp < 32768)

/-- One on-current for each bleed switch (R156). -/
def LineMeas.wf (m : LineMeas) : Bool := m.ion.length == 16

/-- A stroke number of 48 bits and an ID of 8 for the blot that a Ring Head schedules (Table 09.7). -/
def PageMeas.wf (m : PageMeas) : Bool := m.blot.all fun b => decide (b.1 < 2 ^ 48) && decide (b.2 < 256)

/-- A frame whose header fields lie within their bits (R243). -/
def FrameIn.wf (f : FrameIn) : Bool :=
  decide (f.ftype < 16) && moduleWf f.dmod && decide (f.ddie < 8) && moduleWf f.smod && decide (f.sdie < 8) && decide (f.tag < 64)
    && code16 f.seq && decide (f.len < 1024)

/-- A walk of a search: an echo is a byte, and a walk has 32 digit steps at most, each with a tally of four bits (R216). -/
def WalkIn.wf (w : WalkIn) : Bool := decide (w.tallies.length ≤ 32) && (w.tallies.all fun m => decide (m < 16)) && decide (w.echo < 256)

/-- Readings of sixteen cells in each line of an open-wire test (R95). -/
def RampIn.wf (r : RampIn) : Bool :=
  r.base.length == 16 && r.l1.length == 16 && r.l4.length == 16 && r.range.length == 16

/-- Where a LOAD command comes from, within its fields. -/
def CmdSrc.wf : CmdSrc → Bool
  | .entry seq => code16 seq
  | .ringWide f => f.wf

/-- An uncorrectable word's owner, within its fields. -/
def EccTarget.wf : EccTarget → Bool
  | .journal seq => code16 seq
  | .folio _ => true
  | .roster e => entryWf e
  | .other => true

/-- The codes of a nightcap check and its five sensor readings (R404). -/
def capWf (codes : List Nat) (readings : List Int) : Bool := codes.all code16 && readings.length == 5

/-- The cycles lost in a stroke stay within the totals of Table 07.1: 96 to CFE, 24 to SHD and FCOL, 1,180 to BIST, 2 for each read to the
command port. -/
def stallsWf (l : List Stall) : Bool :=
  decide ((l.map Stall.cfe).sum ≤ 96) && decide ((l.map Stall.shd).sum ≤ 24) && decide ((l.map Stall.bist).sum ≤ 1180)
    && l.all fun x => decide (x.port ≤ 2)

/-- The term spells a command. -/
def Instr.wellFormed : Instr → Bool
  | .coldStart _ b => b.wf
  | .dieReset _ b => b.wf
  | .folioReapply .. => true
  | .strokeEdge .. => true
  | .lineBoundary _ m => m.wf
  | .pageBoundary _ m => m.wf
  | .ringHeadChange .. => true
  | .cfeLatch _ chans => chans.length == 18
  | .shdConversion _ code spanCode testCode _ => code16 code && code16 spanCode && code16 testCode
  | .auxConversion _ codeA codeB _ => code16 codeA && code16 codeB
  | .bceStrokeProgram _ stalls => stallsWf stalls
  | .pgenStep .. => true
  | .eisCorrelate .. => true
  | .streamFrameAssemble .. => true
  | .nibRosterTransfer _ parity => parity.all fun x => entryWf x.1
  | .thmEvaluation _ readings _ => readings.length == 5
  | .thermalHoldSet .. => true
  | .cutTrip .. => true
  | .cutRelease .. => true
  | .bistSlice _ _ _ rowFails => rowFails.all rowFailWf
  | .pwrHandshakeStep .. => true
  | .fcolEvaluation .. => true
  | .ucIsolationLift .. => true
  | .resumeApply .. => true
  | .clockMonitorCheck .. => true
  | .watchdogExpiry .. => true
  | .coreException .. => true
  | .beaconReceived _ _ src _ _ _ _ _ => moduleWf src.smod
  | .timeStep .. => true
  | .countReplacement .. => true
  | .pllLocked .. => true
  | .pllUnlock .. => true
  | .beaconLossHoldover .. => true
  | .linkBeaconMissing .. => true
  | .beaconSend .. => true
  | .cmdFrameArrival _ f => f.wf
  | .journalMirrorReceived _ _ seq => code16 seq
  | .mirrorAckReceived _ seq => code16 seq
  | .commitRecordReceived _ _ seq => code16 seq
  | .commitAckReceived _ seq => code16 seq
  | .seqGapEvent .. => true
  | .dozeCommandWake .. => true
  | .transitFrameReceived _ _ f => f.wf
  | .frameInsertion .. => true
  | .blotFrameReceived _ smod seq _ blot => moduleWf smod && code16 seq && decide (blot.id < 256)
  | .ringBlotFire .. => true
  | .echoProbeReceived _ id => code16 id
  | .echoReplySend .. => true
  | .echoReplyReceived .. => true
  | .echoTimeout .. => true
  | .faultOrderReceived .. => true
  | .heartbeatReceived .. => true
  | .neighbourLost .. => true
  | .masterTakeover .. => true
  | .rosterUpdateReceived _ _ e => entryWf e
  | .moduleCommonWriteRelay _ _ seq => code16 seq
  | .broadcastWriteRelay _ _ seq => code16 seq
  | .portSignalLoss _ p => p.cut.all FrameIn.wf
  | .portSignalPresent .. => true
  | .portTrained .. => true
  | .portCodeViolations _ p => p.cut.all FrameIn.wf
  | .wakeBurstDetected .. => true
  | .wakePin .. => true
  | .wakeLineAsserted .. => true
  | .blotInEdge .. => true
  | .blotLineEdge .. => true
  | .snapshotLatch .. => true
  | .laneStart _ _ found => found.walks.all WalkIn.wf
  | .census _ _ found echoes => found.walks.all WalkIn.wf && echoes.all fun e => decide (e < 256)
  | .streamCycleStart .. => true
  | .nibWindowDecision _ _ slot _ => decide (slot < 256)
  | .laneShort .. => true
  | .dutyGovernorRelease .. => true
  | .selectionChange .. => true
  | .stopRampComplete .. => true
  | .peakLimit .. => true
  | .bleedOvercurrent .. => true
  | .openWireTestStart .. => true
  | .openWireSkipPage .. => true
  | .openWireCurrentOn .. => true
  | .openWireVerdict _ r => r.wf
  | .openWireAbandon .. => true
  | .stepStageEnd _ p0 p1 p2 p3 => [p0, p1, p2, p3].all fun p => p.on.length == 18 && p.off.length == 18
  | .allWireVerdict _ r => r.wf
  | .deviationClassify .. => true
  | .eisChannelGrant .. => true
  | .eisWindowOpen .. => true
  | .eisInjectionEnd .. => true
  | .eisNextBin .. => true
  | .eisWaitTimeout .. => true
  | .calPassStart .. => true
  | .calItemGrant .. => true
  | .calCandidate .. => true
  | .calItemVerdict .. => true
  | .currentSenseItem .. => true
  | .calPassEnd .. => true
  | .elementTestStart .. => true
  | .elementTestVerdict _ readings => readings.length == 8
  | .channelRepair _ c => decide (c < 18)
  | .imageCheck .. => true
  | .imageCheckComplete .. => true
  | .loadMissingSend .. => true
  | .loadResultSend .. => true
  | .firmwareRetransmit _ smod _ _ => moduleWf smod
  | .commandLoopReached .. => true
  | .folioSwitch .. => true
  | .entryDelayLimit .. => true
  | .ringReleaseTimeout .. => true
  | .sleepCommit .. => true
  | .entryAbandon .. => true
  | .domainRestart .. => true
  | .wakeFromSleep _ _ b => b.wf
  | .sleepTickSaturate .. => true
  | .nightcapCheck _ codes1 codes2 span1 span2 test1 test2 readings _ => capWf (codes1 ++ codes2 ++ [span1, span2, test1, test2]) readings
  | .nightcapRecheck _ codes1 codes2 span1 span2 test1 test2 readings _ => capWf (codes1 ++ codes2 ++ [span1, span2, test1, test2]) readings
  | .supplyDip .. => true
  | .supplyDipEnd .. => true
  | .supplyLoss .. => true
  | .lastgaspSend .. => true
  | .powerOnReset .. => true
  | .vstkOvervoltage .. => true
  | .perfLevelTransitionEnd .. => true
  | .ping _ f => f.wf
  | .read _ seq => code16 seq
  | .write _ seq => code16 seq
  | .enumerate _ f => f.wf
  | .streamSet _ seq => code16 seq
  | .fineSelect _ seq => code16 seq
  | .balManager _ seq => code16 seq
  | .balCharge _ seq => code16 seq
  | .balBleed _ seq => code16 seq
  | .balStop _ seq => code16 seq
  | .eisPlan _ seq => code16 seq
  | .eisStart _ seq => code16 seq
  | .eisResults _ seq => code16 seq
  | .ztModel _ seq => code16 seq
  | .nibRead _ seq => code16 seq
  | .nibAssoc _ seq => code16 seq
  | .nibAction _ seq => code16 seq
  | .nibLane _ seq => code16 seq
  | .ringRole _ seq => code16 seq
  | .ringStatus _ seq => code16 seq
  | .loadBegin _ src => src.wf
  | .loadData _ src => src.wf
  | .loadEnd _ src => src.wf
  | .loadStatus _ seq => code16 seq
  | .loadBoot _ src => src.wf
  | .folioWrite _ seq => code16 seq
  | .folioSeal _ seq => code16 seq
  | .folioStatus _ seq => code16 seq
  | .faultRead _ seq => code16 seq
  | .faultClear _ seq => code16 seq
  | .faultResume _ seq => code16 seq
  | .faultInject _ seq => code16 seq
  | .powerState _ seq => code16 seq
  | .perfLevel _ seq => code16 seq
  | .sleepAbortStatus _ seq => code16 seq
  | .selftestRun _ seq => code16 seq
  | .calRun _ seq => code16 seq
  | .check _ seq => code16 seq
  | .snapRead _ seq => code16 seq
  | .snapArm _ seq => code16 seq
  | .lcyStatus _ seq => code16 seq
  | .lcyChallenge _ seq => code16 seq
  | .lcyResponse _ seq => code16 seq
  | .lcyAdvance _ seq => code16 seq
  | .lifecycleTransitionDone .. => true
  | .owdSingleWireRequest _ wire _ _ => decide (wire < 17)
  | .owdAllWireRequest .. => true
  | .eisCmdGo _ sw plan cell passes => decide (sw < 3) && decide (plan < 4) && decide (cell < 16) && decide (passes < 256)
  | .eisCmdStop _ sw => decide (sw < 3)
  | .cxsQtgtWrite .. => true
  | .cxsEnWrite .. => true
  | .injGo .. => true
  | .injStop .. => true
  | .captureArm .. => true
  | .qlnRestart .. => true
  | .qlnCensus .. => true
  | .qlnStop .. => true
  | .rawReset .. => true
  | .rawWrite .. => true
  | .rawRead .. => true
  | .rawStep .. => true
  | .rawStream .. => true
  | .modNibEntryWrite _ e _ _ => entryWf e
  | .chkGo .. => true
  | .chkAbort .. => true
  | .chkRunDone _ ecc => ecc.all EccTarget.wf
  | .folDataWrite _ n _ => decide (n < 1024)
  | .folSealcrcWrite .. => true
  | .folModeselWrite .. => true
  | .holdclr .. => true
  | .sensorExclClear .. => true
  | .cutmaskWrite .. => true
  | .calGo .. => true
  | .calAbort .. => true
  | .fbclr .. => true
  | .fcolStkWrite .. => true
  | .resume .. => true
  | .evclr .. => true
  | .kick .. => true
  | .fcolInjWrite .. => true
  | .snapCtrlArm .. => true
  | .fire .. => true
  | .snapHdr0Read .. => true
  | .ulkStrokeLoRead .. => true
  | .pwrWake .. => true
  | .woclr .. => true
  | .padrel _ mask => decide (mask < 8)
  | .bistFuseGo .. => true
  | .fuseProgrammingDone .. => true
  | .bistAbort .. => true
  | .programSlot .. => true
  | .revokeSlot .. => true
  | .programServiceKey .. => true
  | .registerWrite _ addr _ => decide (addr < 2 ^ 32)
  | .vstkOvervoltageClear .. => true
  | .faultToneChange .. => true
  | .relayOutcomeReceived _ _ seq => code16 seq
  | .keyFuseProgrammingDone .. => true
  | .ramEccError _ _ _ target => target.wf

end Sys2Proof
end

