-- ==== Sys2Proof/Tests/Slice0.lean ====
section
/-! SUPPORT. Tests: ill-formed terms that WellFormed refuses, the worked examples of the spec, and for each statement that has
hypotheses a state and operands that meet all of them (the theorems `wit_`). -/
set_option Elab.async false

namespace Sys2Proof.Tests
open Sys2Proof.Machine

/-- A die that has started: every domain powered, MCLK running, the boot ROM done. -/
def dieUp : DieX :=
  { DieX.reset with
    pwr := { PwrX.reset with on := Vector.replicate 9 true, mclk := true, shdWarm := 16 }
    boot := { BootX.reset with done := true } }

/-- The module with eight started dies, its cores in the command loop, at ring address 5 in session 7. -/
def up : Chip :=
  { Chip.reset with
    dies := Vector.replicate 8 dieUp
    mod := ⟨false, [], false, false⟩
    regs := [] } |>.each allDies fun d s =>
      (((s.put d CMD_STAT CMD_STAT.FWSTATE 3).putB d CMD_STAT CMD_STAT.LOOP true).put d MOD_TOPOLOGY MOD_TOPOLOGY.ADDRESS 5).put d
        MOD_SESSION MOD_SESSION.SESSION 7

/-- A state of the started module after some changes, in order. -/
def mk (fs : List (Chip → Chip)) : State := ⟨fs.foldl (fun s f => f s) up, []⟩

/-- A field of a register of die 0 given a value. -/
def p (a : Nat) (f : Fld) (v : Nat) : Chip → Chip := fun s => s.put 0 a f v

/-- A register of die 0 given a word. -/
def w (a : Nat) (v : Word) : Chip → Chip := fun s => s.setReg 0 a v

/-- The hidden state of die 0 changed. -/
def x (f : DieX → DieX) : Chip → Chip := fun s => s.upd 0 f

/-- Die 0 at a stroke number. -/
def at_ (n : Nat) : Chip → Chip := x fun d => { d with time := { d.time with stroke := BitVec.ofNat 48 n } }

/-- The command answers a next state. -/
abbrev Runs (i : Instr) (s : State) : Prop := ∃ t, exec i s = .next t

theorem ran {i : Instr} {s : State} {P : State → Prop} (h : ∃ t, exec i s = .next t ∧ P t) : Runs i s := h.imp fun _ h => h.1

theorem iv {s : State} (h : storeWf s.chip.regs = true ∧ ∀ d : Die, (s.chip.die d).wf = true) : s.Inv := h

/-! ### Each check of WellFormed refuses an ill-formed term -/

def facts : BootFacts := ⟨true, true, 0, false, 0, 400, false, false, false, []⟩

def okFrame : FrameIn := ⟨2, false, false, false, 5, 0, 0, 0, 0, 0, 8, [], true, true, true⟩

theorem test_wf_straps : Instr.wellFormed (.coldStart 0 { facts with pos := 8 }) = false := by decide

theorem test_wf_reset_straps : Instr.wellFormed (.dieReset 0 { facts with cst := 16 }) = false := by decide

theorem test_wf_stalls :
    Instr.wellFormed (.bceStrokeProgram 0 [⟨97, 0, 0, 0⟩]) = false ∧ Instr.wellFormed (.bceStrokeProgram 0 [⟨0, 25, 0, 0⟩]) = false
      ∧ Instr.wellFormed (.bceStrokeProgram 0 [⟨0, 0, 1181, 0⟩]) = false ∧ Instr.wellFormed (.bceStrokeProgram 0 [⟨0, 0, 0, 3⟩]) = false
      ∧ Instr.wellFormed (.bceStrokeProgram 0 [⟨96, 24, 1180, 2⟩]) = true := by decide

theorem test_wf_blot_stroke :
    Instr.wellFormed (.pageBoundary 0 ⟨0, true, 0, 0, true, some (2 ^ 48, 1), false, false⟩) = false
      ∧ Instr.wellFormed (.pageBoundary 0 ⟨0, true, 0, 0, true, some (4, 256), false, false⟩) = false := by decide

theorem test_wf_cut_frame :
    Instr.wellFormed (.portSignalLoss 0 ⟨.a, (some { okFrame with ftype := 16 })⟩) = false
      ∧ Instr.wellFormed (.portCodeViolations 0 ⟨.a, (some { okFrame with dmod := 128 })⟩) = false := by decide

theorem test_wf_cell_straps : Instr.wellFormed (.wakeFromSleep 0 5 { facts with cst := 16 }) = false := by decide

theorem test_wf_boot_temperature : Instr.wellFormed (.coldStart 0 { facts with temp := 32768 }) = false := by decide

theorem test_wf_macro : Instr.wellFormed (.coldStart 0 { facts with rowFails := [(18, 0, none)] }) = false := by decide

theorem test_wf_row : Instr.wellFormed (.bistSlice 0 true 0 [(0, 64, none)]) = false := by decide

theorem test_wf_row_bit : Instr.wellFormed (.bistSlice 0 true 0 [(0, 0, some 39)]) = false := by decide

theorem test_wf_bleed_currents : Instr.wellFormed (.lineBoundary 0 ⟨List.replicate 15 0, 0, 0, 0⟩) = false := by decide

theorem test_wf_channels : Instr.wellFormed (.cfeLatch 0 []) = false := by decide

theorem test_wf_shadow_code : Instr.wellFormed (.shdConversion 0 65536 0 0 true) = false := by decide

theorem test_wf_shadow_span : Instr.wellFormed (.shdConversion 0 0 65536 0 true) = false := by decide

theorem test_wf_shadow_test : Instr.wellFormed (.shdConversion 0 0 0 65536 true) = false := by decide

theorem test_wf_aux_code : Instr.wellFormed (.auxConversion 0 0 65536 0) = false ∧ Instr.wellFormed (.auxConversion 0 65536 0 0) = false := by
  decide

theorem test_wf_roster_entry :
    Instr.wellFormed (.nibRosterTransfer 0 (some (3072, true))) = false ∧ Instr.wellFormed (.rosterUpdateReceived 0 1 3072) = false
      ∧ Instr.wellFormed (.modNibEntryWrite 0 3072 0 0) = false := by decide

theorem test_wf_sensor_readings : Instr.wellFormed (.thmEvaluation 0 [0, 0, 0, 0] 0) = false := by decide

theorem test_wf_beacon_module : Instr.wellFormed (.beaconReceived 0 .a ⟨128, 0⟩ false 0 0 0 0) = false := by decide

theorem test_wf_frame_type : Instr.wellFormed (.cmdFrameArrival 0 { okFrame with ftype := 16 }) = false := by decide

theorem test_wf_frame_modules :
    Instr.wellFormed (.transitFrameReceived 0 .a { okFrame with dmod := 128 }) = false
      ∧ Instr.wellFormed (.ping 0 { okFrame with smod := 128 }) = false := by decide

theorem test_wf_frame_dies :
    Instr.wellFormed (.enumerate 0 { okFrame with ddie := 8 }) = false ∧ Instr.wellFormed (.ping 0 { okFrame with sdie := 8 }) = false := by decide

theorem test_wf_frame_tag : Instr.wellFormed (.ping 0 { okFrame with tag := 64 }) = false := by decide

theorem test_wf_frame_seq : Instr.wellFormed (.ping 0 { okFrame with seq := 65536 }) = false := by decide

theorem test_wf_frame_length : Instr.wellFormed (.ping 0 { okFrame with len := 1024 }) = false := by decide

theorem test_wf_journal_seq :
    Instr.wellFormed (.read 0 65536) = false ∧ Instr.wellFormed (.commitAckReceived 0 65536) = false
      ∧ Instr.wellFormed (.journalMirrorReceived 0 1 65536) = false ∧ Instr.wellFormed (.relayOutcomeReceived 0 1 65536) = false := by decide

theorem test_wf_blot :
    Instr.wellFormed (.blotFrameReceived 0 128 0 0 ⟨.a, 0⟩) = false ∧ Instr.wellFormed (.blotFrameReceived 0 5 65536 0 ⟨.a, 0⟩) = false
      ∧ Instr.wellFormed (.blotFrameReceived 0 5 0 0 ⟨.b, 256⟩) = false := by decide

theorem test_wf_probe : Instr.wellFormed (.echoProbeReceived 0 65536) = false := by decide

theorem test_wf_walk :
    Instr.wellFormed (.laneStart 0 0 ⟨[⟨true, List.replicate 33 0, 0⟩], true, true⟩) = false ∧ Instr.wellFormed (.laneStart 0 0 ⟨[⟨true, [16], 0⟩], true, true⟩) = false
      ∧ Instr.wellFormed (.laneStart 0 0 ⟨[⟨true, [], 256⟩], true, true⟩) = false := by decide

theorem test_wf_census_echo : Instr.wellFormed (.census 0 0 ⟨[], true⟩ [256]) = false := by decide

theorem test_wf_window_slot : Instr.wellFormed (.nibWindowDecision 0 0 256 0) = false := by decide

theorem test_wf_ramp : Instr.wellFormed (.openWireVerdict 0 ⟨[], [], [], 0, 0, 0, []⟩) = false
    ∧ Instr.wellFormed (.allWireVerdict 0 ⟨[], [], [], 0, 0, 0, []⟩) = false := by decide

theorem test_wf_step_stage : Instr.wellFormed (.stepStageEnd 0 ⟨List.replicate 18 0, []⟩ ⟨[], []⟩ ⟨[], []⟩ ⟨[], []⟩) = false := by decide

theorem test_wf_element_readings : Instr.wellFormed (.elementTestVerdict 0 []) = false := by decide

theorem test_wf_channel : Instr.wellFormed (.channelRepair 0 18) = false := by decide

theorem test_wf_retransmit_module : Instr.wellFormed (.firmwareRetransmit 0 128 1 []) = false := by decide

theorem test_wf_nightcap :
    Instr.wellFormed (.nightcapCheck 0 [65536] [] 0 0 0 0 (List.replicate 5 0) ⟨false, 0⟩) = false
      ∧ Instr.wellFormed (.nightcapRecheck 0 [] [] 0 0 0 0 [] ⟨false, 0⟩) = false := by decide

theorem test_wf_load_source :
    Instr.wellFormed (.loadBegin 0 (.entry 65536)) = false ∧ Instr.wellFormed (.loadData 0 (.ringWide { okFrame with ftype := 16 })) = false := by decide

theorem test_wf_wire : Instr.wellFormed (.owdSingleWireRequest 0 17 false false) = false := by decide

theorem test_wf_sweep :
    Instr.wellFormed (.eisCmdGo 0 3 0 0 0) = false ∧ Instr.wellFormed (.eisCmdGo 0 0 4 0 0) = false
      ∧ Instr.wellFormed (.eisCmdGo 0 0 0 16 0) = false ∧ Instr.wellFormed (.eisCmdGo 0 0 0 0 256) = false
      ∧ Instr.wellFormed (.eisCmdStop 0 3) = false := by decide

theorem test_wf_folio_word : Instr.wellFormed (.folDataWrite 0 1024 0) = false := by decide

theorem test_wf_pads : Instr.wellFormed (.padrel 0 8) = false := by decide

theorem test_wf_address : Instr.wellFormed (.registerWrite 0 0x100000000 0) = false := by decide

theorem test_wf_ecc_target :
    Instr.wellFormed (.ramEccError 0 0 false (.journal 65536)) = false ∧ Instr.wellFormed (.ramEccError 0 0 false (.roster 3072)) = false
      ∧ Instr.wellFormed (.chkRunDone 0 (some (.roster 3072))) = false := by decide

/-! ### Worked examples of the spec -/

/-- Example 09.1: the header of a command. -/
theorem test_header_bytes_of_a_command :
    (Frame.header ⟨2, 0, 12, 5, 0, 0, 42, 0xA7, List.replicate 40 0, true, false⟩ false).map (·.toNat)
      = [0x02, 0x8C, 0x02, 0xA0, 0x9E, 0x02, 0xA0, 0, 0, 0, 0, 0] := by decide

/-- Example 09.2: CRC-32C of "123456789" and of no bytes. -/
theorem test_crc32c_of_digits :
    crc32c ((List.range 9).map fun i => BitVec.ofNat 8 (0x31 + i)) = 0xE3069283 ∧ crc32c [] = 0 := by decide +kernel

/-- Example 09.2: CRC-32C of 32 bytes of 0x00, and of 32 bytes of 0xFF. -/
theorem test_crc32c_of_constant_bytes :
    crc32c (List.replicate 32 0x00#8) = 0x8A9136AA ∧ crc32c (List.replicate 32 0xFF#8) = 0x62A8AB43 := by decide +kernel

/-- Example 08.1: the check byte of a stream frame, and the frame; a frame with one bit turned is refused. -/
theorem test_nib_frame_check :
    crc8nib [0xC0#8, 0x0C#8, 0x42#8, 0x50#8] = 0xB2 ∧ frameOk 0xB250420CC0 = true ∧ frameOk 0xB250420CC1 = false := by decide +kernel

/-- Example 02.1: the count after a sleep of 983,021,000 ticks, and its bound. -/
theorem test_count_rebuilt_after_sleep : Chip.rebuild 5000000000 0 983021000 0x03E8051F true = (5960000649, 288002) := by decide

/-- Example 13.1: the factory correction between two sets. -/
theorem test_factory_correction_interpolated :
    interpolate (fun k => [0, 0, 0, 96, 160].getD k 0) 4800 = 128
      ∧ interpolate (fun k => [0, 0, 0, -1200, -1040].getD k 0) 4800 = -1120 := by decide

/-- Example 13.1: the candidate of channel 5 from its two windows, and the item's register word. -/
theorem test_calibration_candidate :
    (mk [x fun d => { d with cal := { d.cal with fac := d.cal.fac.set 5 (128, -1120) } },
      w (CAL_CH 5) (BitVec.ofNat 32 (40 + 65536 * (65536 - 400)))]).chip.candidate 0 5 288 32003040 = (true, 328, -1088)
    ∧ ofSigned (-1088) 16 = 0xFBC0 := by decide +kernel

/-- Example 07.1: the law of a slot in its first stroke after release. -/
theorem test_slot_law :
    ((mk [w (BCE_B0 0) 0x1717, w (BCE_B1 0) 0xFC96, w (BCE_A1 0) 0x8000,
      x fun d => { d with eng := { d.eng with slots := d.eng.slots.set 0 ⟨[0, 0, 0], [4096, 0, 0], 0, 0⟩ } }]).chip.law 0 0 800).1 = 4240
    ∧ roundDiv 4240 8 = 530 := by decide +kernel

/-- Example 04.1: wiring, bleeds of cells 5 and 6, discharge of cell 8 by CX0, and the wires' resistances. -/
def harness : Chip :=
  (mk [p OWD_CONFIG OWD_CONFIG.WIRING 1, x fun d => { d with
      boot := { d.boot with locked := [OWD_CONFIG] }
      cxs := { d.cxs with begun := (d.cxs.begun.set 4 256).set 5 256 } },
    p CFE_CONFIG CFE_CONFIG.CELLS 16, p (CXS_BLEED 4) CXS_BLEED.ION 280, p (CXS_BLEED 5) CXS_BLEED.ION 190,
    p (CXS_SEL 0) CXS_SEL.CELL 7, p (OWD_RWIRE 4) OWD_RWIRE.RWIRE 1200,
    p (OWD_RWIRE 5) OWD_RWIRE.RWIRE 1500, p (OWD_RWIRE 6) OWD_RWIRE.RWIRE 1100, p (OWD_RWIRE 7) OWD_RWIRE.RWIRE 1400,
    p (OWD_RWIRE 8) OWD_RWIRE.RWIRE 1300, Chip.harnessEdge 0 [12000, 12000, 12000, 12000] []]).chip

/-- Example 04.1: the corrections of cells 4 to 9, in µV (a unit of the sum is 1/25,600 µV). -/
theorem test_shared_wire_corrections :
    [3, 4, 5, 6, 7, 8].map (fun c => roundDiv (harness.sharedCorr 0 3 c) 25600) = [-3360, 4710, 740, -23090, 40500, -19500] := by
  decide +kernel

/-- Example 06.1: the line's samples, the bands, and cell 9 held by CX0 in discharge. -/
def mgrExample : Chip :=
  (mk [at_ 400, p CFE_CONFIG CFE_CONFIG.CELLS 16, p CXS_MGR CXS_MGR.TSRC 2, p CXS_MGR CXS_MGR.CONV_EN 1, p CXS_MGR CXS_MGR.BLEED_EN 1,
    p CXS_MGR CXS_MGR.MAXBLEED 2, p CXS_MGR CXS_MGR.BLEED_DUTY 128, p CXS_TARGET CXS_TARGET.TARGET 3650000,
    p CXS_BAND CXS_BAND.BAND_HI 50, p CXS_BAND CXS_BAND.BAND_LO 20, p CXS_BAND CXS_BAND.SWAP 5,
    p (CXS_CFG 0) CXS_CFG.EN 1, p (CXS_CFG 1) CXS_CFG.EN 1, p (CXS_SEL 0) CXS_SEL.CELL 8, p (CXS_SEL 0) CXS_SEL.OWNER 1,
    x fun d => { d with
      cxs := { d.cxs with cand := d.cxs.cand.set 8 true }
      cfe := { d.cfe with lines := [(99, (List.range 18).map fun c =>
        ([(3, 3643100), (4, 3642800), (8, 3653500), (10, 3658600), (11, 3656400), (13, 3654200)].lookup c |>.getD (3650000 : Int), 0))] } }]).chip

/-- Example 06.1: cell 9 is released for cell 11, which CX1 takes in discharge; cell 12 alone bleeds. -/
theorem test_manager_line :
    let t := mgrExample.managerLine 0
    (t.bit 0 (CXS_SEL 0) CXS_SEL.RAMP, (t.chan 0 0).want, (t.chan 0 1).want) = (true, none, some (10, 1, 0))
      ∧ (t.die 0).cxs.mgr = (List.replicate 16 0).set 11 128
      ∧ (t.die 0).cxs.cand = [false, false, false, true, true, false, false, false, true, false, true, true, false, false, false, false] := by
  decide +kernel

/-! ### A state and operands for every clause of every statement that has hypotheses -/

theorem wit_StepRunsTheFrontCommand (h : Obligations.StepRunsTheFrontCommand) :
    step ⟨up, [.kick 0]⟩ = exec (.kick 0) ⟨up, []⟩ ∧ step ⟨up, []⟩ = .next ⟨up, []⟩ := ⟨h.1 _ [] ⟨up, [.kick 0]⟩ rfl, h.2 ⟨up, []⟩ rfl⟩

theorem wit_EveryStepKeepsStoresCanonical (h : Obligations.EveryStepKeepsStoresCanonical) :
    State.Inv ⟨(mk [x fun d => { d with fcol := { d.fcol with kickPages := 1 } }]).chip.upd 0 fun d => { d with fcol := { d.fcol with kickPages := 0 } }, []⟩ := by
  refine h ⟨(mk [x fun d => { d with fcol := { d.fcol with kickPages := 1 } }]).chip, [.kick 0]⟩ _ (iv ?_) rfl
  decide +kernel

theorem wit_KeyFuseMarksAreNeverCleared (h : Obligations.KeyFuseMarksAreNeverCleared) :
    (∀ t, step ⟨(mk [x fun d => { d with lcy := { d.lcy with prog := 3, revoked := 1 } }]).chip, [.kick 0]⟩ = .next t →
      (t.chip.die 0).lcy.prog.testBit 0 = true ∧ (t.chip.die 0).lcy.revoked.testBit 0 = true) := by
  intro t ht
  refine ⟨(h _ t 0 0 (iv ?_) ht).1 ?_, (h _ t 0 0 (iv ?_) ht).2 ?_⟩ <;> decide +kernel

/-- What the senses of die 0 read at a stroke edge: no current, VREG5 at 5 V. -/
def sen : Senses := ⟨0, 0, 0, 0, [], [], 2500⟩

/-- Effects and reactions that wait for the next stroke edge of die 0. -/
def dueAt (es : List Effect) (react : List Nat) (safe arm : Bool) : Chip → Chip := x fun d => { d with
  jnl := { d.jnl with due := es }, fcol := { d.fcol with react := react, safeDue := safe }, snap := { d.snap with armDue := arm } }

theorem wit_StrokeEdgeAdvancesTheStrokeNumber (h : Obligations.StrokeEdgeAdvancesTheStrokeNumber) :
    Runs (.strokeEdge 0 sen) (mk [at_ 0xFFFFFFFFFFFF])
      ∧ (∃ t, exec (.strokeEdge 0 sen) (mk [at_ 6, dueAt [.write (fullAddr 0 SHD_OV) 0xFFFF] [] false false]) = .next t
          ∧ t.chip.get 0 SHD_OV SHD_OV.CODE = 0xFFFF ∧ (t.chip.die 0).jnl.due = [])
      ∧ (∃ t, exec (.strokeEdge 0 sen) (mk [at_ 6, p SNAP_HDR0 SNAP_HDR0.HELD 1, dueAt [] [116, 145, 163] true true]) = .next t
          ∧ 145 ∈ (t.chip.die 0).fcol.isolated ∧ t.chip.bit 0 CXS_STATUS CXS_STATUS.SAFE = true
          ∧ t.chip.bit 0 SNAP_HDR0 SNAP_HDR0.HELD = false)
      ∧ (∃ t, exec (.strokeEdge 0 sen) (mk [at_ 6, p (INJ_STAT 1) INJ_STAT.RUNNING 1, p INJ_CAPCFG INJ_CAPCFG.TRIG 1,
            x fun d => { d with eng := { d.eng with held := [(BCE_B0 0, 7)], cap := { d.eng.cap with start := true }
                                                    gens := (d.eng.gens.set 1 { GenX.reset with stop := true }).set 3 { GenX.reset with go := true } } }])
            = .next t ∧ t.chip.bit 0 (INJ_STAT 1) INJ_STAT.RUNNING = false ∧ t.chip.bit 0 (INJ_STAT 3) INJ_STAT.RUNNING = true
          ∧ t.chip.now 0 (BCE_B0 0) = t.chip.reg 0 (BCE_B0 0) ∧ t.chip.reg 0 INJ_CAPSTAT = 1)
      ∧ (∃ t, exec (.strokeEdge 0 sen) (mk [at_ 6, x fun d => { d with cxs := { d.cxs with qPend := [(15, -5)] } }]) = .next t
          ∧ t.chip.get 0 (CXS_QTGT 15) CXS_QTGT.REMAIN = ofSigned (-5) 32)
      ∧ (∃ t, exec (.strokeEdge 0 sen) (mk [at_ 6, p (EIS_STATUS 2) EIS_STATUS.STATE 4,
            x fun d => { d with eis := { d.eis with sweeps := d.eis.sweeps.map fun y => { y with stopDue := true, running := true } } }]) = .next t
          ∧ t.chip.swState 0 2 = 0)
      ∧ exec (.lineBoundary 0 ⟨[], 0, 0, 0⟩) (mk [at_ 5]) = .next (mk [at_ 5])
      ∧ exec (.pageBoundary 0 ⟨0, true, 0, 0, true, none, false, false⟩) (mk [at_ 1028]) = .next (mk [at_ 1028]) := by
  refine ⟨ran ((h 0 _ (iv ?_) ?_).2.1 sen),
    ((h 0 _ (iv ?_) ?_).2.1 sen).imp fun t c => ⟨c.1, (c.2.2.2.2.1 0xFFFF ?_ ?_).1, (c.2.2.2.2.1 0xFFFF ?_ ?_).2 ?_⟩,
    ((h 0 _ (iv ?_) ?_).2.1 sen).imp fun t c => ⟨c.1, (c.2.2.2.2.2.2.2.1 ?_).1 145 ?_ ?_, (c.2.2.2.2.2.2.2.1 ?_).2.1 ?_, ((c.2.2.2.2.2.2.2.1 ?_).2.2 ?_).2.1⟩,
    ((h 0 _ (iv ?_) ?_).2.1 sen).imp fun t c => ⟨c.1, ((c.2.2.2.2.2.2.2.2.1 ?_ ?_).2.1 1 { GenX.reset with stop := true } ?_ ?_ ?_).1 ?_ |>.1,
      ((c.2.2.2.2.2.2.2.2.1 ?_ ?_).2.1 3 { GenX.reset with go := true } ?_ ?_ ?_).2 ?_ ?_, (c.2.2.2.2.2.2.2.2.1 ?_ ?_).1 _,
      ((c.2.2.2.2.2.2.2.2.1 ?_ ?_).2.2 ?_).2.trans ?_⟩,
    ((h 0 _ (iv ?_) ?_).2.1 sen).imp fun t c => ⟨c.1, (c.2.2.2.2.2.2.2.2.2.1 ?_ ?_).2 15 ?_ (-5) ?_⟩,
    ((h 0 _ (iv ?_) ?_).2.1 sen).imp fun t c => ⟨c.1, (c.2.2.2.2.2.2.2.2.2.2 ?_ ?_ 2 ?_ ?_ ?_).1⟩,
    (h 0 _ (iv ?_) ?_).2.2.2.2.1 ?_ _, (h 0 _ (iv ?_) ?_).2.2.2.2.2 ?_ _⟩
    <;> first | decide +kernel | (unfold Chip.noEffectDue; decide +kernel)

theorem wit_PllFollowsLockAndDueSteps (h : Obligations.PllFollowsLockAndDueSteps) :
    Runs (.pllLocked 0) (mk [x fun d => { d with time := { d.time with inRun := 64 } }])
      ∧ Runs (.pllUnlock 0) (mk [p ULK_PLLSTAT ULK_PLLSTAT.STATE 1, x fun d => { d with time := { d.time with outRun := 4 } }])
      ∧ Runs (.beaconLossHoldover 0) (mk [p ULK_PLLSTAT ULK_PLLSTAT.STATE 1, p ULK_PLLSTAT ULK_PLLSTAT.MISSED 4,
          x fun d => { d with time := { d.time with supervised := true } }])
      ∧ Runs (.timeStep 0) (mk [at_ 2, p ULK_PLLSTAT ULK_PLLSTAT.STATE 1, x fun d => { d with time := { d.time with stepBy := some (-6) } }])
      ∧ Runs (.countReplacement 0) (mk [at_ 3, x fun d => { d with time := { d.time with replaceBy := some 4097 } }]) := by
  refine ⟨ran ((h.1 0 _ (iv ?_) ?_).1 ?_ ?_ ?_), ran ((h.1 0 _ (iv ?_) ?_).2.1 ?_ ?_), ran ((h.1 0 _ (iv ?_) ?_).2.2 ?_ ?_ ?_),
    ran ((h.2 0 _ (-6) _ (iv ?_) ?_ rfl ?_).1 ?_ ?_), ran ((h.2 0 _ 4097 _ (iv ?_) ?_ rfl ?_).2 ?_ ?_)⟩ <;> decide +kernel

theorem wit_UsableBeaconBringsThePackCurrent (h : Obligations.UsableBeaconBringsThePackCurrent) :
    Runs (.beaconReceived 0 .a ⟨3, 2⟩ false 100 5 480000 0) (mk []) ∧ Runs (.beaconReceived 0 .b ⟨5, 7⟩ true 1 0xFFFFFF 7 (-20)) (mk [])
      ∧ Runs (.beaconReceived 0 .a ⟨3, 2⟩ false 100 5 480001 0) (mk []) := by
  refine ⟨ran (h 0 .a 3 2 false 100 5 480000 0 _ (iv ?_) ?_), ran (h 0 .b 5 7 true 1 0xFFFFFF 7 (-20) _ (iv ?_) ?_),
    ran (h 0 .a 3 2 false 100 5 480001 0 _ (iv ?_) ?_)⟩ <;> decide +kernel

theorem wit_TimeMasterAnnouncesTwoStrokesAhead (h : Obligations.TimeMasterAnnouncesTwoStrokesAhead) :
    Runs (.beaconSend 0) (mk [at_ 0xFFFFFFFFFFFF, p MOD_TOPOLOGY MOD_TOPOLOGY.HEAD 1, p CFE_AUXCFG CFE_AUXCFG.PACKI 1,
      x fun d => { d with cfe := { d.cfe with packNow := some (-5, 0xFFFFFFFFFFFE) } }]) := by
  refine ran (h 0 _ ?_ ?_ ?_ ?_) <;> decide +kernel

/-- The sample stamped one stroke before the master's own is in the payload of the beacon. -/
theorem test_beacon_brings_the_pack_current :
    ((((mk [at_ 100, p MOD_TOPOLOGY MOD_TOPOLOGY.HEAD 1, p CFE_AUXCFG CFE_AUXCFG.PACKI 1,
      x fun d => { d with cfe := { d.cfe with packNow := some (-5, 99) } }]).chip.beaconSend 0).die 0).ring.queue.map (·.payload))
    = [leBytes 6 102 ++ leBytes 3 0xFFFFFB ++ leBytes 3 0] := by
  decide +kernel

theorem wit_RingHeadChangesAtItsPage (h : Obligations.RingHeadChangesAtItsPage) :
    Runs (.ringHeadChange 0) (mk [at_ 3072, p MOD_RING_ROLE MOD_RING_ROLE.ARMED 1, p MOD_RING_ROLE MOD_RING_ROLE.HEAD 1,
          p MOD_RING_ROLE MOD_RING_ROLE.HEAD_PAGE 3]) := by
  refine ran (h 0 _ (iv ?_) ?_ ?_ ?_ ?_) <;> decide +kernel

/-- The receive port a of die 0 is UP. -/
def upA : Chip → Chip := p (ULK_PORT 0) ULK_PORT.STATE 3

/-- A frame of another module as it arrives, intact, with its TYPE and payload. -/
def inc (t : Nat) (pl : List Byte) : FrameIn := ⟨t, false, false, false, 0, 0, 3, 0, 0, 9, pl.length, pl, true, true, true⟩

theorem wit_PortsLinkFaultsAndStrokeLatch (h : Obligations.PortsLinkFaultsAndStrokeLatch) :
    Runs (.linkBeaconMissing 0 .a) (mk [upA,
        x fun d => { d with time := { d.time with supervised := true }, ring := { d.ring with missRunA := 4 } }])
      ∧ Runs (.ulkStrokeLoRead 0) (mk [at_ 0x123456789ABC])
      ∧ Runs (.portSignalLoss 0 ⟨.a, none⟩) (mk [upA]) ∧ Runs (.portCodeViolations 0 ⟨.a, (some (inc 5 []))⟩) (mk [upA])
      ∧ Runs (.portSignalLoss 0 ⟨.b, none⟩) (mk [p (ULK_PORT 1) ULK_PORT.STATE 2])
      ∧ Runs (.portSignalPresent 0 .b) (mk [p (ULK_PORT 1) ULK_PORT.STATE 1])
      ∧ Runs (.portTrained 0 .b) (mk [p (ULK_PORT 1) ULK_PORT.STATE 2, p (ULK_PORT 1) ULK_PORT.UPCNT 0xFFFF])
      ∧ Runs (.faultToneChange 0 true) (mk [x fun d => { d with pwr := { d.pwr with on := d.pwr.on.set 6 false } }]) := by
  refine ⟨ran (h.1.1 0 .a _ (iv ?_) ?_ ?_ ?_ ?_ ?_), ran (h.1.2 0 _ (iv ?_)), ran ((h.2 0 .a _ (iv ?_)).1 ?_ ?_ _ 1 _ (.inl ⟨rfl, rfl⟩)),
    ran ((h.2 0 .a _ (iv ?_)).1 ?_ ?_ _ 2 _ (.inr ⟨rfl, rfl⟩)), ran ((h.2 0 .b _ (iv ?_)).2.1 _ ?_ ?_), ran ((h.2 0 .b _ (iv ?_)).2.2.1 ?_ ?_),
    ran ((h.2 0 .b _ (iv ?_)).2.2.2.1 ?_ ?_), ran ((h.2 0 .a _ (iv ?_)).2.2.2.2 true ?_ ?_)⟩ <;> decide +kernel

/-- A frame of the die's own that waits for insertion, on ring A and, where asked, on ring B. -/
def own (t : Nat) (b : Bool) : Frame := ⟨t, 0, 0, 0, 0, 0, 0, 9, [1, 2], true, b⟩

theorem wit_FrameInsertionSendsHeldThenRankedFrames (h : Obligations.FrameInsertionSendsHeldThenRankedFrames) :
    Runs (.frameInsertion 0) (mk [x fun d => { d with ring := { d.ring with heldUp := [(own 4 false, true), (own 3 true, false)], queue := [own 5 true] } }])
      ∧ Runs (.frameInsertion 0) (mk [x fun d => { d with ring := { d.ring with queue := [own 4 true, own 5 true, own 3 true] } }])
      ∧ Runs (.frameInsertion 0) (mk []) := by
  refine ⟨ran ((h 0 _ (iv ?_) ?_ ?_ ?_).1 .a _ _ rfl), ran ((h 0 _ (iv ?_) ?_ ?_ ?_).2 ?_ ?_ _ rfl), ran ((h 0 _ (iv ?_) ?_ ?_ ?_).2 ?_ ?_ _ rfl)⟩
    <;> decide +kernel

theorem wit_TransitFramesPassOnOrAreCounted (h : Obligations.TransitFramesPassOnOrAreCounted) :
    Runs (.transitFrameReceived 1 .a (inc 5 (List.replicate 16 0))) (mk [fun s => s.put 1 (ULK_PORT 0) ULK_PORT.STATE 3])
      ∧ Runs (.transitFrameReceived 1 .a { inc 5 [] with endT := false })
        (mk [fun s => s.put 1 (ULK_PORT 0) ULK_PORT.STATE 3, fun s => s.put 1 (ULK_ERR 0) ULK_ERR.STOMP 255])
      ∧ Runs (.transitFrameReceived 1 .b { inc 5 [] with crcOk := false }) (mk [fun s => s.put 1 (ULK_PORT 1) ULK_PORT.STATE 3])
      ∧ Runs (.transitFrameReceived 1 .a { inc 5 [] with codeOk := false })
        (mk [fun s => (s.put 1 (ULK_PORT 0) ULK_PORT.STATE 3).upd 1 fun d => { d with ring := { d.ring with busyUp := true } }])
      ∧ (let s := mk [fun s => (s.put 1 (ULK_PORT 0) ULK_PORT.STATE 3).put 1 (ULK_PORT 1) ULK_PORT.OUTDOWN 1]
         s.chip.staysAtExit 1 .a (inc 15 []) = false ∧ Runs (.transitFrameReceived 1 .a (inc 15 [])) s)
      ∧ (let f := { inc 5 [] with len := 3 }
         let s := mk [fun s => (s.put 7 (ULK_PORT 0) ULK_PORT.STATE 3)]
         s.chip.staysAtExit 7 .a f = false ∧ s.chip.frameValid 7 0 f = false ∧ Runs (.transitFrameReceived 7 .a f) s) := by
  refine ⟨ran (h 1 .a _ 0 _ (iv ?_) ?_ ?_ ?_), ran (h 1 .a _ 0 _ (iv ?_) ?_ ?_ ?_), ran (h 1 .b _ 1 _ (iv ?_) ?_ ?_ ?_),
    ran (h 1 .a _ 0 _ (iv ?_) ?_ ?_ ?_), ⟨?_, ran (h 1 .a _ 0 _ (iv ?_) ?_ ?_ ?_)⟩, ?_, ?_, ran (h 7 .a _ 0 _ (iv ?_) ?_ ?_ ?_)⟩
    <;> decide +kernel

theorem wit_RingBlotIsScheduledAndFires (h : Obligations.RingBlotIsScheduledAndFires) :
    Runs (.blotFrameReceived 0 3 1 0 ⟨.a, 255⟩) (mk [at_ 9, p MOD_SNAP_CFG MOD_SNAP_CFG.RING_EN 1])
      ∧ Runs (.blotFrameReceived 0 3 1 11 ⟨.b, 1⟩) (mk [at_ 9, p MOD_SNAP_CFG MOD_SNAP_CFG.RING_EN 1])
      ∧ Runs (.blotFrameReceived 0 3 1 10 ⟨.a, 1⟩) (mk [at_ 9, p MOD_SNAP_CFG MOD_SNAP_CFG.RING_EN 1])
      ∧ Runs (.blotFrameReceived 0 3 1 11 ⟨.b, 1⟩) (mk [at_ 9, p FCOL_INJ FCOL_INJ.ARMED 2, p FCOL_INJ FCOL_INJ.REMAIN 1])
      ∧ Runs (.ringBlotFire 0) (mk [at_ 40, p ULK_BLOT ULK_BLOT.PENDING 1, p ULK_BLOT ULK_BLOT.ID 77,
          x fun d => { d with ring := { d.ring with blotAt := 40 } }]) := by
  refine ⟨ran ((((h 0 _ (iv ?_)).1 3 1 0 .a 255 ?_).1 ?_ ?_ ?_).2 ?_), ran ((((h 0 _ (iv ?_)).1 3 1 11 .b 1 ?_).1 ?_ ?_ ?_).1 ?_ ?_),
    ran ((((h 0 _ (iv ?_)).1 3 1 10 .a 1 ?_).1 ?_ ?_ ?_).2 ?_), ran (((h 0 _ (iv ?_)).1 3 1 11 .b 1 ?_).2 ?_),
    ran ((h 0 _ (iv ?_)).2 ?_ ?_ ?_)⟩ <;> decide +kernel

theorem wit_EchoMeasuresTheCableHop (h : Obligations.EchoMeasuresTheCableHop) :
    Runs (.echoProbeReceived 0 3) (mk []) ∧ Runs (.echoReplySend 0 70000) (mk [x fun d => { d with ring := { d.ring with replyDue := some 3 } }])
      ∧ Runs (.echoReplyReceived 0 9000 100) (mk [x fun d => { d with ring := { d.ring with probeOut := true } }])
      ∧ Runs (.echoTimeout 0) (mk [x fun d => { d with ring := { d.ring with probeOut := true } }]) := by
  refine ⟨ran ((h 0 _ (iv ?_) ?_).1 3 ?_), ran ((h 0 _ (iv ?_) ?_).2.1 _ ?_), ran (((h 0 _ (iv ?_) ?_).2.2 ?_).1 _ _),
    ran (((h 0 _ (iv ?_) ?_).2.2 ?_).2)⟩ <;> decide +kernel

/-- The cxs work of die 0. -/
def cxs (f : CxsX → CxsX) : Chip → Chip := x fun d => { d with cxs := f d.cxs }

/-- Nothing remarkable in a page. -/
def calm : PageMeas := ⟨0, true, 0, 0, true, none, false, false⟩

theorem wit_LineAndPageBoundariesLatchTheirMeasures (h : Obligations.LineAndPageBoundariesLatchTheirMeasures) :
    (∃ t, exec (.lineBoundary 0 ⟨List.replicate 16 600, 0, 20000, 2500⟩) (mk [at_ 4, cxs fun c => { c with begun := List.replicate 16 2 }]) = .next t
        ∧ t.chip.get 0 PWR_DIP PWR_DIP.LIVE = 0 ∧ t.chip.get 0 (CXS_BLEED 15) CXS_BLEED.ION = 511)
      ∧ (∃ t, exec (.pageBoundary 0 calm) (mk [at_ 2048, p BCE_CYCLES BCE_CYCLES.PEAK 9, p MOD_TOPOLOGY MOD_TOPOLOGY.HEAD 1,
            p CFE_CONFIG CFE_CONFIG.CELLS 8, p ULK_STROKE_HI ULK_STROKE_HI.VALID 1,
            x fun d => { d with cfe := { d.cfe with streamNow := CFE_STREAMCFG.PAGE_EN.write 0 1 }
                                ring := { d.ring with heard := [3, 126], faulted := [126] } }]) = .next t
          ∧ t.chip.get 0 BCE_CYCLES BCE_CYCLES.PEAK = 0 ∧ (∃ f ∈ (t.chip.die 0).ring.queue, f.ftype = 5) ∧ (∃ f ∈ (t.chip.die 0).ring.queue, f.ftype = 4)
          ∧ (t.chip.die 0).fcol.windows.length = 13) := by
  refine ⟨((h 0 _ (iv ?_) ?_).1 ⟨List.replicate 16 600, 0, 20000, 2500⟩ ?_).imp fun t c => ⟨c.1, c.2.2.2.2.1 ?_, (c.2.2.2.2.2.2 ?_ 15 ?_ ?_).trans ?_⟩,
    ((h 0 _ (iv ?_) ?_).2 calm ?_).imp fun t c => ⟨c.1, c.2.2.1, (c.2.2.2.2.2.2.2.1 ?_ ?_ ?_ ?_ ?_).imp fun f g => ⟨g.1, g.2.1⟩,
      (c.2.2.2.2.2.2.2.2 ?_ ?_ ?_ ?_ ?_).imp fun f g => ⟨g.1, g.2.1⟩, (congrArg List.length (c.2.2.2.2.2.1 ?_)).trans ?_⟩⟩ <;> decide +kernel

theorem wit_VerticalLinkCarriesNeighboursAndRoster (h : Obligations.VerticalLinkCarriesNeighboursAndRoster) :
    Runs (.heartbeatReceived 0 1) (mk [x fun d => { d with ring := { d.ring with hbAbove := 5 } }, fun s => s.put 1 FCOL_STATE FCOL_STATE.STATE 2])
      ∧ Runs (.heartbeatReceived 2 1) (mk [fun s => s.put 2 MOD_TOPOLOGY MOD_TOPOLOGY.ALIVE 0xFD])
      ∧ Runs (.rosterUpdateReceived 0 1 384) (mk [fun s => (s.setReg 1 (MOD_NIB_VALUE 384) 0x1234).upd 1 fun d =>
          { d with nib := { d.nib with sent := [(384, 5)] } }]) := by
  refine ⟨ran (h.1 0 1 _ (iv ?_) ?_ ?_ ?_), ran (h.1 2 1 _ (iv ?_) ?_ ?_ ?_), ran (h.2 0 1 384 _ (iv ?_) ?_ ?_ ?_ ?_ ?_ ?_)⟩ <;> decide +kernel

theorem wit_LossTakeoverAndFaultOrdersOfTheModule (h : Obligations.LossTakeoverAndFaultOrdersOfTheModule) :
    Runs (.neighbourLost 3 4) (mk [fun s => s.upd 3 fun d => { d with ring := { d.ring with hbAbove := 8 } }])
      ∧ Runs (.masterTakeover 1) (mk [fun s => s.put 1 MOD_TOPOLOGY MOD_TOPOLOGY.ALIVE 0xFE])
      ∧ Runs (.faultOrderReceived 0 5 true) (mk []) ∧ Runs (.faultOrderReceived 0 5 false) (mk []) := by
  refine ⟨ran (h.1 3 4 _ (iv ?_) ?_ ?_ ?_ ?_ ?_), ran (h.2.1 1 _ (iv ?_) ?_ ?_ ?_), ran (h.2.2 5 _ ?_).1, ran (h.2.2 5 _ ?_).2⟩
    <;> decide +kernel

/-- The packet of a command of session 7 (R268). -/
def pkt (op : Nat) (q : List Byte) : List Byte := leBytes 2 op ++ leBytes 2 7 ++ leBytes 4 0 ++ q

/-- A mirrored entry of the journal in a state. -/
def ent (seq op : Nat) (q : List Byte) (e : EntryState) : Entry :=
  ⟨7, seq, 1, 0, pkt op q, e, true, 0, 0, [], false, [], false, 0, 0, false, true, none, 0⟩

/-- Die 0 holds the entries. -/
def jnl (es : List Entry) : Chip → Chip := x fun d => { d with jnl := { d.jnl with entries := es } }

/-- A released write of a module-common register, with its effects, and a broadcast write. -/
def common : Entry := { ent 9 0x50 (leBytes 4 1) .committed with relay := true, released := true, effects := [.write (fullAddr 0 MOD_RING_ROLE) 1] }
def bcast : Entry := { ent 9 3 (leBytes 4 0xE0120000 ++ leBytes 4 1 ++ leBytes 4 5) .committed with relay := true, released := true }

/-- A die keeps the mirror of an entry of another. -/
def kept (g src : Die) (e : Entry) : Chip → Chip := fun s => s.upd g fun d => { d with jnl := { d.jnl with mirrors := [(src, e)] } }

theorem wit_RelayedWritesReachEveryDieOnce (h : Obligations.RelayedWritesReachEveryDieOnce) :
    Runs (.broadcastWriteRelay 1 0 9) (mk [jnl [bcast], kept 1 0 bcast])
      ∧ Runs (.moduleCommonWriteRelay 1 0 9) (mk [jnl [{ common with seenMask := 1 }], kept 1 0 { common with seenMask := 1 }])
      ∧ exec (.moduleCommonWriteRelay 2 3 9) (mk [fun s => s.upd 3 fun d => { d with jnl := { d.jnl with entries := [common] } }, kept 4 3 common])
        = .next (mk [fun s => s.upd 3 fun d => { d with jnl := { d.jnl with entries := [common] } }, kept 4 3 common])
      ∧ Runs (.relayOutcomeReceived 0 3 9) (mk [jnl [bcast], fun s => s.upd 3 fun d => { d with jnl := { d.jnl with outcomes := [(0, 9, 0x10, 20)] } }])
      ∧ Runs (.relayOutcomeReceived 3 0 9) (mk [x fun d => { d with jnl := { d.jnl with outcomes := [(3, 9, 0, 0)] } },
          fun s => s.upd 3 fun d => { d with jnl := { d.jnl with entries := [common] } }]) := by
  refine ⟨ran ((h.1 1 0 9 bcast _ ?_ ?_ ?_ ?_ ?_ ?_ _ (.inl ⟨rfl, ?_⟩)).1 ?_),
    ran ((h.1 1 0 9 { common with seenMask := 1 } _ ?_ ?_ ?_ ?_ ?_ ?_ _ (.inr ⟨rfl, ?_⟩)).1 ?_),
    (h.1 2 3 9 common _ ?_ ?_ ?_ ?_ ?_ ?_ _ (.inr ⟨rfl, ?_⟩)).2 ?_ ?_ ?_,
    ran (h.2 0 3 5 9 0x10 20 bcast _ _ ?_ ?_ ?_ ?_ ?_ rfl ?_ ?_), ran (h.2 3 0 5 9 0 0 common _ _ ?_ ?_ ?_ ?_ ?_ rfl ?_ ?_)⟩ <;> decide +kernel

/-- Reports wait in die 0. -/
def rep (ns : List Nat) : Chip → Chip := x fun d => { d with fcol := { d.fcol with reports := ns } }

theorem wit_EvaluationTakesReportsAndReachesSafe (h : Obligations.EvaluationTakesReportsAndReachesSafe) :
    Runs (.fcolEvaluation 0 true true) (mk [rep [163, 5, 160, 5]]) ∧ srcClass 163 = .fatal := by
  refine ⟨ran (h 0 true true _ (iv ?_) ?_ ?_ ?_), ?_⟩ <;> decide +kernel

theorem wit_CollectorActionsAndResume (h : Obligations.CollectorActionsAndResume) :
    Runs (.fcolStkWrite 0 7 0xFF) (mk [w (FCOL_STK 7) 0xF0F]) ∧ Runs (.evclr 0) (mk [w (FCOL_EVCNT 3) 7, w (FCOL_EVCNT 63) 1])
      ∧ Runs (.kick 0) (mk [x fun d => { d with fcol := { d.fcol with kickPages := 1 } }])
      ∧ Runs (.fcolInjWrite 0 (FCOL_INJ.CHECKER.write (FCOL_INJ.COUNT.write 0 2) 13)) (mk [])
      ∧ Runs (.fcolInjWrite 0 0) (mk [w FCOL_INJ 0xFFFFFFFF])
      ∧ Runs (.ucIsolationLift 0) (mk [at_ 4, w (FCOL_STK 3) 2, x fun d => { d with fcol := { d.fcol with isolated := [96, 97, 116] } }])
      ∧ Runs (.resume 0) (mk [p FCOL_STATE FCOL_STATE.STATE 2])
      ∧ Runs (.resumeApply 0) (mk [at_ 8, p FCOL_STATE FCOL_STATE.STATE 2, p CXS_STATUS CXS_STATUS.SAFE 1,
          x fun d => { d with fcol := { d.fcol with resume := true } }]) := by
  refine ⟨ran ((h.1 0 _ (iv ?_)).1 7 _ ?_), ran ((h.1 0 _ (iv ?_)).2.1 ?_), ran (h.1 0 _ (iv ?_)).2.2.1,
    ran ((h.1 0 _ (iv ?_)).2.2.2 _ ?_ ?_), ran ((h.1 0 _ (iv ?_)).2.2.2 _ ?_ ?_), ran ((h.2 0 _ (iv ?_)).1 ?_ ?_),
    ran ((h.2 0 _ (iv ?_)).2.1 ?_ ?_ ?_), ran ((h.2 0 _ (iv ?_)).2.2 ?_ ?_ ?_ ?_)⟩ <;> decide +kernel

theorem wit_ClockCoreAndRamChecksReport (h : Obligations.ClockCoreAndRamChecksReport) :
    Runs (.clockMonitorCheck 0 62399 false) (mk [x fun d => { d with fcol := { d.fcol with clkBad := 1 } }])
      ∧ Runs (.watchdogExpiry 0) (mk [p FCOL_CFG FCOL_CFG.RESTART 0, jnl [ent 0 2 [] .accepted],
        x fun d => { d with fcol := { d.fcol with kickPages := 2 } }])
      ∧ Runs (.coreException 0) (mk [p FCOL_CFG FCOL_CFG.RESTART 0])
      ∧ Runs (.ramEccError 0 0 true .other) (mk []) ∧ Runs (.ramEccError 0 1 false .other) (mk [])
      ∧ Runs (.ramEccError 0 2 false (.folio true)) (mk [p FOL_STAT FOL_STAT.BVALID 1])
      ∧ Runs (.ramEccError 0 2 false (.folio false)) (mk [p FOL_STAT FOL_STAT.AVALID 1, p FOL_STAT FOL_STAT.PENDING 1]) := by
  refine ⟨ran ((h 0 _ (iv ?_)).1 _ _ ?_ ?_ ?_ ?_), ran ((h 0 _ (iv ?_)).2.1 _ (.inl ⟨rfl, ?_⟩) ?_ ?_ ?_ ?_),
    ran ((h 0 _ (iv ?_)).2.1 _ (.inr rfl) ?_ ?_ ?_ ?_), ran ((h 0 _ (iv ?_)).2.2 _ _ _ ?_ ?_ ?_ ?_), ran ((h 0 _ (iv ?_)).2.2 _ _ _ ?_ ?_ ?_ ?_),
    ran ((h 0 _ (iv ?_)).2.2 _ _ _ ?_ ?_ ?_ ?_), ran ((h 0 _ (iv ?_)).2.2 _ _ _ ?_ ?_ ?_ ?_)⟩ <;> decide +kernel

/-- A ring-wide command frame (R274). -/
def rw (op : Nat) (q : List Byte) : FrameIn :=
  ⟨2, false, false, false, 127, 0, 0, 0, 0, 4, (pkt op q).length, pkt op q, true, true, true⟩

theorem wit_FirmwareLoadTakesItsBlocks (h : Obligations.FirmwareLoadTakesItsBlocks) :
    Runs (.loadBegin 0 (.ringWide (rw 0x60 (leBytes 4 600 ++ leBytes 4 0x1234 ++ leBytes 2 2 ++ leBytes 2 9)))) (mk [])
      ∧ Runs (.loadData 0 (.ringWide (rw 0x61 (leBytes 2 9 ++ leBytes 2 1 ++ leBytes 2 104 ++ [0, 0] ++ List.replicate 104 7))))
        (mk [p BOOT_LOAD BOOT_LOAD.LOADID 9, p BOOT_LOAD BOOT_LOAD.STATE 1, p BOOT_IMAGE BOOT_IMAGE.LENGTH 600,
          x fun d => { d with boot := { d.boot with nblocks := 2 } }])
      ∧ Runs (.loadEnd 0 (.ringWide (rw 0x62 (leBytes 2 9 ++ [0, 0]))))
        (mk [p BOOT_LOAD BOOT_LOAD.LOADID 9, p BOOT_LOAD BOOT_LOAD.STATE 1, p BOOT_LOAD BOOT_LOAD.BLOCKS 2,
          x fun d => { d with boot := { d.boot with nblocks := 2, blocks := [1, 0] } }]) := by
  refine ⟨ran ((h 0 _ _ _ (iv ?_) rfl).1 ?_ ?_ ?_ ?_ ?_), ran ((h 0 _ _ _ (iv ?_) rfl).2.1 ?_ ?_ ?_ ?_ ?_),
    ran ((h 0 _ _ _ (iv ?_) rfl).2.2 ?_ ?_ ?_ ?_ ?_ ?_)⟩ <;> first | decide +kernel | refine ⟨?_, ?_, ?_, ?_, ?_, ?_, ?_, ?_, ?_, ?_⟩ <;> decide +kernel

theorem wit_ImageStartAndLoadReports (h : Obligations.ImageStartAndLoadReports) :
    Runs (.imageCheck 0) (mk [p BOOT_LOAD BOOT_LOAD.STATE 2])
      ∧ Runs (.imageCheckComplete 0) (mk [p BOOT_LOAD BOOT_LOAD.STATE 2, p BOOT_IMAGE BOOT_IMAGE.LENGTH 256,
          x fun d => { d with boot := { d.boot with checking := true } }])
      ∧ Runs (.loadBoot 0 (.ringWide (rw 0x64 (leBytes 2 9 ++ [0, 0])))) (mk [p BOOT_LOAD BOOT_LOAD.LOADID 9, p BOOT_LOAD BOOT_LOAD.STATE 3,
          p CMD_STAT CMD_STAT.FWSTATE 2])
      ∧ Runs (.commandLoopReached 0) (mk [p CMD_STAT CMD_STAT.LOOP 0])
      ∧ Runs (.loadMissingSend 0) (mk [p BOOT_LOAD BOOT_LOAD.LOADID 9, p BOOT_LOAD BOOT_LOAD.STATE 1, p BOOT_LOAD BOOT_LOAD.ENDSEEN 1,
          x fun d => { d with boot := { d.boot with nblocks := 2, blocks := [1], missPages := 4 } }])
      ∧ Runs (.loadResultSend 0) (mk [fun s => s.each allDies fun d s => (s.put d BOOT_LOAD BOOT_LOAD.LOADID 9).put d BOOT_LOAD BOOT_LOAD.STATE 3])
      ∧ Runs (.firmwareRetransmit 0 3 9 [1, 5]) (mk [p MOD_TOPOLOGY MOD_TOPOLOGY.HEAD 1, p ULK_CFG ULK_CFG.SNOOP 1, p BOOT_LOAD BOOT_LOAD.LOADID 9,
          p BOOT_LOAD BOOT_LOAD.STATE 3, x fun d => { d with ring := { d.ring with missing := [⟨3, 0, 1, 9, 1, 1, 0, false⟩] } }, p BOOT_IMAGE BOOT_IMAGE.LENGTH 600,
          x fun d => { d with boot := { d.boot with nblocks := 2, blocks := [1, 0], retxId := 9, retxCount := 7 } }]) := by
  refine ⟨ran ((h.1 0 _ (iv ?_)).1 ?_ ?_ ?_), ran ((h.1 0 _ (iv ?_)).2.1 ?_ ?_), ran ((h.1 0 _ (iv ?_)).2.2.1 _ ?_ ?_ ?_ ?_ ?_),
    ran ((h.1 0 _ (iv ?_)).2.2.2 ?_ ?_), ran ((h.2 0 _ ?_).1 ?_ ?_ ?_ ?_ ?_), ran ((h.2 0 _ ?_).2.1 ?_ ?_ ?_ ?_ ?_),
    ran ((h.2 0 _ ?_).2.2 3 9 [1, 5] [1] ?_ ?_ ?_ ?_ ?_ ?_ ?_ ?_ ?_)⟩
    <;> first | decide +kernel | refine ⟨?_, ?_, ?_, ?_, ?_, ?_, ?_, ?_, ?_, ?_⟩ <;> decide +kernel

/-- Sixteen cells at rest, but for a shared-wire correction of cell 6 that has just ended. -/
def latching : State := mk [at_ 5, p CFE_CONFIG CFE_CONFIG.CELLS 16, x fun d => { d with cfe := { d.cfe with corrNow := [0, 0, 0, 0, 0, 700] } }]

theorem wit_LatchTakesTheChannelsSamples (h : Obligations.LatchTakesTheChannelsSamples) :
    Runs (.cfeLatch 0 ((List.range 18).map fun (c : Nat) => ⟨3700000 + (c : Nat), 3600000 - (c : Nat), 9000000⟩)) (mk [at_ 4])
      ∧ Runs (.cfeLatch 0 ((List.range 18).map fun (c : Nat) => ⟨-400000 + (c : Nat), 9000000, 0⟩)) latching := by
  refine ⟨ran (h 0 _ _ (iv ?_) ?_ ?_), ran (h 0 _ _ (iv ?_) ?_ ?_)⟩ <;> decide +kernel

/-- What O24 asks of a channel on which nothing but its own stage acts holds of cell 2 of that state, and not of cell 5, whose correction
changed in the last stroke. -/
theorem test_latch_of_a_settled_channel :
    let s := latching.chip
    (s.fullCal 0, s.cellInvalid 0 2, s.shadowed 0 2, s.spareServes 0 2, s.correction 0 2) = (false, false, false, false, (0, 0))
      ∧ (s.ageChannels 0).stageCorr 0 2 0 (s.die 0).cfe.fineNow = 0 ∧ ((s.ageChannels 0).die 0).cfe.corrAge.getD 5 4095 = 0 := by
  decide +kernel

/-- The stroke's FINE stream settings of die 0: enabled, LINE off; the FINE selection holds cells 0 and 5. -/
def fineOn (g : Option OpenFrame) : Chip → Chip := fun s => (s.put 0 CFE_CONFIG CFE_CONFIG.CELLS 16).upd 0 fun d =>
  { d with cfe := { d.cfe with streamNow := CFE_STREAMCFG.FINE_EN.write 0 1, selNow := [0x21, 0, 0, 0], fineRec := true, fineOpen := g } }

/-- The stroke's LINE stream settings of die 0: every second line, with the span, on both rings. -/
def lineWord : Word := CFE_STREAMCFG.LINE_EN.write (CFE_STREAMCFG.LINE_DIV.write (CFE_STREAMCFG.LINE_SPAN.write (CFE_STREAMCFG.LINE_RING.write 0 0) 1) 1) 1

/-- Die 0 with eight cells has a LINE record to add to an open frame. -/
def lineOn (g : Option OpenFrame) : Chip → Chip := fun s =>
  ((s.put 0 CFE_CONFIG CFE_CONFIG.CELLS 8).put 0 ULK_STROKE_HI ULK_STROKE_HI.VALID 1).upd 0 fun d =>
    { d with cfe := { d.cfe with streamNow := lineWord, lineRec := true, lineOpen := g } }

/-- The LINE frame that the first record opened. -/
def lineFrame : OpenFrame := ⟨9, 17, 0xFF, 1, ringCode (CFE_STREAMCFG.LINE_RING.read lineWord), []⟩

/-- Die 0 has slept for 90 strokes before stroke 100, with LINE and PAGE frames on. -/
def sleptTo : Chip → Chip := fun s => (s.put 0 ULK_STROKE_HI ULK_STROKE_HI.VALID 1).upd 0 fun d =>
  { d with time := { d.time with gapFrom := 10, gapMask := 6 } }

theorem wit_ShadowAuxAndFineRecords (h : Obligations.ShadowAuxAndFineRecords) :
    Runs (.shdConversion 0 60000 1000 0 true) (mk [at_ 16, p CFE_CONFIG CFE_CONFIG.CELLS 16, w SHD_OV 50000,
        x fun d => { d with shd := { d.shd with ovRun := [1] } }])
      ∧ Runs (.shdConversion 0 100 1000 0 true) (mk [at_ 21, p CFE_CONFIG CFE_CONFIG.CELLS 16, w SHD_UV 20000,
        x fun d => { d with shd := { d.shd with uvRun := [0, 0, 0, 0, 0, 1] } }])
      ∧ Runs (.auxConversion 1 100 60000 0) (mk [])
      ∧ Runs (.auxConversion 0 100 60000 0) (mk [at_ 3, p CFE_AUXCFG CFE_AUXCFG.PACKI 0])
      ∧ Runs (.auxConversion 0 0 0 (-32768)) (mk [at_ 8, p CFE_AUXCFG CFE_AUXCFG.PACKI 1])
      ∧ Runs (.streamFrameAssemble 0) (mk [at_ 15, fineOn (some ⟨9, 1, 0x21, 0, 1, []⟩)])
      ∧ Runs (.streamFrameAssemble 0) (mk [at_ 9, fineOn none])
      ∧ Runs (.streamFrameAssemble 0) (mk [at_ 10, fineOn (some ⟨9, 1, 0x21, 0, 1, []⟩)])
      ∧ Runs (.streamFrameAssemble 0) (mk [at_ 8, lineOn none]) ∧ Runs (.streamFrameAssemble 0) (mk [at_ 8, lineOn (some lineFrame)])
      ∧ Runs (.streamFrameAssemble 0) (mk [at_ 56, lineOn (some lineFrame)]) ∧ Runs (.cfeLatch 0 []) (mk [at_ 100, sleptTo]) := by
  refine ⟨ran (h.1 0 60000 1000 0 true _ 0 (iv ?_) ?_ ?_), ran (h.1 0 100 1000 0 true _ 5 (iv ?_) ?_ ?_),
    ran (((h.2 1 _).1 100 60000 0 ?_).1 ?_), ran (((h.2 0 _).1 100 60000 0 ?_).1 ?_), ran (((h.2 0 _).1 0 0 (-32768) ?_).2 ?_ ?_),
    ran ((h.2 0 _).2.1 ?_), ran (((h.2 0 _).2.2.1 _ ?_ ?_ ?_ ?_ ?_ ?_ ?_ rfl).1 ?_),
    ran (((h.2 0 _).2.2.1 _ ?_ ?_ ?_ ?_ ?_ ?_ ?_ rfl).2 ⟨9, 1, 0x21, 0, 1, []⟩ ?_ ?_ ?_ ?_ ?_),
    ran (((h.2 0 _).2.2.2.1 _ lineWord 1 17 _ ?_ ?_ ?_ ?_ rfl ?_ ?_ ?_ ?_ ?_ rfl).1 ?_ ?_),
    ran ((((h.2 0 _).2.2.2.1 _ lineWord 1 17 _ ?_ ?_ ?_ ?_ rfl ?_ ?_ ?_ ?_ ?_ rfl).2 lineFrame ?_ ?_ ?_ ?_ ?_).1 ?_),
    ran ((((h.2 0 _).2.2.2.1 _ lineWord 1 17 _ ?_ ?_ ?_ ?_ rfl ?_ ?_ ?_ ?_ ?_ rfl).2 lineFrame ?_ ?_ ?_ ?_ ?_).2 ?_ ?_ ?_ ?_),
    ran ((h.2 0 _).2.2.2.2 [] 10 90 2 ?_ ?_ ?_ ?_ ?_ ?_ ?_ ?_ ?_ ?_)⟩
    <;> decide +kernel

/-- The open-wire work of die 0. -/
def owd (f : OwdX → OwdX) : Chip → Chip := x fun d => { d with owd := f d.owd }

theorem wit_OpenWireRequestsWaitOrAreDropped (h : Obligations.OpenWireRequestsWaitOrAreDropped) :
    Runs (.owdSingleWireRequest 0 16 true false) (mk [p CFE_CONFIG CFE_CONFIG.CELLS 16])
      ∧ Runs (.owdSingleWireRequest 0 0 false true) (mk [owd fun o => { o with queue := [⟨true, false, false, 0, false, false, 0, false⟩] }])
      ∧ Runs (.owdAllWireRequest 0) (mk []) := by
  refine ⟨ran ((h 0 _ (iv ?_) ?_ _ _ (.inl ⟨16, true, false, rfl, ?_, rfl⟩)).1 ?_),
    ran ((h 0 _ (iv ?_) ?_ _ _ (.inl ⟨0, false, true, rfl, ?_, rfl⟩)).2 ?_), ran ((h 0 _ (iv ?_) ?_ _ _ (.inr ⟨rfl, rfl⟩)).1 ?_)⟩ <;> decide +kernel

theorem wit_OpenWireTestsStartAndAreAbandoned (h : Obligations.OpenWireTestsStartAndAreAbandoned) :
    Runs (.openWireTestStart 0) (mk [at_ 40, owd fun o => { o with queue := [⟨false, false, false, 3, true, false, 0, false⟩] }])
      ∧ Runs (.openWireTestStart 0) (mk [at_ 40, owd fun o => { o with queue := [⟨true, false, false, 0, true, false, 0, false⟩] }])
      ∧ Runs (.openWireSkipPage 0) (mk [at_ 768, p OWD_CONFIG OWD_CONFIG.BG_EN 1])
      ∧ Runs (.openWireCurrentOn 0) (mk [at_ 40, p CFE_CONFIG CFE_CONFIG.CELLS 16, owd fun o => { o with test := some ⟨false, true, false, 3, true, true, 8, false⟩ }])
      ∧ Runs (.openWireAbandon 0) (mk [at_ 40, p OWD_STATUS OWD_STATUS.BUSY 1,
          owd fun o => { o with test := some ⟨false, false, false, 3, true, true, 8, false⟩, spoilt := true, shift := [(2, 50)] }])
      ∧ Runs (.openWireAbandon 0) (mk [at_ 40, p OWD_STATUS OWD_STATUS.BUSY 1, p CXS_STATUS CXS_STATUS.STEPHOLD 1,
          owd fun o => { o with test := some ⟨false, false, false, 3, true, true, 2, true⟩, step := some (3, 2, 8), spoilt := true }]) := by
  refine ⟨ran ((h 0 _ (iv ?_) ?_ ?_).1 ⟨false, false, false, 3, true, false, 0, false⟩ ?_ ?_ ?_ ?_ ?_ ?_),
    ran ((h 0 _ (iv ?_) ?_ ?_).1 ⟨true, false, false, 0, true, false, 0, false⟩ ?_ ?_ ?_ ?_ ?_ ?_),
    ran ((h 0 _ (iv ?_) ?_ ?_).2.1 ?_ ?_ ?_ ?_), ran ((h 0 _ (iv ?_) ?_ ?_).2.2.1 ⟨false, true, false, 3, true, true, 8, false⟩ ?_ ?_ ?_ ?_ ?_),
    ran ((h 0 _ (iv ?_) ?_ ?_).2.2.2.1 ⟨false, false, false, 3, true, true, 8, false⟩ ?_ ?_ ?_), ran ((h 0 _ (iv ?_) ?_ ?_).2.2.2.2 ?_ ?_)⟩ <;> decide +kernel

/-- Readings of an open-wire test: every cell at 3.7 V, and wire 3 moving by two amounts. -/
def ramp (a b : Int) : RampIn :=
  ⟨List.replicate 16 3700000, (List.replicate 16 3700000).set 2 (3700000 + a) |>.set 3 (3700000 - a),
    (List.replicate 16 3700000).set 2 (3700000 + b) |>.set 3 (3700000 - b), 59200000, 59200000, 59200000, []⟩

/-- A state at line 20 of die 0 with 16 cells in which a test runs that began in line 12. -/
def tested (all cur : Bool) : State :=
  mk [at_ 80, p CFE_CONFIG CFE_CONFIG.CELLS 16, p OWD_STATUS OWD_STATUS.BUSY 1, owd fun o => { o with test := some ⟨all, false, false, if all then 0 else 3, cur, false, 12, false⟩ }]

/-- Readings of two lines of a step stage: every cell 0.1 V lower in the off line. -/
def stepOn : StepPair := ⟨List.replicate 18 3700000, List.replicate 18 3600000⟩

theorem wit_WireVerdictsAndClasses (h : Obligations.WireVerdictsAndClasses) :
    Runs (.openWireVerdict 0 (ramp (-100) (-30000))) (tested false true) ∧ Runs (.openWireVerdict 0 (ramp 0 10)) (tested false false)
      ∧ Runs (.openWireVerdict 0 (ramp 100000 (100010))) (tested false true)
      ∧ Runs (.allWireVerdict 0 (ramp 100 90000)) (tested true false)
      ∧ Runs (.stepStageEnd 0 stepOn stepOn stepOn stepOn)
          (mk [at_ 80, p CFE_CONFIG CFE_CONFIG.CELLS 16, p CXS_STATUS CXS_STATUS.STEPHOLD 1, owd fun o => { o with step := some (3, 2, 12), stepIon := 400 }])
      ∧ Runs (.stepStageEnd 0 stepOn stepOn stepOn stepOn)
          (mk [at_ 80, p CFE_CONFIG CFE_CONFIG.CELLS 16, p CXS_STATUS CXS_STATUS.STEPHOLD 1, owd fun o => { o with step := some (0, 0, 12), stepIon := 400, spoilt := true }])
      ∧ Runs (.stepStageEnd 0 stepOn stepOn stepOn stepOn)
          (mk [at_ 80, p CFE_CONFIG CFE_CONFIG.CELLS 16, p CXS_STATUS CXS_STATUS.STEPHOLD 1, owd fun o => { o with step := some (16, 15, 12), stepIon := 399 }])
      ∧ Runs (.deviationClassify 0 9) (mk [owd fun o => { o with pairs := [(4, false, none, none), (9, true, some 1, some 3)] }]) := by
  refine ⟨ran (h.1 0 _ ⟨false, false, false, 3, true, false, 12, false⟩ _ _ _ _ _ (iv ?_) ?_ ?_ ?_ ?_ ?_ ?_ ?_ ?_ rfl rfl rfl rfl),
    ran (h.1 0 _ ⟨false, false, false, 3, false, false, 12, false⟩ _ _ _ _ _ (iv ?_) ?_ ?_ ?_ ?_ ?_ ?_ ?_ ?_ rfl rfl rfl rfl),
    ran (h.1 0 _ ⟨false, false, false, 3, true, false, 12, false⟩ _ _ _ _ _ (iv ?_) ?_ ?_ ?_ ?_ ?_ ?_ ?_ ?_ rfl rfl rfl rfl),
    ran ((h.2 0 _ (iv ?_) ?_).1 _ ⟨true, false, false, 0, false, false, 12, false⟩ ?_ ?_ ?_ ?_ ?_),
    ran ((h.2 0 _ (iv ?_) ?_).2.1 stepOn stepOn stepOn stepOn 400 3 2 12 ?_ ?_ ?_ ?_ ?_),
    ran ((h.2 0 _ (iv ?_) ?_).2.1 stepOn stepOn stepOn stepOn 400 0 0 12 ?_ ?_ ?_ ?_ ?_),
    ran ((h.2 0 _ (iv ?_) ?_).2.1 stepOn stepOn stepOn stepOn 399 16 15 12 ?_ ?_ ?_ ?_ ?_),
    ran ((h.2 0 _ (iv ?_) ?_).2.2 9 true 1 3 ?_)⟩ <;> decide +kernel

/-- A custom program of die 0 that begins with END, and slot 3 enabled. -/
def ends : Chip → Chip := fun s => (((s.put 0 BCE_CTRL BCE_CTRL.PROG_EN 1).setReg 0 (BCE_PROG 0) 0).put 0 (BCE_SLOT 3) BCE_SLOT.EN 1).upd 0 fun d =>
  { d with eng := { d.eng with slots := d.eng.slots.set 3 ⟨[0, 0, 0], [0, 0, 0], 0, 77⟩ } }

theorem wit_StrokeProgramReportsItsSlots (h : Obligations.StrokeProgramReportsItsSlots) :
    Runs (.bceStrokeProgram 0 []) (mk [at_ 80, w (BCE_SLOT 1) 0xFFFFFFFF])
      ∧ (∃ t, exec (.bceStrokeProgram 0 []) (mk [at_ 80, fun s => s.each [0, 1, 2, 3] fun n s => s.put 0 (BCE_SLOT n) BCE_SLOT.EN 0]) = .next t
        ∧ (t.chip.slot 0 3).out = 0)
      ∧ (∃ t, exec (.bceStrokeProgram 0 [⟨96, 24, 1180, 2⟩]) (mk [at_ 80, ends]) = .next t ∧ (t.chip.slot 0 3).out = 77
        ∧ 123 ∈ (t.chip.die 0).fcol.reports) := by
  refine ⟨ran (h 0 _ _ (iv ?_) ?_ ?_), (h 0 _ _ (iv ?_) ?_ ?_).imp fun t c => ⟨c.1, (c.2.2.2.1 ?_ ?_ ?_ ?_ 3 ?_).1⟩,
    (h 0 _ _ (iv ?_) ?_ ?_).imp fun t c => ⟨c.1, (c.2.2.2.2.1 ?_ ?_ ?_ 3 ?_ ?_).1.trans ?_, (c.2.2.2.2.1 ?_ ?_ ?_ 3 ?_ ?_).2.2.2.2⟩⟩ <;> decide +kernel

/-- The profile generator 0 of die 0. -/
def pg (y : PgenX) : Chip → Chip := x fun d => { d with cxs := { d.cxs with pgen := [y, ⟨0, 0, 0, 0⟩] } }

theorem wit_ProfilesInjectionAndCapture (h : Obligations.ProfilesInjectionAndCapture) :
    Runs (.pgenStep 0) (mk [p (PGEN_STAT 0) PGEN_STAT.MODE 1, p (CXS_STATE 0) CXS_STATE.ILIM_NOW 100, p (CXS_SEL 0) CXS_SEL.OWNER 1,
        p CXS_MGR_I CXS_MGR_I.MGR_I 500, pg ⟨6000000, 0, 0, 0⟩])
      ∧ Runs (.pgenStep 0) (mk [p (PGEN_STAT 0) PGEN_STAT.MODE 3, pg ⟨6000000, 9, 70000000, 1⟩])
      ∧ Runs (.pgenStep 0) (mk [pg ⟨6000000, 9, 70000000, 1⟩])
      ∧ Runs (.injGo 0 3 0x123) (mk []) ∧ Runs (.injGo 0 3 (INJ_CFG.GO.write 0 1)) (mk [x fun d => { d with pwr := { d.pwr with restart := [4] } }]) ∧ Runs (.injStop 0 3 0xFFFFFFFF) (mk []) ∧ Runs (.captureArm 0 0) (mk [p INJ_CAPSTAT INJ_CAPSTAT.NREC 7])
      ∧ Runs (.captureArm 0 0xFFFFFFFF) (mk []) := by
  refine ⟨ran ((h.1 0 0 _ _ _ _ _ _ (iv ?_) ?_ rfl ?_ rfl rfl rfl rfl).1 ?_ ?_), ran ((h.1 0 0 _ _ _ _ _ _ (iv ?_) ?_ rfl ?_ rfl rfl rfl rfl).2.1 ?_ ?_),
    ran ((h.1 0 0 _ _ _ _ _ _ (iv ?_) ?_ rfl ?_ rfl rfl rfl rfl).2.2 ?_), ran (((h.2 0 _ (iv ?_) ?_).1 3 _ ?_).1 ?_),
    ran ((h.2 0 _ (iv ?_) ?_).2.1 3 _ GenX.reset ?_ ?_ ?_ ?_), ran (((h.2 0 _ (iv ?_) ?_).1 3 _ ?_).2), ran ((h.2 0 _ (iv ?_) ?_).2.2 _),
    ran ((h.2 0 _ (iv ?_) ?_).2.2 _)⟩ <;> decide +kernel

/-- Sixteen cells, both channels of die 0 enabled and without a cell. -/
def stage : Chip → Chip := fun s => (((s.put 0 CFE_CONFIG CFE_CONFIG.CELLS 16).each [0, 1] fun n s =>
  ((s.put 0 (CXS_CFG n) CXS_CFG.EN 1).put 0 (CXS_CFG n) CXS_CFG.ILIM 16000).put 0 (CXS_SEL n) CXS_SEL.CELL 31))

/-- Channel 0 wants cell 5 for the manager. -/
def wants : Chip → Chip := cxs fun c => { c with chans := c.chans.set 0 ⟨false, some (5, 1, 1), none, 0, false, false, false⟩ }

theorem wit_SelectionTakesOrRefusesTheWantedCell (h : Obligations.SelectionTakesOrRefusesTheWantedCell) :
    Runs (.selectionChange 0 0) (mk [at_ 8, stage, wants])
      ∧ Runs (.selectionChange 0 0) (mk [at_ 8, stage, wants, p (CXS_SEL 1) CXS_SEL.CELL 5])
      ∧ Runs (.selectionChange 0 0) (mk [at_ 8, stage, wants, x fun d => { d with cfe := { d.cfe with invalid := [5] } }])
      ∧ Runs (.selectionChange 0 0) (mk [at_ 8, stage, wants, p (CXS_CFG 0) CXS_CFG.EN 0])
      ∧ Runs (.selectionChange 0 0) (mk [at_ 8, stage, p CFE_CONFIG CFE_CONFIG.CELLS 5, wants]) := by
  refine ⟨ran (((h 0 0 5 1 1 _ (iv ?_) ?_ ?_ ?_ ?_ ?_ ?_).2 ?_ ?_ ?_ ?_ ?_ ?_ ?_).1 ?_), ran (((h 0 0 5 1 1 _ (iv ?_) ?_ ?_ ?_ ?_ ?_ ?_).2 ?_ ?_ ?_ ?_ ?_ ?_ ?_).2 2 ?_),
    ran (((h 0 0 5 1 1 _ (iv ?_) ?_ ?_ ?_ ?_ ?_ ?_).2 ?_ ?_ ?_ ?_ ?_ ?_ ?_).2 3 ?_), ⟨_, (h 0 0 5 1 1 _ (iv ?_) ?_ ?_ ?_ ?_ ?_ ?_).1 (.inl ?_)⟩,
    ⟨_, (h 0 0 5 1 1 _ (iv ?_) ?_ ?_ ?_ ?_ ?_ ?_).1 (.inr ?_)⟩⟩ <;> decide +kernel

theorem wit_StageRampsBleedsAndWrites (h : Obligations.StageRampsBleedsAndWrites) :
    Runs (.stopRampComplete 0 1) (mk [at_ 8, stage, p (CXS_SEL 1) CXS_SEL.CELL 5, cxs fun c => { c with chans := c.chans.set 1 ⟨true, none, some 5, 1, true, false, false⟩ }])
      ∧ Runs (.peakLimit 0 1) (mk [p (CXS_STATE 1) CXS_STATE.DUTY 7])
      ∧ Runs (.bleedOvercurrent 0 3) (mk [p (CXS_BLEED 3) CXS_BLEED.DUTY 9, p CXS_STATUS CXS_STATUS.BLEEDING 0xFFFF,
          cxs fun c => { c with applied := List.replicate 16 9 }])
      ∧ Runs (.cxsQtgtWrite 0 15 0xFFFFFFF0) (mk [stage, cxs fun c => { c with qPend := [(15, 3), (2, 4)] }])
      ∧ Runs (.cxsEnWrite 0 0 100) (mk [stage, p (CXS_SEL 0) CXS_SEL.CELL 4])
      ∧ Runs (.cxsEnWrite 0 1 (CXS_CFG.EN.write 50 1)) (mk [p (CXS_STATE 1) CXS_STATE.STOPCAUSE 6])
      ∧ Runs (.cxsEnWrite 0 1 (CXS_CFG.EN.write 50 1)) (mk [p CXS_STATUS CXS_STATUS.RETIRED 1]) := by
  refine ⟨ran ((h.1 0 _ (iv ?_) ?_).1 1 ?_ ?_ ?_), ran ((h.1 0 _ (iv ?_) ?_).2.1 1 ?_), ran ((h.1 0 _ (iv ?_) ?_).2.2 3 ?_ ?_),
    ran ((h.2 0 _ _ (iv ?_) ?_).1 15 ?_), ran ((h.2 0 _ _ (iv ?_) ?_).2.1 0 ?_ ?_ ?_ ?_ ?_ ?_ ?_), ran ((h.2 0 _ _ (iv ?_) ?_).2.2.1 1 ?_ ?_),
    ran ((h.2 0 _ _ (iv ?_) ?_).2.2.2 1 ?_)⟩
    <;> decide +kernel

/-- Every plan of die 0 has two bins of 1/16 of the stroke rate at 100 mA; plan 3 is passive. -/
def plans : Chip → Chip := fun s => (s.each [0, 1, 2, 3] fun k s => (s.put 0 (EIS_PLAN_HDR0 k) EIS_PLAN_HDR0.NBINS_M1 1).each [0, 1] fun b s =>
  ((s.put 0 (EIS_BIN_W0 k b) EIS_BIN_W0.N 16).put 0 (EIS_BIN_W1 k b) EIS_BIN_W1.K 1).put 0 (EIS_BIN_W1 k b) EIS_BIN_W1.AMP 100)
    |>.put 0 (EIS_PLAN_HDR0 3) EIS_PLAN_HDR0.MODE 1

/-- Sweeper `n` of die 0 in a state, with a plan, a cell and a bin. -/
def sweeping (n st pl ce b : Nat) (f : SweepX → SweepX) : Chip → Chip := fun s =>
  ((((s.put 0 (EIS_STATUS n) EIS_STATUS.STATE st).put 0 (EIS_STATUS n) EIS_STATUS.PLAN pl).put 0 (EIS_STATUS n) EIS_STATUS.CELL ce).put 0 (EIS_STATUS n)
    EIS_STATUS.BIN b).upd 0 fun d => { d with eis := { d.eis with sweeps := d.eis.sweeps.set n (f SweepX.reset) } }

theorem wit_SweepersStartAreRefusedAndStop (h : Obligations.SweepersStartAreRefusedAndStop) :
    Runs (.eisCmdGo 0 1 0 15 0) (mk [stage, plans]) ∧ Runs (.eisCmdGo 0 2 3 15 255) (mk [stage, plans])
      ∧ Runs (.eisCmdGo 0 2 1 4 1) (mk [stage, plans]) ∧ Runs (.eisCmdGo 0 0 1 4 1) (mk [stage, plans, sweeping 0 4 2 3 1 id])
      ∧ Runs (.eisCmdStop 0 2) (mk [sweeping 2 3 3 0 0 id]) := by
  refine ⟨ran (((h 0 1 _ (iv ?_) ?_ ?_).1 0 15 0 ?_ ?_ ?_).1 ?_), ran (((h 0 2 _ (iv ?_) ?_ ?_).1 3 15 255 ?_ ?_ ?_).1 ?_),
    ran (((h 0 2 _ (iv ?_) ?_ ?_).1 1 4 1 ?_ ?_ ?_).2 0x10 2 ?_), ran (((h 0 0 _ (iv ?_) ?_ ?_).1 1 4 1 ?_ ?_ ?_).2 0x12 3 ?_),
    ran ((h 0 2 _ (iv ?_) ?_ ?_).2 ?_)⟩ <;> decide +kernel

theorem wit_SweepsAreGrantedAndRunTheirBins (h : Obligations.SweepsAreGrantedAndRunTheirBins) :
    (∃ t, exec (.eisChannelGrant 0 0) (mk [at_ 8, stage, plans, sweeping 0 1 0 7 0 id]) = .next t ∧ t.chip.bit 0 (INJ_STAT 0) INJ_STAT.RUNNING = true)
      ∧ Runs (.eisChannelGrant 0 1) (mk [at_ 8, stage, plans, p (EIS_BIN_W1 0 0) EIS_BIN_W1.AMP 1000, p (CXS_CFG 1) CXS_CFG.ILIM 10, sweeping 1 1 0 7 0 id])
      ∧ Runs (.eisChannelGrant 0 1) (mk [at_ 8, stage, plans, p (CXS_SEL 0) CXS_SEL.CELL 7, sweeping 1 1 0 7 0 id])
      ∧ Runs (.eisWindowOpen 0 2) (mk [at_ 8, plans, sweeping 2 1 3 0 0 id]) ∧ Runs (.eisWindowOpen 0 1) (mk [at_ 9, plans, sweeping 1 2 0 7 1 id])
      ∧ Runs (.eisInjectionEnd 0 1) (mk [at_ 90, plans, sweeping 1 3 0 7 1 fun y => { y with ends := 90 }])
      ∧ Runs (.eisNextBin 0 0) (mk [at_ 88, plans, sweeping 0 4 0 7 1 fun y => { y with passes := some 1 }])
      ∧ Runs (.eisNextBin 0 2) (mk [at_ 88, plans, sweeping 2 4 3 0 1 fun y => { y with passes := some 2 }])
      ∧ Runs (.eisNextBin 0 1) (mk [at_ 88, plans, p THM_STAT THM_STAT.SWPAUSE 1, sweeping 1 4 0 7 0 id])
      ∧ (∃ t, exec (.eisNextBin 0 1) (mk [at_ 88, stage, plans, sweeping 1 4 0 7 0 id]) = .next t ∧ t.chip.swState 0 1 = 2
          ∧ t.chip.bit 0 (INJ_STAT 1) INJ_STAT.RUNNING = true)
      ∧ (∃ t, exec (.eisNextBin 0 1) (mk [at_ 88, stage, plans, p (EIS_BIN_W1 0 1) EIS_BIN_W1.AMP 1000, p (CXS_CFG 1) CXS_CFG.ILIM 10, sweeping 1 4 0 7 0 id])
          = .next t ∧ t.chip.swState 0 1 = 4) := by
  refine ⟨((h.1 0 0 _ 7 0 0 (iv ?_) ?_ ?_ ?_ ?_ ?_ ?_ ?_ ?_ ?_ ?_ ?_ ?_ ?_ (.inr ?_)).1 ?_).imp fun t c => ⟨c.1, c.2.2.2.2.2.1 (c.2.2.2.2.1.trans ?_)⟩,
    ran ((h.1 0 1 _ 7 0 0 (iv ?_) ?_ ?_ ?_ ?_ ?_ ?_ ?_ ?_ ?_ ?_ ?_ ?_ ?_ (.inr ?_)).1 ?_),
    ran ((h.1 0 1 _ 7 0 0 (iv ?_) ?_ ?_ ?_ ?_ ?_ ?_ ?_ ?_ ?_ ?_ ?_ ?_ ?_ (.inr ?_)).2 2 ?_),
    ran ((h.2 0 _ (iv ?_) ?_).1 2 ?_ (.inl ⟨?_, ?_, ?_⟩)), ran ((h.2 0 _ (iv ?_) ?_).1 1 ?_ (.inr ⟨?_, ?_, ?_⟩)),
    ran ((h.2 0 _ (iv ?_) ?_).2.1 1 ?_ ?_ ?_), ran (((h.2 0 _ (iv ?_) ?_).2.2 0 ?_ ?_ ?_ ?_).1 ?_), ran (((h.2 0 _ (iv ?_) ?_).2.2 2 ?_ ?_ ?_ ?_).2.1 0 ?_ ?_ ?_),
    ran (((h.2 0 _ (iv ?_) ?_).2.2 1 ?_ ?_ ?_ ?_).2.2.1 1 ?_ ?_ ?_ ?_ ?_),
    (((h.2 0 _ (iv ?_) ?_).2.2 1 ?_ ?_ ?_ ?_).2.2.2 1 7 0 ?_ ?_ ?_ ?_ ?_ (.inr ?_) ?_).imp fun t c =>
      ⟨c.1, c.2.2.1.trans ?_, (c.2.2.2.1 (c.2.2.1.trans ?_)).1⟩,
    (((h.2 0 _ (iv ?_) ?_).2.2 1 ?_ ?_ ?_ ?_).2.2.2 1 7 0 ?_ ?_ ?_ ?_ ?_ (.inr ?_) ?_).imp fun t c => ⟨c.1, c.2.2.1.trans ?_⟩⟩ <;> decide +kernel

/-- A window of one cell that ends with stroke 97. -/
def win1 : WinX := ⟨0, 1, 1, [3], false, false, false, 16, 1, 0, 0, 81, 98, 97, [], false, false, false, false, [], EisSum.zero, EisSum.zero⟩

theorem wit_CorrelationResultsAndWaits (h : Obligations.CorrelationResultsAndWaits) :
    Runs (.eisCorrelate 0 true) (mk [at_ 3]) ∧ Runs (.eisCorrelate 0 false) (mk [at_ 100, x fun d => { d with eis := { d.eis with wins := [win1] } }])
      ∧ Runs (.eisCorrelate 0 true) (mk [at_ 100, stage, plans, p EIS_ZT_CFG EIS_ZT_CFG.EN 0, x fun d => { d with eis := { d.eis with wins := [win1] } }])
      ∧ Runs (.eisWaitTimeout 0 1) (mk [p EIS_SCHED EIS_SCHED.WAIT 3, sweeping 1 1 0 7 0 fun y => { y with waited := 4 }]) := by
  refine ⟨ran ((h 0 _ (iv ?_) ?_).1 ?_ ?_), ran ((h 0 _ (iv ?_) ?_).2.1 ?_), ran ((h 0 _ (iv ?_) ?_).2.2.1 win1 _ 3 ?_ ?_ ?_ ?_ ?_ ?_ ?_ ?_ ?_ ?_ rfl),
    ran ((h 0 _ (iv ?_) ?_).2.2.2 1 ?_ ?_ ?_)⟩ <;> decide +kernel

theorem wit_ThermalEvaluationGivesLevel (h : Obligations.ThermalEvaluationGivesLevel) :
    Runs (.thmEvaluation 0 [8000, 8100, 8200, 100, 32767] 500) (mk [at_ 7]) ∧ Runs (.thmEvaluation 0 [40000, -40000, -32768] 0)
      (mk [at_ 7, p THM_STAT THM_STAT.LEVEL 2, x fun d => { d with thm := { d.thm with dir := 1, run := 3, ext := 3, started := true } }]) := by
  refine ⟨ran (h 0 _ _ _ (iv ?_) ?_ ?_), ran (h 0 _ _ _ (iv ?_) ?_ ?_)⟩ <;> decide +kernel

theorem wit_HoldsCutsAndThermalWrites (h : Obligations.HoldsCutsAndThermalWrites) :
    Runs (.thermalHoldSet 0) (mk [at_ 8, stage, p CXS_STATUS CXS_STATUS.THOLD 1, p CXS_STATUS CXS_STATUS.BLEEDING 3, p (CXS_BLEED 3) CXS_BLEED.DUTY 9])
      ∧ Runs (.cutTrip 0 4) (mk [at_ 0x123456789, stage, p (CXS_SEL 1) CXS_SEL.CELL 3])
      ∧ Runs (.cutRelease 0 4) (mk [p THM_STAT THM_STAT.CUT 1, x fun d => { d with thm := { d.thm with cuts := [4] } }])
      ∧ Runs (.holdclr 0) (mk [p THM_STAT THM_STAT.HOLD 1]) ∧ Runs (.sensorExclClear 0 4) (mk [p (THM_SEST 4) THM_SEST.STATE 2])
      ∧ Runs (.cutmaskWrite 0 0xFFE0FFFF) (mk [])
      ∧ exec (.cutmaskWrite 0 (THM_CFG.CUTMASK.write 0 16)) (mk []) = .next (mk []) := by
  refine ⟨ran ((h.1 0 _ (iv ?_)).1 ?_ ?_ ?_ ?_ ?_ ?_), ran ((h.1 0 _ (iv ?_)).2.1 4 ?_ ?_ ?_ ?_ ?_), ran ((h.1 0 _ (iv ?_)).2.2 4 ?_ ?_ ?_),
    ran ((h.2 0 _ (iv ?_) ?_).1 ?_ ?_), ran ((h.2 0 _ (iv ?_) ?_).2.1 4 ?_), ran ((h.2 0 _ (iv ?_) ?_).2.2.1 _ ?_),
    (h.2 0 _ (iv ?_) ?_).2.2.2 _ 4 ?_ ?_ ?_⟩ <;> decide +kernel

/-- A calibration pass of die 0 with window 4 that has ended its items but for what is given. -/
def pass (items : List Nat) (running : List CalItem) (senses : List Nat) (acc : List (Nat × Int × Int × Nat)) : CalPass :=
  ⟨3, [0, 16, 17, 19], items, running, senses, acc, [], 8000, 4, 2, 0, 0⟩

/-- Die 0 runs a pass. -/
def cal (y : Option CalPass) : Chip → Chip := fun s => (s.put 0 CFE_CONFIG CFE_CONFIG.CELLS 16 |>.put 0 CAL_STAT CAL_STAT.STATE 1).upd 0 fun d =>
  { d with cal := { d.cal with pass := y, since := 99 } }

theorem wit_CalibrationPassesStartMergeAndAbort (h : Obligations.CalibrationPassesStartMergeAndAbort) :
    Runs (.calPassStart 0) (mk [at_ 8, p CAL_STAT CAL_STAT.PENDING 1, p CFE_CONFIG CFE_CONFIG.CELLS 12, x fun d => { d with cal := { d.cal with pendCause := 2 } }])
      ∧ Runs (.calGo 0) (mk []) ∧ Runs (.calGo 0) (mk [p CAL_STAT CAL_STAT.PENDING 1, p CAL_STAT CAL_STAT.MERGED 255])
      ∧ Runs (.calAbort 0) (mk [p CAL_STAT CAL_STAT.PENDING 1])
      ∧ Runs (.calAbort 0) (mk [p CAL_STAT CAL_STAT.PENDING 1, cal (some (pass [3] [⟨0, 20, none, 15, [], false, 12, false⟩] [] [(16, 3, 4, 15)]))])
      ∧ Runs (.fbclr 0) (mk [p CAL_REF CAL_REF.FALLBACK 1, p CAL_REF CAL_REF.SUSPECT 1, p CAL_REF CAL_REF.DIS (2 ^ CAL_REF.DIS.w - 300)]) := by
  refine ⟨ran ((h 0 _ (iv ?_)).1 ?_ ?_ ?_ ?_ ?_ ?_ ?_ ?_), ran (((h 0 _ (iv ?_)).2 ?_).1 ?_), ran (((h 0 _ (iv ?_)).2 ?_).2.1 ?_),
    ran (((h 0 _ (iv ?_)).2 ?_).2.2.1 ?_), ran (((h 0 _ (iv ?_)).2 ?_).2.2.2.1 _ rfl), ran (((h 0 _ (iv ?_)).2 ?_).2.2.2.2 ?_ ?_)⟩ <;> decide +kernel

/-- A voltage item of channel 5 due at line 20. -/
def item (c : Option (Int × Int × Nat)) (tried : List Nat) : CalItem := ⟨5, 20, c, 0xF, tried, false, 12, false⟩

theorem wit_CalibrationItemsAreMeasuredAndApplied (h : Obligations.CalibrationItemsAreMeasuredAndApplied) :
    Runs (.calItemGrant 0) (mk [at_ 80, p OWD_CONFIG OWD_CONFIG.BG_EN 0, cal (some (pass [5, 6] [] [] []))])
      ∧ Runs (.calCandidate 0 ⟨80, 32000000⟩) (mk [at_ 80, cal (some (pass [6] [item none []] [] []))])
      ∧ Runs (.calCandidate 0 ⟨80, 30000000⟩) (mk [at_ 80, cal (some (pass [6] [item none [1, 2]] [] []))])
      ∧ Runs (.calItemVerdict 0 ⟨160, 32000160⟩) (mk [at_ 80, cal (some (pass [6] [item (some (7, -8, 0xF)) []] [] []))])
      ∧ Runs (.calItemVerdict 0 ⟨-161, 32000000⟩) (mk [at_ 80, cal (some (pass [6] [item (some (7, -8, 0xF)) []] [] []))])
      ∧ Runs (.currentSenseItem 0 3 ⟨137501, 0, 0, 0, 0⟩) (mk [at_ 80, p (CXS_SEL 1) CXS_SEL.CELL 31, cal (some (pass [] [] [3] []))])
      ∧ Runs (.currentSenseItem 0 0 ⟨125000, 2500, 0, 2500, 0⟩) (mk [at_ 80, p (CXS_SEL 0) CXS_SEL.CELL 31, cal (some (pass [] [] [3, 0] []))])
      ∧ Runs (.calPassEnd 0) (mk [at_ 80, cal (some (pass [] [] [] [(5, 70000, -70000, 0xF), (20, 3, 4, 0)]))]) := by
  refine ⟨ran ((h 0 _ _ (iv ?_) ?_ ?_ rfl).1 5 [6] rfl ?_ rfl ?_ ?_ ?_ ?_ ?_),
    ran (((h 0 _ (pass [6] [item none []] [] []) (iv ?_) ?_ ?_ rfl).2.1 _ (item none []) ?_ ?_ ?_).1 ?_ ?_),
    ran (((h 0 _ (pass [6] [item none [1, 2]] [] []) (iv ?_) ?_ ?_ rfl).2.1 _ (item none [1, 2]) ?_ ?_ ?_).2 ?_ ?_),
    ran (((h 0 _ (pass [6] [item (some (7, -8, 0xF)) []] [] []) (iv ?_) ?_ ?_ rfl).2.2.1 _ (item (some (7, -8, 0xF)) []) (7, -8, 0xF) ?_ rfl ?_ ?_ ?_).1 ?_ ?_),
    ran (((h 0 _ (pass [6] [item (some (7, -8, 0xF)) []] [] []) (iv ?_) ?_ ?_ rfl).2.2.1 _ (item (some (7, -8, 0xF)) []) (7, -8, 0xF) ?_ rfl ?_ ?_ ?_).2 ?_),
    ran ((h 0 _ _ (iv ?_) ?_ ?_ rfl).2.2.2.1 3 _ ?_ ?_ ?_ ?_ ?_), ran ((h 0 _ _ (iv ?_) ?_ ?_ rfl).2.2.2.1 0 _ ?_ ?_ ?_ ?_ ?_),
    ran ((h 0 _ _ (iv ?_) ?_ ?_ rfl).2.2.2.2 rfl rfl rfl ?_ ?_ ?_ ?_)⟩ <;> decide +kernel

/-- The next slice of the logic test of die 0. -/
def slice (pt k wn : Nat) : Chip → Chip := fun s =>
  ((s.put 0 BIST_CFG BIST_CFG.PERIODIC 1).put 0 BIST_STAT BIST_STAT.PART pt |>.put 0 BIST_STAT BIST_STAT.SLICE k).upd 0 fun d =>
    { d with bist := { d.bist with window := wn } }

theorem wit_LogicAndMemorySelfTest (h : Obligations.LogicAndMemorySelfTest) :
    Runs (.bistSlice 0 true 0 []) (mk [at_ 34, slice 23 6 191]) ∧ Runs (.bistSlice 0 true 5 []) (mk [at_ 34, slice 23 0 191])
      ∧ Runs (.bistSlice 0 true 0xFFFFFFFF []) (mk [at_ 34, slice 23 7 4])
      ∧ Runs (.bistSlice 0 false 0 []) (mk [at_ 34, slice 2 5 4]) ∧ Runs (.bistSlice 0 true 0 [(11, 63, none)]) (mk [at_ 34, slice 0 0 190])
      ∧ Runs (.bistAbort 0) (mk [p BIST_STAT BIST_STAT.RUNNING 1, x fun d => { d with bist := { d.bist with run := some ⟨1, false, [3], 2, 0, false⟩ } }]) := by
  refine ⟨ran (((h 0 0 _ 23 6 _ (iv ?_)).1 ?_ ?_ ?_ ?_ ?_ ?_ ?_ ?_ rfl).1 ?_ ?_), ran (((h 0 5 _ 23 0 _ (iv ?_)).1 ?_ ?_ ?_ ?_ ?_ ?_ ?_ ?_ rfl).1 ?_ ?_),
    ran (((h 0 0xFFFFFFFF _ 23 7 _ (iv ?_)).1 ?_ ?_ ?_ ?_ ?_ ?_ ?_ ?_ rfl).2.1 ?_ ?_),
    ran (((h 0 0 _ 2 5 _ (iv ?_)).1 ?_ ?_ ?_ ?_ ?_ ?_ ?_ ?_ rfl).2.2.1), ran (((h 0 0 _ 0 0 _ (iv ?_)).1 ?_ ?_ ?_ ?_ ?_ ?_ ?_ ?_ rfl).2.2.2 11 63 ?_ ?_ ?_ ?_ ?_),
    ran ((h 0 0 true 0 0 _ (iv ?_)).2 ?_ ?_ ?_ ?_)⟩ <;> decide +kernel

/-- The self-test work of die 0, which has 16 cells. -/
def bist (f : BistX → BistX) : Chip → Chip := fun s => (s.put 0 CFE_CONFIG CFE_CONFIG.CELLS 16).upd 0 fun d => { d with bist := f d.bist }

theorem wit_ElementTestsRepairsAndRepairFuses (h : Obligations.ElementTestsRepairsAndRepairFuses) :
    Runs (.elementTestStart 0) (mk [at_ 400, p OWD_CONFIG OWD_CONFIG.BG_EN 0, p BIST_CFG BIST_CFG.ELEM_EN 1, bist fun b => { b with elemNext := 16 }])
      ∧ Runs (.elementTestVerdict 0 [100, 100, 130, 100, 99, 101, 100, 100]) (mk [at_ 440, bist fun b => { b with elem := some (17, 100) }])
      ∧ Runs (.channelRepair 0 5) (mk [at_ 440, x fun d => { d with cfe := { d.cfe with repair := some 5 } }])
      ∧ Runs (.bistFuseGo 0) (mk [p LCY_STATE LCY_STATE.STATE 3])
      ∧ Runs (.fuseProgrammingDone 0 true) (mk [p LCY_STATE LCY_STATE.PUMP 1, p BIST_FUSE BIST_FUSE.BUSY 1,
          bist fun b => { b with pump := true, rows := [(3, 7)] }]) := by
  refine ⟨ran ((h 0 _ (iv ?_)).1 16 ?_ ?_ ?_ ?_ ?_ ?_ ?_ ?_ ?_ ?_ ?_ ?_ ?_), ran ((h 0 _ (iv ?_)).2.1 17 100 _ ?_ ?_ ?_ ?_ ?_),
    ran ((h 0 _ (iv ?_)).2.2.1 5 ?_ ?_ ?_ ?_ ?_), ran ((h 0 _ (iv ?_)).2.2.2.1 ?_ ?_ ?_ ?_), ran ((h 0 _ (iv ?_)).2.2.2.2 ?_ ?_)⟩ <;> decide +kernel

/-- Lane `q` of die 0 enabled, with an entry of the roster streaming in slot 2 of it where asked. -/
def lane (q : Nat) (entry : Bool) (f : LaneX → LaneX) : Chip → Chip := fun s =>
  ((s.put 0 (QLN_CFG q) QLN_CFG.EN 1).cond entry fun s => ((s.put 0 (MOD_NIB_ENTRY 4) MOD_NIB_ENTRY.STATE 2).put 0 (MOD_NIB_ENTRY 4)
    MOD_NIB_ENTRY.LANE q |>.put 0 (MOD_NIB_ENTRY 4) MOD_NIB_ENTRY.SLOT 2).put 0 (QLN_STAT q) QLN_STAT.NWIN 3).upd 0 fun d =>
      { d with nib := { d.nib with lanes := d.nib.lanes.set q (f LaneX.reset) } }

/-- A walk that finds the nib whose identity reads 149. -/
def found : WalkIn := ⟨true, [2, 2, 2, 4] ++ List.replicate 28 1, 0⟩

theorem wit_LanesStartAndSearch (h : Obligations.LanesStartAndSearch) :
    exec (.laneStart 0 1 ⟨[], true, true⟩) (mk [lane 1 true fun l => { l with start := true, account := 2 ^ 30 }])
        = .next (mk [lane 1 true fun l => { l with start := true, account := 2 ^ 30 }])
      ∧ exec (.census 0 1 ⟨[], true⟩ [3]) (mk [lane 1 true fun l => { l with census := true, account := 2 ^ 30 }])
        = .next (mk [lane 1 true fun l => { l with census := true, account := 2 ^ 30 }])
      ∧ Runs (.laneStart 0 1 ⟨[], true, true⟩) (mk [p FOL_MODENOW FOL_MODENOW.NSRCH 1, lane 1 true fun l => { l with start := true }])
      ∧ Runs (.laneStart 0 1 ⟨[⟨false, [], 0⟩], true, false⟩) (mk [lane 1 true fun l => { l with start := true }])
      ∧ Runs (.census 0 1 ⟨[⟨false, [], 0⟩], true⟩ []) (mk [p (QLN_STAT 1) QLN_STAT.MODE 3, lane 1 true fun l => { l with census := true }])
      ∧ Runs (.laneStart 0 1 ⟨[found], true, true⟩) (mk [p (QLN_CFG 1) QLN_CFG.AUTOADMIT 1, lane 1 false fun l => { l with start := true }])
      ∧ Runs (.census 0 0 ⟨[found], true⟩ [])
        (mk [p (QLN_CFG 0) QLN_CFG.AUTOADMIT 1, p (QLN_STAT 0) QLN_STAT.MODE 1, lane 0 false fun l => { l with census := true }]) := by
  refine ⟨((h 0 1 _ (iv ?_) ?_ ?_ ?_ ?_ ?_).1 ?_ [] [] true true).1, ((h 0 1 _ (iv ?_) ?_ ?_ ?_ ?_ ?_).1 ?_ [] [3] true true).2,
    ran (((h 0 1 _ (iv ?_) ?_ ?_ ?_ ?_ ?_).2 ?_).1 ?_ ?_ _ _ _), ran ((((h 0 1 _ (iv ?_) ?_ ?_ ?_ ?_ ?_).2 ?_).2 ?_ _ _ _).1 ?_ ?_),
    ran ((((h 0 1 _ (iv ?_) ?_ ?_ ?_ ?_ ?_).2 ?_).2 ?_ _ true _).2.1 ?_ ?_ ?_),
    ran ((((h 0 1 _ (iv ?_) ?_ ?_ ?_ ?_ ?_).2 ?_).2 ?_ found true true).2.2 ?_ ?_ ?_ ?_ ?_ ?_ ?_ ?_ _ (.inl ⟨rfl, ?_⟩)),
    ran ((((h 0 0 _ (iv ?_) ?_ ?_ ?_ ?_ ?_).2 ?_).2 ?_ found true true).2.2 ?_ ?_ ?_ ?_ ?_ ?_ ?_ ?_ _ (.inr ⟨rfl, ?_, ?_⟩))⟩ <;> decide +kernel

/-- A valid frame with bit 27 of its status set. -/
def frame : BitVec 40 := BitVec.ofNat 40 (151 * 2 ^ 32 + 0x08071234)

theorem wit_LanesStreamAndAreCommanded (h : Obligations.LanesStreamAndAreCommanded) :
    Runs (.streamCycleStart 0 1 2000000 true) (mk [p (QLN_STAT 1) QLN_STAT.MODE 3, lane 1 true id])
      ∧ (∃ t, exec (.streamCycleStart 0 1 0 false) (mk [p (QLN_STAT 1) QLN_STAT.MODE 3, lane 1 true id]) = .next t
          ∧ t.chip.get 0 (QLN_STAT 1) QLN_STAT.NWIN = 3)
      ∧ (∃ t, exec (.streamCycleStart 0 1 0 false) (mk [p (QLN_STAT 1) QLN_STAT.MODE 3, p PWR_STATE PWR_STATE.STATE 2, p PWR_STATE PWR_STATE.TARGET 2,
            p PWR_STATE PWR_STATE.STEP 2, lane 1 true fun l => { l with rawWin := some 4 }]) = .next t ∧ t.chip.laneMode 0 1 = 5)
      ∧ Runs (.streamCycleStart 0 1 5 false) (mk [p (QLN_STAT 1) QLN_STAT.MODE 3, lane 1 true fun l => { l with account := 2 ^ 30 }])
      ∧ Runs (.laneShort 0 1) (mk [p (QLN_STAT 1) QLN_STAT.MODE 3, lane 1 true id])
      ∧ Runs (.dutyGovernorRelease 0 1 9999999 3) (mk [lane 1 false id])
      ∧ Runs (.nibWindowDecision 0 1 2 (~~~ 0)) (mk [p (QLN_STAT 1) QLN_STAT.MODE 3, lane 1 true id, x fun d => { d with nib := { d.nib with missed := [(4, 2)] } }])
      ∧ Runs (.nibWindowDecision 0 1 2 (~~~ 5)) (mk [p (QLN_STAT 1) QLN_STAT.MODE 3, lane 1 true id])
      ∧ Runs (.nibWindowDecision 0 1 2 (~~~ frame)) (mk [p (QLN_STAT 1) QLN_STAT.MODE 3, lane 1 true id])
      ∧ Runs (.qlnRestart 0 1) (mk [lane 1 false id]) ∧ Runs (.qlnCensus 0 1) (mk []) ∧ Runs (.qlnStop 0 1) (mk [lane 1 true fun l => { l with start := true }]) := by
  refine ⟨ran (((h 0 1 _ (iv ?_) ?_).1 ?_ ?_).1 _ _ ?_ ?_ ?_ ?_ ?_ ?_ ?_),
    (((h 0 1 _ (iv ?_) ?_).1 ?_ ?_).1 0 false ?_ ?_ ?_ ?_ ?_ ?_ ?_).imp fun t c => ⟨c.1, ((c.2.2.2.2.1 ?_ ?_).2.2.1 ?_).trans ?_⟩,
    (((h 0 1 _ (iv ?_) ?_).1 ?_ ?_).1 0 false ?_ ?_ ?_ ?_ ?_ ?_ ?_).imp fun t c => ⟨c.1, (c.2.2.2.1 ?_).1.trans ?_⟩,
    ran (((h 0 1 _ (iv ?_) ?_).1 ?_ ?_).1 _ _ ?_ ?_ ?_ ?_ ?_ ?_ ?_),
    ran (((h 0 1 _ (iv ?_) ?_).1 ?_ ?_).2.1),
    ran (((h 0 1 _ (iv ?_) ?_).1 ?_ ?_).2.2 _ _ _ rfl), ran (((h 0 1 _ (iv ?_) ?_).2.1 ?_ ?_ ?_ 2 4 _ _ rfl ?_ ?_ ?_).1 ?_),
    ran (((h 0 1 _ (iv ?_) ?_).2.1 ?_ ?_ ?_ 2 4 _ _ rfl ?_ ?_ ?_).2.1 ?_ ?_), ran (((h 0 1 _ (iv ?_) ?_).2.1 ?_ ?_ ?_ 2 4 _ _ rfl ?_ ?_ ?_).2.2 ?_ ?_ ?_ ?_),
    ran (((h 0 1 _ (iv ?_) ?_).2.2 ?_).1 ?_), ran (((h 0 1 _ (iv ?_) ?_).2.2 ?_).2.1), ran (((h 0 1 _ (iv ?_) ?_).2.2 ?_).2.2)⟩ <;> decide +kernel

/-- Host-assisted search is in force. -/
def hostSearch : Chip → Chip := p FOL_MODENOW FOL_MODENOW.NSRCH 1

theorem wit_RawOperationsAndRosterWrites (h : Obligations.RawOperationsAndRosterWrites) :
    Runs (.rawReset 0 1 true) (mk [hostSearch]) ∧ Runs (.rawReset 0 1 false) (mk [hostSearch, p (QLN_STAT 1) QLN_STAT.MODE 3])
      ∧ Runs (.rawWrite 0 1 3 5) (mk [hostSearch]) ∧ Runs (.rawRead 0 1 8 511) (mk [hostSearch, p (QLN_STAT 1) QLN_STAT.NOPRES 1])
      ∧ Runs (.rawStep 0 1 3 6) (mk [hostSearch]) ∧ Runs (.rawStep 0 1 3 0) (mk [hostSearch]) ∧ Runs (.rawStream 0 1 255) (mk [hostSearch])
      ∧ Runs (.rawStep 0 1 3 6) (mk []) ∧ Runs (.rawReset 0 1 true) (mk []) ∧ Runs (.rawStream 0 1 3) (mk [hostSearch, p (QLN_STAT 1) QLN_STAT.MODE 3])
      ∧ Runs (.rawRead 0 1 8 3) (mk [p PWR_STATE PWR_STATE.STATE 2, p PWR_STATE PWR_STATE.TARGET 2, p PWR_STATE PWR_STATE.STEP 3, hostSearch,
          x fun d => { d with pwr := { d.pwr with passed := 2 } }])
      ∧ Runs (.rawWrite 0 1 3 5) (mk [hostSearch, p (QLN_CFG 1) QLN_CFG.EN 0]) ∧ Runs (.rawReset 0 1 true) (mk [hostSearch, p (QLN_STAT 1) QLN_STAT.SHORT 1])
      ∧ Runs (.modNibEntryWrite 0 385 0 77) (mk [fun s => s.put 1 FOL_MODENOW FOL_MODENOW.NSRCH 1])
      ∧ Runs (.modNibEntryWrite 1 4 2 (MOD_NIB_ENTRY.ASSOC.write (MOD_NIB_ENTRY.SLOT.write (MOD_NIB_ENTRY.STATE.write 0 2) 2) 16)) (mk [lane 0 true id])
      ∧ Runs (.nibRosterTransfer 0 none) (mk [at_ 34, p BIST_CFG BIST_CFG.PERIODIC 1, p BIST_STAT BIST_STAT.PART 5])
      ∧ Runs (.nibRosterTransfer 0 none) (mk [x fun d => { d with nib := { d.nib with dirty := [4, 9], sent := [(9, 2)] } }]) := by
  refine ⟨ran (((h 0 _ (iv ?_)).1 1 ?_ ?_ ?_ ?_).1 _), ran (((h 0 _ (iv ?_)).1 1 ?_ ?_ ?_ ?_).1 _),
    ran (((h 0 _ (iv ?_)).1 1 ?_ ?_ ?_ ?_).2.1 ?_ _ _), ran (((h 0 _ (iv ?_)).1 1 ?_ ?_ ?_ ?_).2.2.1 ?_ _ _ ?_ ?_),
    ran (((h 0 _ (iv ?_)).1 1 ?_ ?_ ?_ ?_).2.2.2.1 ?_ _ _ ?_ ?_), ran (((h 0 _ (iv ?_)).1 1 ?_ ?_ ?_ ?_).2.2.2.1 ?_ _ _ ?_ ?_),
    ran (((h 0 _ (iv ?_)).1 1 ?_ ?_ ?_ ?_).2.2.2.2 ?_ _ ?_),
    ran ((h 0 _ (iv ?_)).2.1 1 _ ?_ ?_ (.inr ⟨.inr (.inr (.inl ⟨_, _, rfl⟩)), .inl ?_⟩)), ran ((h 0 _ (iv ?_)).2.1 1 _ ?_ ?_ (.inl ⟨⟨_, rfl⟩, ?_⟩)),
    ran ((h 0 _ (iv ?_)).2.1 1 _ ?_ ?_ (.inr ⟨.inr (.inr (.inr ⟨_, rfl⟩)), .inr ?_⟩)),
    ⟨_, ((h 0 _ (iv ?_)).2.2.1 1 _ ?_ (.inr (.inr (.inl ⟨_, _, rfl⟩)))).1 ?_⟩, ran (((h 0 _ (iv ?_)).2.2.1 1 _ ?_ (.inr (.inl ⟨_, _, rfl⟩))).2 ?_ ?_),
    ran (((h 0 _ (iv ?_)).2.2.1 1 _ ?_ (.inl ⟨_, rfl⟩)).2 ?_ ?_), ran (((h 0 _ (iv ?_)).2.2.2.1 1 385 77 ?_ ?_ ?_ ?_ ?_ ?_).1 ?_),
    ran (((h 1 _ (iv ?_)).2.2.2.1 0 4 _ ?_ ?_ ?_ ?_ ?_ ?_).2 ?_ ?_ ?_ ?_), ⟨_, (h 0 _ (iv ?_)).2.2.2.2.1 ?_ none⟩,
    ran ((h 0 _ (iv ?_)).2.2.2.2.2 ?_ ?_ ?_)⟩ <;> decide +kernel

/-- The facts of a good start of die 0 with all 16 cells. -/
def good : BootFacts := ⟨true, true, 0, false, 0, 400, false, false, false, []⟩

/-- Die 0 without power. -/
def off0 : Chip → Chip := x fun d => { d with pwr := PwrX.reset }

/-- Only D0 of die 0 is powered, and MCLK stands. -/
def slept (target : Nat) (f : PwrX → PwrX) : Chip → Chip := fun s =>
  ((s.put 0 PWR_STATE PWR_STATE.STATE 3).put 0 PWR_ENTRY PWR_ENTRY.TARGET target).upd 0 fun d =>
    { d with pwr := f { d.pwr with on := (Vector.replicate 9 false).set 0 true, mclk := false } }

theorem wit_DiesStartResetAndWake (h : Obligations.DiesStartResetAndWake) :
    Runs (.coldStart 0 { good with cst := 8 }) (mk [off0]) ∧ Runs (.coldStart 0 { good with fuseOk := false }) (mk [off0])
      ∧ Runs (.coldStart 1 { good with pos := 2 }) (mk [fun s => s.upd 1 fun d => { d with pwr := PwrX.reset }])
      ∧ Runs (.coldStart 0 { good with top := true }) (mk [off0])
      ∧ Runs (.dieReset 0 good) (mk [p FCOL_STATE FCOL_STATE.STATE 2])
      ∧ Runs (.dieReset 0 good) (mk [p FCOL_STATE FCOL_STATE.STATE 3, x fun d => { d with boot := { d.boot with stuck := true } }])
      ∧ Runs (.wakeFromSleep 0 (2 ^ 40 - 2) good) (mk [slept 2 fun y => { y with wakeDue := true }]) := by
  refine ⟨ran (((h 0 _ _ (iv ?_) ?_).1 ?_ ?_).1 ?_ ?_ ?_ ?_ ?_ ?_ ?_ ?_), ran (((h 0 _ _ (iv ?_) ?_).1 ?_ ?_).2.1 (.inr ?_)),
    ran (((h 1 _ _ (iv ?_) ?_).1 ?_ ?_).2.2 ?_ ?_ (.inl ?_)), ran (((h 0 _ _ (iv ?_) ?_).1 ?_ ?_).2.2 ?_ ?_ (.inr ⟨?_, 1, ?_⟩)),
    ran ((h 0 _ _ (iv ?_) ?_).2.1 ?_), ran ((h 0 _ _ (iv ?_) ?_).2.1 ?_),
    ran ((h 0 _ _ (iv ?_) ?_).2.2 _ ?_ ?_ ?_ ?_ ?_ ?_)⟩ <;> decide +kernel

/-- Both folio copies of die 0 hold format 1 and no record. -/
def fol : Chip → Chip := x fun d => { d with fol := { d.fol with copyA := [(0, 1)], copyB := [(0, 1)] } }

theorem crc32c_lt (l : List Byte) : crc32c l < 2 ^ 32 := by unfold crc32c crcOf; exact Nat.mod_lt _ (by decide)

/-- A seal with the CRC-32C of the copy's own bytes finds no fault that the other checks do not find. -/
theorem seal_own (s : Chip) (d : Die) (seq : Nat) : s.sealError d seq (BitVec.ofNat 32 (crc32c (s.copyBytes d (s.inactiveB d)))).toNat =
    if s.bit d FOL_STAT FOL_STAT.PENDING then (1, 0)
    else if s.get d FOL_STAT FOL_STAT.ACTIVE < 2 ∧ s.copyValid d (s.get d FOL_STAT FOL_STAT.ACTIVE == 1)
      ∧ !(seqNewer seq (s.copySeq d (s.get d FOL_STAT FOL_STAT.ACTIVE == 1))) then (2, 0)
    else if (s.copyWord d (s.inactiveB d) 0).toNat % 65536 ≠ 1 ∨ 511 < (s.copyWord d (s.inactiveB d) 0).toNat / 65536 then (4, 0)
    else match (s.records d (s.inactiveB d)).find? fun r => Chip.recordBad r.2.1 with
      | some r => (5, r.1)
      | none => (0, 0) := by
  rw [BitVec.toNat_ofNat, Nat.mod_eq_of_lt (crc32c_lt _)]
  simp only [Chip.sealError, ne_eq, not_true_eq_false, if_false] <;> rfl

theorem wit_FolioCopiesAreWrittenSealedAndApplied (h : Obligations.FolioCopiesAreWrittenSealedAndApplied) :
    Runs (.folDataWrite 0 1023 7) (mk [fol, p FOL_STAT FOL_STAT.ACTIVE 0, p FOL_STAT FOL_STAT.BVALID 1])
      ∧ Runs (.folSealcrcWrite 0 (BitVec.ofNat 32 (crc32c ((mk [fol]).chip.copyBytes 0 ((mk [fol]).chip.inactiveB 0))))) (mk [fol])
      ∧ Runs (.folModeselWrite 0 0xFFFFFFFF) (mk [])
      ∧ Runs (.folioSwitch 0) (mk [at_ 8, fol, p FOL_STAT FOL_STAT.PENDING 1, p FOL_STAT FOL_STAT.AVALID 1, p FOL_MODESEL FOL_MODESEL.BAL 1])
      ∧ Runs (.folioReapply 0) (mk [at_ 8, fol, p FOL_STAT FOL_STAT.ACTIVE 1, p FOL_STAT FOL_STAT.BVALID 1,
          x fun d => { d with boot := { d.boot with reapply := some 3 } }]) := by
  refine ⟨ran ((h 0 _ (iv ?_) ?_).1 _ _ ?_ ?_), ran ((h 0 _ (iv ?_) ?_).2.1 _ ((congrArg Prod.fst (seal_own _ _ _)).trans ?_)), ran ((h 0 _ (iv ?_) ?_).2.2.1 _),
    ran ((h 0 _ (iv ?_) ?_).2.2.2.1 ?_ ?_ ?_), ran ((h 0 _ (iv ?_) ?_).2.2.2.2 3 ?_ ?_ ?_ ?_ ?_)⟩ <;> decide +kernel

/-- Die 0 is in an entry toward a target at a step. -/
def enter (target n : Nat) (f : PwrX → PwrX) : Chip → Chip := fun s =>
  (((s.put 0 PWR_STATE PWR_STATE.STATE 2).put 0 PWR_STATE PWR_STATE.TARGET target).put 0 PWR_STATE PWR_STATE.STEP n).upd 0 fun d =>
    { d with pwr := f { d.pwr with passed := n - 1 } }

theorem wit_EntryHandshakeAndAbandonment (h : Obligations.EntryHandshakeAndAbandonment) :
    Runs (.pwrHandshakeStep 0) (mk [at_ 9, enter 2 2 id])
      ∧ Runs (.pwrHandshakeStep 0) (mk [at_ 9, enter 2 5 id, owd fun o => { o with test := some ⟨true, false, false, 0, false, false, 1, false⟩ }])
      ∧ Runs (.pwrHandshakeStep 0) (mk [at_ 9, enter 1 6 id, p BOOT_LOAD BOOT_LOAD.STATE 1])
      ∧ Runs (.entryDelayLimit 0) (mk [at_ 9, p PWR_CFG PWR_CFG.DLYMAX 3, enter 2 5 fun y => { y with delays := [(0x07, 9), (0x01, 3), (0x03, 4)] },
          owd fun o => { o with test := some ⟨true, false, false, 0, false, false, 1, false⟩ }])
      ∧ Runs (.ringReleaseTimeout 0) (mk [at_ 9, p PWR_CFG PWR_CFG.RELTO 2, enter 2 7 fun y => { y with relStrokes := 2048 }, p PWR_STATE PWR_STATE.STATE 3])
      ∧ Runs (.pwrHandshakeStep 0) (mk [at_ 9, enter 1 4 fun y => { y with acked := true, ackAt := 7 }])
      ∧ Runs (.pwrHandshakeStep 0) (mk [at_ 9, enter 2 7 fun y => { y with acked := true, ackAt := 7 }])
      ∧ Runs (.entryAbandon 0) (mk [at_ 9, enter 3 7 fun y => { y with abandon := some (3, 63, 31, 7), passed := 7 }]) := by
  refine ⟨ran ((((h 0 2 _ (iv ?_) ?_ ?_ ?_).1 ?_ ?_ ?_ ?_).1 ?_).1 ?_ ?_), ran ((((h 0 5 _ (iv ?_) ?_ ?_ ?_).1 ?_ ?_ ?_ ?_).1 ?_).2.1 [0x03] ?_),
    ran ((((h 0 6 _ (iv ?_) ?_ ?_ ?_).1 ?_ ?_ ?_ ?_).1 ?_).2.2.1 0x20 4 ?_), ran ((((h 0 5 _ (iv ?_) ?_ ?_ ?_).1 ?_ ?_ ?_ ?_).1 ?_).2.2.2.1 0x03 4 [(0x07, 9), (0x01, 3)] [] ?_ ?_ ?_ ?_),
    ran ((((h 0 7 _ (iv ?_) ?_ ?_ ?_).1 ?_ ?_ ?_ ?_).1 ?_).2.2.2.2 ?_ ?_ ?_), ran ((((h 0 4 _ (iv ?_) ?_ ?_ ?_).1 ?_ ?_ ?_ ?_).2 ?_ ?_).1 6 ?_),
    ran ((((h 0 7 _ (iv ?_) ?_ ?_ ?_).1 ?_ ?_ ?_ ?_).2 ?_ ?_).2 ?_ ?_), ran ((h 0 7 _ (iv ?_) ?_ ?_ ?_).2 3 63 31 7 ?_ ?_ ?_ ?_ rfl)⟩ <;> decide +kernel

theorem wit_WakesLevelsAndPads (h : Obligations.WakesLevelsAndPads) :
    Runs (.domainRestart 0) (mk [at_ 12, x fun d => { d with pwr := { d.pwr with restart := [1, 5], ackAt := 11 } }])
      ∧ Runs (.domainRestart 0) (mk [at_ 13, x fun d => { d with pwr := { d.pwr with restart := [3], ackAt := 11 } }])
      ∧ Runs (.pwrWake 0) (mk [p PWR_STATE PWR_STATE.STATE 1])
      ∧ Runs (.dozeCommandWake 0) (mk [p PWR_STATE PWR_STATE.STATE 1, x fun d => { d with pwr := { d.pwr with on := d.pwr.on.set 5 false } }, jnl [ent 3 0x10 ((leBytes 4 0) ++ (leBytes 4 0) ++ leBytes 4 0 ++ leBytes 4 0) .accepted]])
      ∧ Runs (.wakePin 0 0 true 4) (mk [slept 2 id, p PWR_WAKECFG PWR_WAKECFG.W0EN 1, p PWR_WAKECFG PWR_WAKECFG.W0POL 0, p PWR_WAKECFG PWR_WAKECFG.W0FILT 3])
      ∧ Runs (.wakeBurstDetected 0 .a) (mk [slept 2 id]) ∧ Runs (.wakeLineAsserted 0) (mk [slept 2 fun y => { y with lineDue := true }])
      ∧ Runs (.perfLevelTransitionEnd 0) (mk [p PWR_STATE PWR_STATE.PLBUSY 1, x fun d => { d with pwr := { d.pwr with plNext := some 1 } }, p PWR_CFG PWR_CFG.PLREQ 1, p PWR_STATE PWR_STATE.PLCAP 3])
      ∧ Runs (.woclr 0) (mk [p PWR_STATE PWR_STATE.WOUT 1]) ∧ Runs (.padrel 0 0xFFFF) (mk [p PWR_PAD PWR_PAD.HELD 63]) := by
  refine ⟨ran ((h 0 _ (iv ?_)).1 1 [5] ?_ ?_ ?_ ?_), ran ((h 0 _ (iv ?_)).1 3 [] ?_ ?_ ?_ ?_), ran (((h 0 _ (iv ?_)).2.1 ?_ ?_ ?_).1),
    ran (((h 0 _ (iv ?_)).2.1 ?_ ?_ ?_).2 ?_), ran (((h 0 _ (iv ?_)).2.2.1 ?_ ?_).1 ?_ ?_ 4 ?_), ran (((h 0 _ (iv ?_)).2.2.1 ?_ ?_).2.1 .a ?_ ?_ ?_),
    ran (((h 0 _ (iv ?_)).2.2.1 ?_ ?_).2.2 ?_), ran (((h 0 _ (iv ?_)).2.2.2 ?_).1 1 ?_ ?_ ?_), ran (((h 0 _ (iv ?_)).2.2.2 ?_).2.1),
    ran (((h 0 _ (iv ?_)).2.2.2 ?_).2.2 _)⟩ <;> decide +kernel

theorem wit_CommitSleepAndNightcap (h : Obligations.CommitSleepAndNightcap) :
    Runs (.sleepCommit 0 5 ⟨6, 900⟩) (mk [at_ 9, enter 1 6 fun y => { y with commitDue := true, ackAt := 8 }])
      ∧ Runs (.sleepCommit 0 5 ⟨6, 900⟩) (mk [at_ 9, enter 2 7 fun y => { y with commitDue := true, ackAt := 8 }])
      ∧ Runs (.sleepCommit 0 5 ⟨6, 900⟩) (mk [at_ 9, enter 3 7 fun y => { y with commitDue := true, ackAt := 8 }])
      ∧ Runs (.sleepCommit 0 5 ⟨6, 0⟩) (mk [at_ 9, enter 4 7 fun y => { y with commitDue := true, ackAt := 8 }])
      ∧ Runs (.sleepTickSaturate 0) (mk [slept 3 id])
      ∧ Runs (.nightcapCheck 0 [5000, 5000] [5000, 5000] 100 100 29100 29100 [] ⟨false, 7⟩)
        (mk [slept 2 fun y => { y with ncOv := 60000, ncUv := 10 }, p PWR_NSTAT PWR_NSTAT.CHECKS 0xFFFF])
      ∧ Runs (.nightcapRecheck 0 [5000, 5000] [5000, 5000] 100 100 29109 29100 [] ⟨false, 7⟩)
        (mk [slept 2 fun y => { y with ncOv := 60000, ncUv := 10, ncAgain := true }])
      ∧ Runs (.nightcapCheck 0 [] [] 0 0 0 0 [] ⟨true, 7⟩) (mk [slept 2 id])
      ∧ Runs (.nightcapRecheck 0 [] [] 0 0 0 0 [] ⟨true, 7⟩) (mk [slept 2 fun y => { y with ncAgain := true }]) := by
  refine ⟨ran (((h 0 _ (iv ?_)).1 _ _ _ ?_ ?_ ?_ ?_ ?_ ?_).1 ?_), ran (((h 0 _ (iv ?_)).1 _ _ _ ?_ ?_ ?_ ?_ ?_ ?_).2.1 (.inl ?_)),
    ran (((h 0 _ (iv ?_)).1 _ _ _ ?_ ?_ ?_ ?_ ?_ ?_).2.1 (.inr ?_)),
    ran (((h 0 _ (iv ?_)).1 _ _ _ ?_ ?_ ?_ ?_ ?_ ?_).2.2 ?_), ran (((h 0 _ (iv ?_)).2 ?_).1),
    ran ((((h 0 _ (iv ?_)).2 ?_).2 _ _ _ _ _ _ _ _ ?_ ?_ ?_ ?_).1 _ (.inl ⟨rfl, ?_⟩)),
    ran ((((h 0 _ (iv ?_)).2 ?_).2 _ _ _ _ _ _ _ _ ?_ ?_ ?_ ?_).1 _ (.inr ⟨rfl, ?_⟩)),
    ran ((((h 0 _ (iv ?_)).2 ?_).2 _ _ _ _ _ _ _ _ ?_ ?_ ?_ ?_).2.1 ?_), ran ((((h 0 _ (iv ?_)).2 ?_).2 _ _ _ _ _ _ _ _ ?_ ?_ ?_ ?_).2.2 ?_)⟩ <;> decide +kernel

theorem wit_SupplyDipsLossAndOvervoltage (h : Obligations.SupplyDipsLossAndOvervoltage) :
    Runs (.supplyDip 0 2274) (mk [p PWR_DIP PWR_DIP.DIPS 255])
      ∧ Runs (.supplyDipEnd 0 2301) (mk [p PWR_STATE PWR_STATE.DIP 1, p PWR_DIP PWR_DIP.LIVE 1, p CXS_STATUS CXS_STATUS.DIP 1,
          x fun d => { d with pwr := { d.pwr with dipGood := 16, dipLen := 70000 } }])
      ∧ Runs (.supplyLoss 0 true false) (mk [at_ 77])
      ∧ Runs (.lastgaspSend 0) (mk [x fun d => { d with pwr := { d.pwr with gasp := some (3, 77) } }])
      ∧ Runs (.powerOnReset 0) (mk [x fun d => { d with pwr := { d.pwr with gasp := some (3, 77) } }])
      ∧ exec (.vstkOvervoltage 0 50001) (mk []) = .fault .outsideAbsoluteMaximum
      ∧ Runs (.vstkOvervoltage 0 50000) (mk []) ∧ Runs (.vstkOvervoltageClear 0 45999) (mk [p PWR_SUPPLY PWR_SUPPLY.OVLIVE 1]) := by
  refine ⟨ran ((h 0 2274 _ (iv ?_)).1 ?_ ?_ ?_ ?_ ?_ ?_), ran ((h 0 2301 _ (iv ?_)).2.1 ?_ ?_ ?_ ?_ ?_), ran ((h 0 0 _ (iv ?_)).2.2.1 _ _ ?_ ?_ ?_ ?_),
    ran (((h 0 0 _ (iv ?_)).2.2.2.1 (3, 77) ?_).1 ?_ ?_ ?_), ran (((h 0 0 _ (iv ?_)).2.2.2.1 (3, 77) ?_).2 ?_),
    (h 0 50001 _ (iv ?_)).2.2.2.2.1 ?_, ran (((h 0 50000 _ (iv ?_)).2.2.2.2.2 ?_ ?_).1 ?_ ?_ ?_), ran (((h 0 45999 _ (iv ?_)).2.2.2.2.2 ?_ ?_).2 ?_ ?_)⟩
    <;> decide +kernel

/-- Triggers seen by die 0. -/
def trig (n : Nat) : Chip → Chip := x fun d => { d with snap := { d.snap with trig := n } }

theorem wit_SnapshotsTriggerLatchAndRearm (h : Obligations.SnapshotsTriggerLatchAndRearm) :
    Runs (.blotInEdge 0 true 5) (mk [p MOD_SNAP_CFG MOD_SNAP_CFG.PIN_EN 1]) ∧ exec (.blotLineEdge 3 0 ⟨5, false⟩) (mk [trig 1]) = .next (mk [trig 1])
      ∧ Runs (.blotInEdge 0 true 5) (mk [p MOD_SNAP_CFG MOD_SNAP_CFG.PIN_EN 1, x fun d => { d with pwr := { d.pwr with mclk := false } }])
      ∧ Runs (.blotLineEdge 3 0 ⟨5, false⟩) (mk [trig 2]) ∧ Runs (.blotLineEdge 3 0 ⟨1023, true⟩) (mk [trig 16])
      ∧ Runs (.snapshotLatch 0) (mk [trig 63]) ∧ Runs (.snapshotLatch 0) (mk [trig 63, p SNAP_HDR0 SNAP_HDR0.HELD 1, p MOD_SNAP_STAT MOD_SNAP_STAT.MISSED 255])
      ∧ Runs (.snapCtrlArm 0 true) (mk [p MOD_SNAP_STAT MOD_SNAP_STAT.UNREAD 5]) ∧ Runs (.fire 0) (mk [])
      ∧ Runs (.snapHdr0Read 0 false) (mk [p SNAP_HDR0 SNAP_HDR0.HELD 1, fun s => s.putAll MOD_SNAP_STAT MOD_SNAP_STAT.UNREAD 255]) := by
  refine ⟨ran ((h 0 _ (iv ?_)).1 5 ?_ ?_ ?_ ?_), (h 3 _ (iv ?_)).2.2.1 0 ⟨5, false⟩ ?_,
    ran ((h 0 _ (iv ?_)).2.1 true 5 ?_ ?_ ?_ ?_), ran ((h 3 _ (iv ?_)).2.2.2.1 0 5 false ?_ ?_ ?_ ?_), ran ((h 3 _ (iv ?_)).2.2.2.1 0 1023 true ?_ ?_ ?_ ?_),
    ran (((h 0 _ (iv ?_)).2.2.2.2.1 ?_ ?_).1 ?_), ran (((h 0 _ (iv ?_)).2.2.2.2.1 ?_ ?_).2 ?_), ran ((h 0 _ (iv ?_)).2.2.2.2.2.1 true ?_ ?_),
    ran ((h 0 _ (iv ?_)).2.2.2.2.2.2.1 ?_), ran ((h 0 _ (iv ?_)).2.2.2.2.2.2.2 _ ?_ ?_)⟩ <;> decide +kernel

/-- The fuses of die 0. -/
def lcy (f : LcyX → LcyX) : Chip → Chip := x fun d => { d with lcy := f d.lcy }

/-- Die 0 computes a check value with the parameters of CRC-32C. -/
def chk (busy : Nat) (pl : Option (List Byte)) : Chip → Chip := fun s =>
  (((s.loadSet 0 1).put 0 CHK_STAT CHK_STAT.BUSY busy).put 0 CHK_LEN CHK_LEN.LEN 3).upd 0 fun d => { d with chk := { d.chk with payload := pl, addr := 0, len := 3 } }

theorem wit_LifecycleFusesAndCheckValues (h : Obligations.LifecycleFusesAndCheckValues) :
    Runs (.lifecycleTransitionDone 0) (mk [lcy fun l => { l with target := some (4, 0, 2) }]) ∧ Runs (.lifecycleTransitionDone 0) (mk [lcy fun l => { l with target := some (3, 0, 2) }])
      ∧ Runs (.programSlot 0 3) (mk [w (LCY_FUSEDATA 2) 7]) ∧ Runs (.revokeSlot 0 2) (mk [p LCY_STATE LCY_STATE.STATE 1]) ∧ Runs (.programServiceKey 0) (mk [])
      ∧ Runs (.keyFuseProgrammingDone 0 true) (mk [lcy fun l => { l with keyOp := some (1, 3, List.replicate 64 9) }])
      ∧ Runs (.keyFuseProgrammingDone 0 true) (mk [lcy fun l => { l with keyOp := some (2, 3, []) }])
      ∧ Runs (.keyFuseProgrammingDone 0 true) (mk [lcy fun l => { l with keyOp := some (3, 0, List.replicate 64 9) }])
      ∧ Runs (.chkGo 0 true) (mk [chk 0 none]) ∧ Runs (.chkGo 0 false) (mk [chk 1 none]) ∧ Runs (.chkAbort 0) (mk [chk 1 none])
      ∧ Runs (.chkRunDone 0 none) (mk [chk 1 (some [1, 2, 3])]) ∧ Runs (.chkRunDone 0 none) (mk [chk 1 none])
      ∧ Runs (.chkRunDone 0 none) (mk [chk 1 none, p FCOL_INJ FCOL_INJ.ARMED 6, p FCOL_INJ FCOL_INJ.REMAIN 1])
      ∧ Runs (.chkRunDone 0 (some .other)) (mk [chk 1 none])
      ∧ Runs (.chkRunDone 0 none) (mk [chk 1 none, p FCOL_INJ FCOL_INJ.ARMED 7, p FCOL_INJ FCOL_INJ.REMAIN 1]) := by
  refine ⟨ran ((h 0 _ (iv ?_)).1 4 0 2 ?_ rfl ?_ ?_), ran ((h 0 _ (iv ?_)).1 3 0 2 ?_ rfl ?_ ?_),
    ran ((h 0 _ (iv ?_)).2.1 3 1 _ (.inl ⟨rfl, rfl⟩) ?_ ?_ ?_), ran ((h 0 _ (iv ?_)).2.1 2 2 _ (.inr (.inl ⟨rfl, rfl⟩)) ?_ ?_ ?_),
    ran ((h 0 _ (iv ?_)).2.1 0 3 _ (.inr (.inr ⟨rfl, rfl, rfl⟩)) ?_ ?_ ?_), ran ((h 0 _ (iv ?_)).2.2.1 1 3 _ ?_ ?_ rfl),
    ran ((h 0 _ (iv ?_)).2.2.1 2 3 _ ?_ ?_ rfl), ran ((h 0 _ (iv ?_)).2.2.1 3 0 _ ?_ ?_ rfl),
    ran (((h 0 _ (iv ?_)).2.2.2 ?_).1 _ ?_ ?_ ?_), ran ((((h 0 _ (iv ?_)).2.2.2 ?_).2 ?_).1 _), ran (((((h 0 _ (iv ?_)).2.2.2 ?_).2 ?_).2 ?_ ?_ 0 rfl).1),
    ran (((((h 0 _ (iv ?_)).2.2.2 ?_).2 ?_).2 ?_ ?_ 0 rfl).2.1 _ rfl), ran ((((((h 0 _ (iv ?_)).2.2.2 ?_).2 ?_).2 ?_ ?_ 0 rfl).2.2 ?_).1 ?_ ?_),
    ran ((((((h 0 _ (iv ?_)).2.2.2 ?_).2 ?_).2 ?_ ?_ 0 rfl).2.2 ?_).2.1 ?_), ran ((((((h 0 _ (iv ?_)).2.2.2 ?_).2 ?_).2 ?_ ?_ 0 rfl).2.2 ?_).2.2 _ (.inl rfl)),
    ran ((((((h 0 _ (iv ?_)).2.2.2 ?_).2 ?_).2 ?_ ?_ 0 rfl).2.2 ?_).2.2 none (.inr ?_))⟩ <;> decide +kernel

/-- A command frame to die 0 of module 5. -/
def cmdTo (op sess : Nat) (q : List Byte) : FrameIn :=
  ⟨2, false, false, false, 5, 0, 0, 0, 3, 9, (leBytes 2 op ++ leBytes 2 sess ++ leBytes 4 0 ++ q).length, leBytes 2 op ++ leBytes 2 sess ++ leBytes 4 0 ++ q, true, true, true⟩

/-- Die 1, the guardian of die 0, mirrors an entry of it. -/
def mirrored (e : Entry) : Chip → Chip := fun s => s.upd 1 fun d => { d with jnl := { d.jnl with mirrors := [(0, e)] } }

/-- SEQ 9 is expected by die 0. -/
def exp9 : Chip → Chip := p JNL_STAT JNL_STAT.EXPECT 9

theorem wit_JournalTakesMirrorsAndReleases (h : Obligations.JournalTakesMirrorsAndReleases) :
    Runs (.cmdFrameArrival 0 (cmdTo 2 7 (leBytes 8 0x100000000))) (mk [exp9])
      ∧ Runs (.cmdFrameArrival 0 (cmdTo 2 7 [])) (mk [exp9, jnl [{ ent 9 2 [] .answered with results := List.replicate 32 1, lost := true }]])
      ∧ Runs (.journalMirrorReceived 1 0 9) (mk [jnl [ent 9 2 [] .accepted]])
      ∧ Runs (.commitRecordReceived 1 0 9) (mk [jnl [ent 9 2 [] .committed], mirrored (ent 9 2 [] .accepted)])
      ∧ Runs (.mirrorAckReceived 0 9) (mk [exp9, jnl [ent 9 2 [] .accepted], mirrored (ent 9 2 [] .accepted)])
      ∧ Runs (.commitAckReceived 0 9) (mk [jnl [{ ent 9 3 [] .committed with effects := [.write 0x200000 5] }], mirrored (ent 9 3 [] .committed)])
      ∧ Runs (.commitAckReceived 0 9) (mk [jnl [{ common with released := false }], mirrored common])
      ∧ Runs (.commitAckReceived 0 9) (mk [jnl [{ ent 9 0xB0 (leBytes 4 0) .committed with effects := [.act 0xB0 (leBytes 4 0)] }], mirrored (ent 9 0xB0 (leBytes 4 0) .committed)])
      ∧ Runs (.seqGapEvent 0) (mk [at_ 9, p JNL_STAT JNL_STAT.GAPWAIT 1, p JNL_CFG JNL_CFG.GAPTO 2, x fun d => { d with jnl := { d.jnl with gapStrokes := 2048 } }]) := by
  refine ⟨ran (((h 0 _ (iv ?_)).1 _ ?_ ?_ ?_ ?_ ?_ ?_ ?_ ?_ ?_ ?_ ?_ ?_ ?_ ?_).1 ?_ ?_ ?_ ?_),
    ran (((h 0 _ (iv ?_)).1 _ ?_ ?_ ?_ ?_ ?_ ?_ ?_ ?_ ?_ ?_ ?_ ?_ ?_ ?_).2 { ent 9 2 [] .answered with results := List.replicate 32 1, lost := true } ?_ ?_),
    ran (((h 1 _ (iv ?_)).2.1 0 9 (ent 9 2 [] .accepted) ?_ ?_).1 ?_), ran (((h 1 _ (iv ?_)).2.1 0 9 (ent 9 2 [] .committed) ?_ ?_).2 ?_),
    ran (((h 0 _ (iv ?_)).2.2.1 1 9 (ent 9 2 [] .accepted) (ent 9 2 [] .accepted) ?_ ?_ ?_ ?_).1 ?_ ?_ ?_),
    ran ((((h 0 _ (iv ?_)).2.2.1 1 9 { ent 9 3 [] .committed with effects := [.write 0x200000 5] } (ent 9 3 [] .committed) ?_ ?_ ?_ ?_).2.2 ?_ ?_ ?_ ?_).1 ?_),
    ran (((h 0 _ (iv ?_)).2.2.1 1 9 { common with released := false } common ?_ ?_ ?_ ?_).2.1 ?_ ?_ ?_ ?_),
    ran ((((h 0 _ (iv ?_)).2.2.1 1 9 { ent 9 0xB0 (leBytes 4 0) .committed with effects := [.act 0xB0 (leBytes 4 0)] } (ent 9 0xB0 (leBytes 4 0) .committed)
      ?_ ?_ ?_ ?_).2.2 ?_ ?_ ?_ ?_).2 (leBytes 4 0) ?_ ?_ ?_),
    ran ((h 0 _ (iv ?_)).2.2.2 ?_ ?_ ?_ ?_ ?_)⟩ <;> decide +kernel

/-- The entry of the register table at a local address. -/
def desc (a : Nat) (h : (regDesc a).isSome = true) : RegDesc := (regDesc a).get h

theorem desc_eq (a : Nat) (h : (regDesc a).isSome = true) : regDesc a = some (desc a h) := (Option.some_get h).symm

theorem wit_RegisterWritesPingEnumerateAndCheck (h : Obligations.RegisterWritesPingEnumerateAndCheck) :
    Runs (.registerWrite 0 (fullAddr 0 OWD_CONFIG) 0xFFFFFFFF) (mk [x fun d => { d with boot := { d.boot with locked := [OWD_CONFIG] } }])
      ∧ Runs (.registerWrite 0 (fullAddr 0 OWD_CLASS_HI) 0xF000F00F) (mk [w OWD_CLASS_HI 0x11111111])
      ∧ Runs (.registerWrite 7 (fullAddr 7 (BCE_B0 3)) 0xFFFFFFFF) (mk []) ∧ Runs (.registerWrite 0 (fullAddr 0 (MOD_FINESEL 3)) 0xFFFFFFFF) (mk [])
      ∧ Runs (.registerWrite 0 (fullAddr 0 SHD_OV) 0xFFFFFFFF) (mk []) ∧ Runs (.registerWrite 0 (fullAddr 0 SHD_STATUS) 0xFFFFFFFF) (mk [w SHD_STATUS 7])
      ∧ Runs (.registerWrite 0 (fullAddr 0 MOD_SNAP_CFG) 0xFFFFFFFF) (mk [])
      ∧ Runs (.ping 0 (cmdTo 1 3 [])) (mk []) ∧ Runs (.enumerate 0 { cmdTo 4 0 [126, 0, 0xFF, 0xFF] with dmod := 0 }) (mk [fun s => s.each allDies fun d s => s.put d MOD_TOPOLOGY MOD_TOPOLOGY.ADDRESS 0])
      ∧ Runs (.check 0 9) (mk [exp9, jnl [ent 9 0xC0 ([1, 0, 0, 0] ++ leBytes 4 0x100000 ++ leBytes 4 65536) .accepted]]) := by
  refine ⟨ran ((h 0 _ (iv ?_) ?_ ?_).1 OWD_CONFIG _ _ ?_ ?_ (desc_eq _ ?_) ?_ ?_ ?_ ?_), ran ((h 0 _ (iv ?_) ?_ ?_).1 OWD_CLASS_HI _ _ ?_ ?_ (desc_eq _ ?_) ?_ ?_ ?_ ?_),
    ran ((h 7 _ (iv ?_) ?_ ?_).1 (BCE_B0 3) _ _ ?_ ?_ (desc_eq _ ?_) ?_ ?_ ?_ ?_), ran ((h 0 _ (iv ?_) ?_ ?_).2.1 (MOD_FINESEL 3) _ _ ?_ ?_ (desc_eq _ ?_) ?_ ?_ ?_ ?_),
    ran (((h 0 _ (iv ?_) ?_ ?_).2.2.1 _ ?_).1), ran (((h 0 _ (iv ?_) ?_ ?_).2.2.1 _ ?_).2), ran ((h 0 _ (iv ?_) ?_ ?_).2.2.2.1 _),
    ran ((h 0 _ (iv ?_) ?_ ?_).2.2.2.2.1 _ ?_ ?_ ?_ ?_ ?_ ?_ ?_ ?_ ?_), ran ((h 0 _ (iv ?_) ?_ ?_).2.2.2.2.2.1 _ ?_ ?_ ?_ ?_ ?_ ?_ ?_ ?_ ?_ ?_ ?_),
    ran ((h 0 _ (iv ?_) ?_ ?_).2.2.2.2.2.2 9 (ent 9 0xC0 ([1, 0, 0, 0] ++ leBytes 4 0x100000 ++ leBytes 4 65536) .accepted) ([1, 0, 0, 0] ++ leBytes 4 0x100000 ++ leBytes 4 65536)
      ?_ ?_ ?_ ?_ ?_ ?_ ?_)⟩ <;> first | decide +kernel | (unfold Chip.ready; decide +kernel)

/-- Words as parameters. -/
def ws (l : List Nat) : List Byte := (l.map (leBytes 4)).flatten

/-- Die 0 holds at its turn the command with SEQ 9, an opcode and parameters. -/
def turn (op : Nat) (q : List Byte) (fs : List (Chip → Chip)) : State := mk (fs ++ [exp9, jnl [ent 9 op q .accepted]])

theorem wit_ReadingCommandsCommitTheirResults (h : Obligations.ReadingCommandsCommitTheirResults) :
    Runs (.ringStatus 0 9) (turn 0x51 [] []) ∧ Runs (.folioStatus 0 9) (turn 0x72 [] []) ∧ Runs (.faultRead 0 9) (turn 0x80 [] [])
      ∧ Runs (.sleepAbortStatus 0 9) (turn 0x92 [] []) ∧ Runs (.lcyStatus 0 9) (turn 0xE0 [] []) ∧ Runs (.loadStatus 0 9) (turn 0x63 (leBytes 4 3) [])
      ∧ Runs (.read 0 9) (turn 2 (ws [fullAddr 0 SHD_OV, 126]) [p SNAP_HDR0 SNAP_HDR0.HELD 1])
      ∧ Runs (.eisResults 0 9) (turn 0x32 [3, 15, 1, 31] []) ∧ Runs (.nibRead 0 9) (turn 0x40 (leBytes 2 3041 ++ leBytes 2 31) [])
      ∧ Runs (.snapRead 0 9) (turn 0xD0 ([0xFF, 0] ++ leBytes 2 0 ++ leBytes 4 2) [p SNAP_HDR0 SNAP_HDR0.HELD 1])
      ∧ Runs (.lcyChallenge 0 9) (turn 0xE1 [] [p LCY_KEYS LCY_KEYS.SKEY 1]) := by
  refine ⟨ran ((h 0 9 [] (ent 9 0x51 [] .accepted) _ (iv ?_)).1 _ _ _ _ (.head _) ?_), ran ((h 0 9 [] (ent 9 0x72 [] .accepted) _ (iv ?_)).1 _ _ _ _ (.tail _ (.head _)) ?_),
    ran ((h 0 9 [] (ent 9 0x80 [] .accepted) _ (iv ?_)).1 _ _ _ _ (.tail _ (.tail _ (.head _))) ?_),
    ran ((h 0 9 [] (ent 9 0x92 [] .accepted) _ (iv ?_)).1 _ _ _ _ (.tail _ (.tail _ (.tail _ (.head _)))) ?_),
    ran ((h 0 9 [] (ent 9 0xE0 [] .accepted) _ (iv ?_)).1 _ _ _ _ (.tail _ (.tail _ (.tail _ (.tail _ (.head _))))) ?_),
    ran ((h 0 9 (leBytes 4 3) (ent 9 0x63 (leBytes 4 3) .accepted) _ (iv ?_)).1 _ _ _ _ (.tail _ (.tail _ (.tail _ (.tail _ (.tail _ (.head _)))))) ?_),
    ran ((h 0 9 (ws [fullAddr 0 SHD_OV, 126]) (ent 9 2 (ws [fullAddr 0 SHD_OV, 126]) .accepted) _ (iv ?_)).2.1 ?_ ?_ ?_ ?_ ?_),
    ran ((h 0 9 [3, 15, 1, 31] (ent 9 0x32 [3, 15, 1, 31] .accepted) _ (iv ?_)).2.2.1 ?_ ?_ ?_ ?_ ?_ ?_),
    ran ((h 0 9 (leBytes 2 3041 ++ leBytes 2 31) (ent 9 0x40 (leBytes 2 3041 ++ leBytes 2 31) .accepted) _ (iv ?_)).2.2.2.1 ?_ ?_ ?_ ?_),
    ran ((h 0 9 ([0xFF, 0] ++ leBytes 2 0 ++ leBytes 4 2) (ent 9 0xD0 ([0xFF, 0] ++ leBytes 2 0 ++ leBytes 4 2) .accepted) _ (iv ?_)).2.2.2.2.1 ?_ ?_ ?_ ?_),
    ran ((h 0 9 [] (ent 9 0xE1 [] .accepted) _ (iv ?_)).2.2.2.2.2 ?_ ?_ ?_)⟩ <;> first | decide +kernel | (unfold Chip.ready; decide +kernel)

theorem wit_WritingCommandsCommitTheirWrites (h : Obligations.WritingCommandsCommitTheirWrites) :
    Runs (.streamSet 0 9) (turn 0x10 (ws [1, 2, 3, 7]) []) ∧ Runs (.fineSelect 0 9) (turn 0x11 (ws [1, 2, 0, 0xFFFF]) [])
      ∧ Runs (.balManager 0 9) (turn 0x20 (ws [1, 2, 3, 4]) []) ∧ Runs (.ringRole 0 9) (turn 0x50 (ws [1]) [])
      ∧ Runs (.faultClear 0 9) (turn 0x81 (ws [1, 2, 3, 4, 5, 6, 7, 8]) [])
      ∧ Runs (.eisPlan 0 9) (turn 0x30 (ws [2, 2, 3, 16, 0x64001, 17, 0x64001]) [])
      ∧ Runs (.eisStart 0 9) (turn 0x31 (ws [0x10000]) [stage, plans])
      ∧ Runs (.ztModel 0 9) (turn 0x33 (ws [1, 0x8000, 3, 4, 5]) [])
      ∧ Runs (.balCharge 0 9) (turn 0x21 [2, 0, 1, 0, 0, 0, 15, 0xFF, 0xFF, 0xFF, 0xFF] [stage])
      ∧ Runs (.balBleed 0 9) (turn 0x22 (leBytes 2 0x8000 ++ leBytes 2 256) [p FOL_MODENOW FOL_MODENOW.BAL 1])
      ∧ Runs (.nibLane 0 9) (turn 0x43 [3, 2, 0, 0] []) ∧ Runs (.nibAssoc 0 9) (turn 0x41 [1, 0, 0, 0, 4, 0, 16, 0] [lane 0 true id])
      ∧ Runs (.nibAction 0 9) (turn 0x42 [1, 0, 0, 0, 4, 0, 4, 0] [lane 0 true id])
      ∧ Runs (.snapArm 0 9) (turn 0xD1 [] []) ∧ Runs (.write 0 9) (turn 3 (ws [fullAddr 0 SHD_OV, 1, 5]) []) := by
  refine ⟨ran (((h 0 9 (ws [1, 2, 3, 7]) (ent 9 0x10 (ws [1, 2, 3, 7]) .accepted) _ (iv ?_)).1 _ fun _ => rfl).1 ?_),
    ran (((h 0 9 (ws [1, 2, 0, 0xFFFF]) (ent 9 0x11 (ws [1, 2, 0, 0xFFFF]) .accepted) _ (iv ?_)).1 _ fun _ => rfl).2.1 ?_ ?_),
    ran (((h 0 9 (ws [1, 2, 3, 4]) (ent 9 0x20 (ws [1, 2, 3, 4]) .accepted) _ (iv ?_)).1 _ fun _ => rfl).2.2.1 ?_),
    ran (((h 0 9 (ws [1]) (ent 9 0x50 (ws [1]) .accepted) _ (iv ?_)).1 _ fun _ => rfl).2.2.2.1 ?_),
    ran (((h 0 9 (ws [1, 2, 3, 4, 5, 6, 7, 8]) (ent 9 0x81 (ws [1, 2, 3, 4, 5, 6, 7, 8]) .accepted) _ (iv ?_)).1 _ fun _ => rfl).2.2.2.2.1 ?_),
    ran (((h 0 9 (ws [2, 2, 3, 16, 0x64001, 17, 0x64001]) (ent 9 0x30 (ws [2, 2, 3, 16, 0x64001, 17, 0x64001]) .accepted) _ (iv ?_)).1 _ fun _ => rfl).2.2.2.2.2.1 ?_ ?_ ?_),
    ran (((h 0 9 (ws [0x10000]) (ent 9 0x31 (ws [0x10000]) .accepted) _ (iv ?_)).1 _ fun _ => rfl).2.2.2.2.2.2.1 ?_ ?_),
    ran (((h 0 9 (ws [1, 0x8000, 3, 4, 5]) (ent 9 0x33 (ws [1, 0x8000, 3, 4, 5]) .accepted) _ (iv ?_)).1 _ fun _ => rfl).2.2.2.2.2.2.2 15 ?_ ?_ ?_),
    ran ((h 0 9 [2, 0, 1, 0, 0, 0, 15, 0xFF, 0xFF, 0xFF, 0xFF] (ent 9 0x21 [2, 0, 1, 0, 0, 0, 15, 0xFF, 0xFF, 0xFF, 0xFF] .accepted) _ (iv ?_)).2.1 ?_ ?_ ?_ ?_),
    ran ((h 0 9 (leBytes 2 0x8000 ++ leBytes 2 256) (ent 9 0x22 (leBytes 2 0x8000 ++ leBytes 2 256) .accepted) _ (iv ?_)).2.2.1 15 ?_ ?_ ?_ ?_ ?_),
    ran ((h 0 9 [3, 2, 0, 0] (ent 9 0x43 [3, 2, 0, 0] .accepted) _ (iv ?_)).2.2.2.1 _ (.tail _ (.tail _ (.head _))) ?_),
    ran ((h 0 9 [1, 0, 0, 0, 4, 0, 16, 0] (ent 9 0x41 [1, 0, 0, 0, 4, 0, 16, 0] .accepted) _ (iv ?_)).2.2.2.2.1 true _ 0x41 _ (.head _) ?_ ?_ ?_ rfl ?_),
    ran ((h 0 9 [1, 0, 0, 0, 4, 0, 4, 0] (ent 9 0x42 [1, 0, 0, 0, 4, 0, 4, 0] .accepted) _ (iv ?_)).2.2.2.2.1 false _ 0x42 _ (.tail _ (.head _)) ?_ ?_ ?_ rfl ?_),
    ran ((h 0 9 [] (ent 9 0xD1 [] .accepted) _ (iv ?_)).2.2.2.2.2.1 ?_ ?_),
    ran ((h 0 9 (ws [fullAddr 0 SHD_OV, 1, 5]) (ent 9 3 (ws [fullAddr 0 SHD_OV, 1, 5]) .accepted) _ (iv ?_)).2.2.2.2.2.2 ?_ ?_ ?_ ?_)⟩
    <;> first | decide +kernel | (unfold Chip.ready; decide +kernel)

theorem wit_ActingCommandsCommitTheirActs (h : Obligations.ActingCommandsCommitTheirActs) :
    Runs (.balStop 0 9) (turn 0x23 [3, 0, 0, 0] []) ∧ Runs (.folioWrite 0 9) (turn 0x70 (leBytes 2 4092 ++ leBytes 2 4 ++ [1, 2, 3, 4]) [])
      ∧ Runs (.faultInject 0 9) (turn 0x83 [13, 15, 0, 0] []) ∧ Runs (.powerState 0 9) (turn 0x90 ([2, 0] ++ leBytes 2 3600) [])
      ∧ Runs (.perfLevel 0 9) (turn 0x91 [3, 0, 0, 0] []) ∧ Runs (.selftestRun 0 9) (turn 0xA0 [2, 255, 0, 0] [])
      ∧ Runs (.calRun 0 9) (turn 0xB0 [1, 0, 0, 0] [p LCY_STATE LCY_STATE.STATE 3])
      ∧ Runs (.folioSeal 0 9) (turn 0x71 (ws [0, 1516042199]) [fol])
      ∧ Runs (.faultResume 0 9) (turn 0x82 [] []) ∧ Runs (.lcyResponse 0 9) (turn 0xE2 (List.replicate 64 3) []) ∧ Runs (.lcyAdvance 0 9) (turn 0xE3 [1, 0x5A, 0xA5, 0x3C] [])
      ∧ Runs (.loadBegin 0 (.entry 9)) (turn 0x60 (ws [600, 5, 0x90002]) []) ∧ Runs (.loadData 0 (.entry 9)) (turn 0x61 (leBytes 2 9 ++ leBytes 2 1 ++ leBytes 2 4 ++ [0, 0, 1, 2, 3, 4]) [])
      ∧ Runs (.loadEnd 0 (.entry 9)) (turn 0x62 [9, 0, 0, 0] [])
      ∧ Runs (.loadBoot 0 (.entry 9)) (turn 0x64 [9, 0, 0, 0] [p BOOT_LOAD BOOT_LOAD.LOADID 9, p BOOT_LOAD BOOT_LOAD.STATE 3]) := by
  refine ⟨ran ((h 0 9 [3, 0, 0, 0] (ent 9 0x23 [3, 0, 0, 0] .accepted) _ (iv ?_)).1 _ 0x23 0x10 (.inl rfl) ?_),
    ran ((h 0 9 (leBytes 2 4092 ++ leBytes 2 4 ++ [1, 2, 3, 4]) (ent 9 0x70 (leBytes 2 4092 ++ leBytes 2 4 ++ [1, 2, 3, 4]) .accepted) _ (iv ?_)).1 _ 0x70 0x24 (.inr (.inl ⟨rfl, ?_, ?_, ?_, ?_, ?_, ?_⟩)) ?_),
    ran ((h 0 9 [13, 15, 0, 0] (ent 9 0x83 [13, 15, 0, 0] .accepted) _ (iv ?_)).1 _ 0x83 0x26 (.inr (.inr (.inl ⟨rfl, ?_, ?_, ?_, ?_, ?_⟩))) ?_),
    ran ((h 0 9 ([2, 0] ++ leBytes 2 3600) (ent 9 0x90 ([2, 0] ++ leBytes 2 3600) .accepted) _ (iv ?_)).1 _ 0x90 0x28 (.inr (.inr (.inr (.inl ⟨rfl, ?_, ?_, ?_⟩)))) ?_),
    ran ((h 0 9 [3, 0, 0, 0] (ent 9 0x91 [3, 0, 0, 0] .accepted) _ (iv ?_)).1 _ 0x91 0x28 (.inr (.inr (.inr (.inr (.inl ⟨rfl, ?_⟩))))) ?_),
    ran ((h 0 9 [2, 255, 0, 0] (ent 9 0xA0 [2, 255, 0, 0] .accepted) _ (iv ?_)).1 _ 0xA0 0x29 (.inr (.inr (.inr (.inr (.inr (.inl ⟨rfl, ?_, ?_, ?_, ?_⟩)))))) ?_),
    ran ((h 0 9 [1, 0, 0, 0] (ent 9 0xB0 [1, 0, 0, 0] .accepted) _ (iv ?_)).1 _ 0xB0 0x25 (.inr (.inr (.inr (.inr (.inr (.inr ⟨rfl, ?_, ?_⟩)))))) ?_),
    ran ((h 0 9 (ws [0, 1516042199]) (ent 9 0x71 (ws [0, 1516042199]) .accepted) _ (iv ?_)).2.1 ?_ ?_),
    ran ((h 0 9 [] (ent 9 0x82 [] .accepted) _ (iv ?_)).2.2.1 ?_ ?_ ?_),
    ran ((h 0 9 (List.replicate 64 3) (ent 9 0xE2 (List.replicate 64 3) .accepted) _ (iv ?_)).2.2.2.1 ?_), ran ((h 0 9 [1, 0x5A, 0xA5, 0x3C] (ent 9 0xE3 [1, 0x5A, 0xA5, 0x3C] .accepted) _ (iv ?_)).2.2.2.2.1 ?_ ?_ ?_ ?_ ?_ ?_),
    ran (((h 0 9 (ws [600, 5, 0x90002]) (ent 9 0x60 (ws [600, 5, 0x90002]) .accepted) _ (iv ?_)).2.2.2.2.2 _ rfl).1 _ _ (.head _) ?_),
    ran (((h 0 9 (leBytes 2 9 ++ leBytes 2 1 ++ leBytes 2 4 ++ [0, 0, 1, 2, 3, 4]) (ent 9 0x61 (leBytes 2 9 ++ leBytes 2 1 ++ leBytes 2 4 ++ [0, 0, 1, 2, 3, 4]) .accepted) _ (iv ?_)).2.2.2.2.2 _ rfl).1 _ _ (.tail _ (.head _)) ?_),
    ran (((h 0 9 [9, 0, 0, 0] (ent 9 0x62 [9, 0, 0, 0] .accepted) _ (iv ?_)).2.2.2.2.2 _ rfl).2.1 ?_),
    ran (((h 0 9 [9, 0, 0, 0] (ent 9 0x64 [9, 0, 0, 0] .accepted) _ (iv ?_)).2.2.2.2.2 _ rfl).2.2 ?_ ?_ ?_ ?_ (.inl ?_))⟩
    <;> first | decide +kernel | (unfold Chip.ready; decide +kernel)

theorem wit_StaleSessionIsAnsweredAndNotJournalled (h : Obligations.StaleSessionIsAnsweredAndNotJournalled) :
    Runs (.cmdFrameArrival 0 (cmdTo 2 6 [])) (mk [p JNL_CNT JNL_CNT.REFUSED 255]) := by
  refine ran (h 0 _ _ (iv ?_) ?_ ?_ ?_ ?_ ?_ ?_ ?_ ?_ ?_ ?_ ?_ ?_ ?_ ?_) <;> decide +kernel

theorem wit_PlanOfARunningSweepKeepsItsWords (h : Obligations.PlanOfARunningSweepKeepsItsWords) :
    Runs (.registerWrite 0 (fullAddr 0 (regAddr 1 0x4 0x21 0x4F)) 5) (mk [sweeping 2 4 1 0 0 id])
      ∧ Runs (.write 0 9) (turn 3 (ws [fullAddr 0 (regAddr 1 0x4 0x21 0x10), 1, 5]) [sweeping 0 4 1 0 0 id])
      ∧ Runs (.eisPlan 0 9) (turn 0x30 (ws [1, 0, 0, 5, 5]) [sweeping 0 4 1 0 0 id]) := by
  refine ⟨⟨_, (h 0 1 0x4F _ (iv ?_) ?_ ?_ ?_ ?_ ?_ ?_).2.1 5⟩, ran ((h 0 1 0x10 _ (iv ?_) ?_ ?_ ?_ ?_ ?_ ?_).2.2.1 9 (ws [fullAddr 0 (regAddr 1 0x4 0x21 0x10), 1, 5]) (ent 9 3 (ws [fullAddr 0 (regAddr 1 0x4 0x21 0x10), 1, 5]) .accepted) ?_ ?_ ?_),
    ran ((h 0 1 0x10 _ (iv ?_) ?_ ?_ ?_ ?_ ?_ ?_).2.2.2 9 (ws [1, 0, 0, 5, 5]) (ent 9 0x30 (ws [1, 0, 0, 5, 5]) .accepted) ?_ ?_)⟩
    <;> first | decide +kernel | (unfold Chip.ready; decide +kernel)

theorem wit_EveryCommandCompletes (h : Obligations.EveryCommandCompletes) :
    Runs (.fcolEvaluation 0 true true) (mk []) ∧ Runs (.vstkOvervoltage 0 50000) (mk [])
      ∧ exec (.vstkOvervoltage 0 50001) (mk []) = .fault .outsideAbsoluteMaximum := by
  refine ⟨ran ((h _ _).1 ?_), ran ((h _ _).1 ?_), (h _ _).2 0 50001 rfl (by decide)⟩ <;> intro d v e <;> cases e <;> decide

end Sys2Proof.Tests
end

section
/-! PROOFS. Every command keeps the stores in canonical form and the fuse marks that are watched (O2, O3): each arm of `exec` is one of the
operations whose `_good` lemma stands above, on its own, behind the arm's enabling condition, or as a command taken from the journal. -/
namespace Sys2Proof.Machine

/-- The next state, if the outcome is one, has its stores in canonical form, and what is watched holds in it. -/
def GoodNext (G : Watch) (o : Host.Outcome State Fault Refusal) : Prop := ∀ t, o = .next t → t.chip.good G

section
variable {G : Watch} {s : State}

theorem goodNext_next {c : Chip} {q : List Instr} (hc : c.good G) : GoodNext G (.next ⟨c, q⟩) := by
  intro t ht
  cases ht
  exact hc

/-- An operation behind a condition, without which the module stays as it is. -/
theorem Chip.when_good {c t : Chip} (hs : c.good G) {p : Prop} [Decidable p] (hf : t.good G) : (if p then t else c).good G :=
  Chip.ite_good _ _ _ (fun _ => hf) fun _ => hs

variable (hs : s.chip.good G)
include hs

/-! ### Commands of more than one operation -/

theorem execUcIsolationLift_goodNext (d : Die) : GoodNext G (execUcIsolationLift d s) :=
  goodNext_next (Chip.when_good hs (Chip.upd_good _ _ _ hs fun _ hx => hx))

theorem execResumeApply_goodNext (d : Die) : GoodNext G (execResumeApply d s) := by
  have hu := Chip.put_good _ d FCOL_STATE FCOL_STATE.HOSTREACT 0 <| Chip.put_good _ d CXS_STATUS CXS_STATUS.SAFE 0 <|
    Chip.upd_good _ d (fun x => { x with fcol := { x.fcol with resume := false } }) hs fun _ hx => hx
  exact goodNext_next <| Chip.when_good hs <| Chip.when_good hu <| Chip.showFaultOrder_good _ _ <| Chip.setFaultState_good _ _ _ hu

theorem execClockMonitorCheck_goodNext (d : Die) (count : Nat) (lfAlive : Bool) : GoodNext G (execClockMonitorCheck d count lfAlive s) := by
  refine goodNext_next (Chip.when_good hs ?_)
  refine Chip.cond_good _ _ _ (Chip.cond_good _ _ _ (Chip.upd_good _ _ _ hs fun _ hx => hx) ?_) ?_
  · exact fun t ht => Chip.ite_good _ _ _ (fun _ => ht) fun _ => Chip.raise_good _ _ _ ht
  · exact fun t ht => Chip.cause_good _ _ _ _ ht

theorem execPllUnlock_goodNext (d : Die) : GoodNext G (execPllUnlock d s) :=
  goodNext_next (Chip.when_good hs (Chip.updTime_good _ _ _ (Chip.setPll_good _ _ _ hs) fun _ => rfl))

theorem execBeaconLossHoldover_goodNext (d : Die) : GoodNext G (execBeaconLossHoldover d s) := by
  refine goodNext_next (Chip.when_good hs ?_)
  have hu := Chip.updTime_good _ d (fun t => { t with inRun := 0, outRun := 0, stepBy := none }) (Chip.setPll_good _ d 2 hs) fun _ => rfl
  have ht := Chip.ite_good (s.chip.get d ULK_PLLSTAT ULK_PLLSTAT.STATE == 3) _ _ (fun _ => hs) fun _ => hu
  exact Chip.ite_good _ _ _ (fun _ => ht) fun _ => Chip.report_good _ _ _ ht

theorem execJournalMirrorReceived_goodNext (d ward : Die) (seq : Nat) : GoodNext G (execJournalMirrorReceived d ward seq s) := by
  refine goodNext_next ?_
  dsimp only
  split
  · exact Chip.when_good hs (Chip.showGuard_good _ _ (Chip.updJnl_good _ _ _ hs))
  · exact hs

theorem execMirrorAckReceived_goodNext (d : Die) (seq : Nat) : GoodNext G (execMirrorAckReceived d seq s) := by
  refine goodNext_next ?_
  dsimp only
  split
  · exact Chip.when_good hs (Chip.acceptMirrored_good _ _ _ hs)
  · exact hs

theorem execCommitRecordReceived_goodNext (d ward : Die) (seq : Nat) : GoodNext G (execCommitRecordReceived d ward seq s) := by
  refine goodNext_next ?_
  dsimp only
  split
  · exact Chip.when_good hs (Chip.updJnl_good _ _ _ hs)
  · exact hs

theorem execCommitAckReceived_goodNext (d : Die) (seq : Nat) : GoodNext G (execCommitAckReceived d seq s) := by
  refine goodNext_next ?_
  dsimp only
  split
  · exact Chip.when_good hs (Chip.beginActivities_good _ _ (Chip.releaseEntry_good _ _ _ hs))
  · exact hs

theorem execRelayOutcomeReceived_goodNext (d src : Die) (seq : Nat) : GoodNext G (execRelayOutcomeReceived d src seq s) := by
  refine goodNext_next ?_
  dsimp only
  split
  · have ht := fun e => Chip.updEntry_good _ d seq (fun _ => e) hs
    exact Chip.ite_good _ _ _ (fun _ => hs) fun _ =>
      Chip.ite_good _ _ _ (fun _ => Chip.answerRelay_good _ _ _ (ht _)) fun _ => Chip.ownTurn_good _ _ _ (ht _)
  · exact hs

theorem execEchoReplyReceived_goodNext (d : Die) (rtt tadj : Nat) : GoodNext G (execEchoReplyReceived d rtt tadj s) :=
  goodNext_next <| Chip.ite_good _ _ _ (fun _ => hs) fun _ => Chip.showHop_good _ _ _ <| Chip.updRing_good _ _ _ <|
    Chip.putSat_good _ _ _ _ _ <| Chip.putSat_good _ _ _ _ _ hs

theorem execEchoTimeout_goodNext (d : Die) : GoodNext G (execEchoTimeout d s) :=
  goodNext_next <| Chip.ite_good _ _ _ (fun _ => hs) fun _ => Chip.updRing_good _ _ _ <| Chip.put_good _ _ _ _ _ hs

theorem execFaultOrderReceived_goodNext (d src : Die) (assert : Bool) : GoodNext G (execFaultOrderReceived d src assert s) :=
  goodNext_next (Chip.when_good hs (Chip.driveFaultN_good _ (Chip.rest_good _ _ _ hs)))

theorem execRingBlotFire_goodNext (d : Die) : GoodNext G (execRingBlotFire d s) :=
  goodNext_next <| Chip.when_good hs <| Chip.upd_good _ _ _ (Chip.trigger_good _ _ _ _ <| Chip.put_good _ _ _ _ _ hs) fun _ hx => hx

theorem execModNibEntryWrite_goodNext (d : Die) (e : Nat) (word : Fin 4) (w : Word) : GoodNext G (execModNibEntryWrite d e word w s) :=
  goodNext_next <| Chip.when_good hs <| Chip.each_good _ _ _ hs fun _ _ ht => Chip.applyEntryWrite_good _ _ _ _ _ ht

theorem execVstkOvervoltage_goodNext (d : Die) (vstk : Nat) : GoodNext G (execVstkOvervoltage d vstk s) := by
  unfold execVstkOvervoltage
  split
  · exact fun _ ht => nomatch ht
  · exact goodNext_next (Chip.vstkOvervoltage_good _ _ _ hs)

/-! ### Every command -/

/-- Every command keeps the stores in canonical form and the fuse marks that are watched; the stroke numbers are not watched. -/
theorem exec_goodNext (ht : ∀ e, ¬ G.tick e) (i : Instr) : GoodNext G (exec i s) := by
  cases i with
  | coldStart => exact goodNext_next (Chip.coldStart_good _ _ _ hs ht)
  | dieReset => exact goodNext_next (Chip.dieReset_good _ _ _ hs ht)
  | folioReapply => exact goodNext_next (Chip.folioReapply_good _ _ hs)
  | strokeEdge => exact goodNext_next (Chip.strokeEdge_good _ _ _ hs ht)
  | lineBoundary => exact goodNext_next (Chip.lineBoundary_good _ _ _ hs)
  | pageBoundary => exact goodNext_next (Chip.pageBoundary_good _ _ _ hs)
  | ringHeadChange => exact goodNext_next <| Chip.when_good hs <| Chip.putAll_good _ _ _ _ <| Chip.putAll_good _ _ _ _ hs
  | cfeLatch => exact goodNext_next (Chip.cfeLatch_good _ _ _ hs)
  | shdConversion => exact goodNext_next (Chip.shdConversion_good _ _ _ _ _ _ hs)
  | auxConversion => exact goodNext_next (Chip.auxConversion_good _ _ _ _ _ hs)
  | bceStrokeProgram => exact goodNext_next (Chip.bceStrokeProgram_good _ _ _ hs)
  | pgenStep => exact goodNext_next <| Chip.when_good hs <| Chip.pgenStep1_good _ _ _ <| Chip.pgenStep1_good _ _ _ hs
  | eisCorrelate => exact goodNext_next (Chip.eisCorrelate_good _ _ _ hs)
  | streamFrameAssemble => exact goodNext_next (Chip.streamFrameAssemble_good _ _ hs)
  | nibRosterTransfer => exact goodNext_next (Chip.nibRosterTransfer_good _ _ _ hs)
  | thmEvaluation => exact goodNext_next (Chip.thmEvaluation_good _ _ _ _ hs)
  | thermalHoldSet => exact goodNext_next (Chip.thermalHoldSet_good _ _ hs)
  | cutTrip | cutRelease => exact goodNext_next <| Chip.when_good hs <| Chip.refreshCut_good _ _ <| Chip.updThm_good _ _ _ hs
  | bistSlice => exact goodNext_next (Chip.bistSlice_good _ _ _ _ _ hs)
  | pwrHandshakeStep => exact goodNext_next (Chip.pwrHandshakeStep_good _ _ hs)
  | fcolEvaluation => exact goodNext_next (Chip.fcolEvaluation_good _ _ _ _ hs)
  | ucIsolationLift => exact execUcIsolationLift_goodNext hs _
  | resumeApply => exact execResumeApply_goodNext hs _
  | clockMonitorCheck => exact execClockMonitorCheck_goodNext hs _ _ _
  | watchdogExpiry | coreException => exact goodNext_next <| Chip.when_good hs <| Chip.stopCore_good _ _ hs
  | beaconReceived => exact goodNext_next (Chip.beaconReceived_good _ _ _ _ _ _ _ _ _ _ hs)
  | timeStep => exact goodNext_next (Chip.timeStep_good _ _ hs ht)
  | countReplacement => exact goodNext_next (Chip.countReplacement_good _ _ hs ht)
  | pllLocked => exact goodNext_next <| Chip.when_good hs <| Chip.setPll_good _ _ _ hs
  | pllUnlock => exact execPllUnlock_goodNext hs _
  | beaconLossHoldover => exact execBeaconLossHoldover_goodNext hs _
  | linkBeaconMissing => exact goodNext_next <| Chip.when_good hs <| Chip.raise_good _ _ _ <| Chip.put_good _ _ _ _ _ hs
  | beaconSend => exact goodNext_next (Chip.beaconSend_good _ _ hs)
  | cmdFrameArrival => exact goodNext_next (Chip.cmdFrameArrival_good _ _ _ hs)
  | journalMirrorReceived => exact execJournalMirrorReceived_goodNext hs _ _ _
  | mirrorAckReceived => exact execMirrorAckReceived_goodNext hs _ _
  | commitRecordReceived => exact execCommitRecordReceived_goodNext hs _ _ _
  | commitAckReceived => exact execCommitAckReceived_goodNext hs _ _
  | seqGapEvent => exact goodNext_next <| Chip.when_good hs <| Chip.updJnl_good _ _ _ <| Chip.event_good _ _ _ _ hs
  | dozeCommandWake => exact goodNext_next (Chip.dozeCommandWake_good _ _ hs)
  | transitFrameReceived => exact goodNext_next (Chip.transitFrameReceived_good _ _ _ _ hs)
  | frameInsertion => exact goodNext_next (Chip.frameInsertion_good _ _ hs)
  | blotFrameReceived => exact goodNext_next (Chip.blotFrameReceived_good _ _ _ _ _ _ hs)
  | ringBlotFire => exact execRingBlotFire_goodNext hs _
  | echoProbeReceived | echoReplySend => exact goodNext_next <| Chip.when_good hs <| Chip.updRing_good _ _ _ hs
  | echoReplyReceived => exact execEchoReplyReceived_goodNext hs _ _ _
  | echoTimeout => exact execEchoTimeout_goodNext hs _
  | faultOrderReceived => exact execFaultOrderReceived_goodNext hs _ _ _
  | heartbeatReceived => exact goodNext_next (Chip.heartbeatReceived_good _ _ _ hs)
  | neighbourLost => exact goodNext_next (Chip.neighbourLost_good _ _ _ hs)
  | masterTakeover => exact goodNext_next <| Chip.when_good hs <| Chip.putAll_good _ _ _ _ hs
  | rosterUpdateReceived => exact goodNext_next (Chip.rosterUpdateReceived_good _ _ _ _ hs)
  | moduleCommonWriteRelay | broadcastWriteRelay => exact goodNext_next (Chip.relayRow_good _ _ _ _ _ hs)
  | portSignalLoss | portCodeViolations =>
    exact goodNext_next <| Chip.when_good hs <| Chip.movePort_good _ _ _ _ <| Chip.cutFrame_good _ _ _ _ hs
  | portSignalPresent | portTrained => exact goodNext_next <| Chip.when_good hs <| Chip.movePort_good _ _ _ _ hs
  | wakeBurstDetected => exact goodNext_next (Chip.wakeBurstDetected_good _ _ _ hs)
  | wakePin => exact goodNext_next (Chip.wakePin_good _ _ _ _ _ hs)
  | wakeLineAsserted => exact goodNext_next (Chip.wakeLineAsserted_good _ _ hs)
  | blotInEdge => exact goodNext_next (Chip.blotInEdge_good _ _ _ _ hs)
  | blotLineEdge => exact goodNext_next (Chip.blotLineEdge_good _ _ _ _ hs)
  | snapshotLatch => exact goodNext_next (Chip.snapshotLatch_good _ _ hs)
  | laneStart => exact goodNext_next (Chip.laneStart_good _ _ _ _ _ _ hs)
  | census => exact goodNext_next (Chip.census_good _ _ _ _ _ _ hs)
  | streamCycleStart => exact goodNext_next (Chip.streamCycleStart_good _ _ _ _ _ hs)
  | nibWindowDecision => exact goodNext_next (Chip.nibWindowDecision_good _ _ _ _ _ hs)
  | laneShort => exact goodNext_next (Chip.laneShort_good _ _ _ hs)
  | dutyGovernorRelease => exact goodNext_next (Chip.dutyGovernorRelease_good _ _ _ _ _ hs)
  | selectionChange => exact goodNext_next (Chip.selectionChange_good _ _ _ hs)
  | stopRampComplete => exact goodNext_next (Chip.stopRampComplete_good _ _ _ hs)
  | peakLimit => exact goodNext_next <| Chip.when_good hs <| Chip.updChan_good _ _ _ _ hs
  | bleedOvercurrent =>
    exact goodNext_next <| Chip.when_good hs <| Chip.draw_good _ <| Chip.updCxs_good _ _ _ <|
      Chip.report_good _ _ _ <| Chip.put_good _ _ _ _ _ hs
  | openWireTestStart => exact goodNext_next (Chip.openWireTestStart_good _ _ hs)
  | openWireSkipPage => exact goodNext_next (Chip.openWireSkipPage_good _ _ hs)
  | openWireCurrentOn => exact goodNext_next (Chip.openWireCurrentOn_good _ _ hs)
  | openWireVerdict => exact goodNext_next (Chip.openWireVerdict_good _ _ _ hs)
  | openWireAbandon => exact goodNext_next (Chip.openWireAbandon_good _ _ hs)
  | stepStageEnd => exact goodNext_next (Chip.stepStageEnd_good _ _ _ hs)
  | allWireVerdict => exact goodNext_next (Chip.allWireVerdict_good _ _ _ hs)
  | deviationClassify => exact goodNext_next (Chip.deviationClassify_good _ _ _ hs)
  | eisChannelGrant => exact goodNext_next (Chip.eisChannelGrant_good _ _ _ hs)
  | eisWindowOpen => exact goodNext_next (Chip.eisWindowOpen_good _ _ _ hs)
  | eisInjectionEnd => exact goodNext_next (Chip.eisInjectionEnd_good _ _ _ hs)
  | eisNextBin => exact goodNext_next (Chip.eisNextBin_good _ _ _ hs)
  | eisWaitTimeout => exact goodNext_next (Chip.eisWaitTimeout_good _ _ _ hs)
  | calPassStart => exact goodNext_next (Chip.calPassStart_good _ _ hs)
  | calItemGrant => exact goodNext_next (Chip.calItemGrant_good _ _ hs)
  | calCandidate => exact goodNext_next (Chip.calCandidate_good _ _ _ hs)
  | calItemVerdict => exact goodNext_next (Chip.calItemVerdict_good _ _ _ hs)
  | currentSenseItem => exact goodNext_next (Chip.currentSenseItem_good _ _ _ _ hs)
  | calPassEnd => exact goodNext_next (Chip.calPassEnd_good _ _ hs)
  | elementTestStart => exact goodNext_next (Chip.elementTestStart_good _ _ hs)
  | elementTestVerdict => exact goodNext_next (Chip.elementTestVerdict_good _ _ _ hs)
  | channelRepair => exact goodNext_next (Chip.channelRepair_good _ _ _ hs)
  | imageCheck => exact goodNext_next <| Chip.when_good hs <| Chip.updBoot_good _ _ _ hs fun _ hx => hx
  | imageCheckComplete => exact goodNext_next (Chip.imageCheckComplete_good _ _ hs)
  | loadMissingSend => exact goodNext_next (Chip.loadMissingSend_good _ _ hs)
  | loadResultSend => exact goodNext_next (Chip.loadResultSend_good _ _ hs)
  | firmwareRetransmit => exact goodNext_next (Chip.firmwareRetransmit_good _ _ _ _ _ hs)
  | commandLoopReached | woclr => exact goodNext_next <| Chip.when_good hs <| Chip.put_good _ _ _ _ _ hs
  | folioSwitch => exact goodNext_next (Chip.folioSwitch_good _ _ hs)
  | entryDelayLimit => exact goodNext_next (Chip.entryDelayLimit_good _ _ hs)
  | ringReleaseTimeout => exact goodNext_next (Chip.ringReleaseTimeout_good _ _ hs)
  | sleepCommit => exact goodNext_next (Chip.sleepCommit_good _ _ _ _ _ hs ht)
  | entryAbandon => exact goodNext_next (Chip.entryAbandon_good _ _ hs)
  | domainRestart => exact goodNext_next (Chip.domainRestart_good _ _ hs)
  | wakeFromSleep => exact goodNext_next (Chip.wakeFromSleep_good _ _ _ _ hs ht)
  | sleepTickSaturate => exact goodNext_next (Chip.sleepTickSaturate_good _ _ hs)
  | nightcapCheck | nightcapRecheck => exact goodNext_next (Chip.nightcapRun_good _ _ _ _ _ _ _ _ _ _ _ _ hs)
  | supplyDip => exact goodNext_next (Chip.supplyDip_good _ _ _ hs)
  | supplyDipEnd => exact goodNext_next (Chip.supplyDipEnd_good _ _ _ hs)
  | supplyLoss => exact goodNext_next (Chip.supplyLoss_good _ _ _ _ hs)
  | lastgaspSend => exact goodNext_next (Chip.lastgaspSend_good _ _ hs)
  | powerOnReset => exact goodNext_next (Chip.powerOnReset_good _ _ hs ht)
  | vstkOvervoltage => exact execVstkOvervoltage_goodNext hs _ _
  | perfLevelTransitionEnd => exact goodNext_next (Chip.perfLevelTransitionEnd_good _ _ hs)
  | ping => exact goodNext_next (Chip.ping_good _ _ _ hs)
  | read | write | streamSet | fineSelect | balManager | balCharge | balBleed | balStop | eisPlan | eisStart | eisResults | ztModel
  | nibRead | nibAssoc | nibAction | nibLane | ringRole | ringStatus | folioWrite | folioSeal | folioStatus | faultRead | faultClear
  | faultResume | faultInject | snapRead | snapArm =>
    exact goodNext_next (Chip.opcode_good _ _ _ _ _ _ hs)
  | enumerate => exact goodNext_next (Chip.enumerate_good _ _ _ hs)
  | loadBegin => exact goodNext_next (Chip.loadCommand_good _ _ _ _ _ _ hs fun _ _ hy => Chip.applyLoadBegin_good _ _ _ hy)
  | loadData => exact goodNext_next (Chip.loadCommand_good _ _ _ _ _ _ hs fun _ _ hy => Chip.applyLoadData_good _ _ _ hy)
  | loadEnd => exact goodNext_next <| Chip.beginActivities_good _ _ <|
      Chip.loadCommand_good _ _ _ _ _ _ hs fun _ _ hy => Chip.applyLoadEnd_good _ _ _ hy
  | loadStatus | perfLevel | sleepAbortStatus | lcyStatus | lcyResponse | lcyAdvance =>
    exact goodNext_next (Chip.executeEntry_good _ _ _ _ _ _ hs)
  | loadBoot => exact goodNext_next (Chip.loadCommand_good _ _ _ _ _ _ hs fun _ _ hy => Chip.applyLoadBoot_good _ _ _ hy)
  | powerState | selftestRun => exact goodNext_next (Chip.beginActivities_good _ _ (Chip.executeEntry_good _ _ _ _ _ _ hs))
  | calRun => exact goodNext_next (Chip.beginActivities_good _ _ (Chip.opcode_good _ _ _ _ _ _ hs))
  | check => exact goodNext_next (Chip.check_good _ _ _ hs)
  | lcyChallenge => exact goodNext_next (Chip.draw_good _ (Chip.executeEntry_good _ _ _ _ _ _ hs))
  | lifecycleTransitionDone => exact goodNext_next (Chip.lifecycleTransitionDone_good _ _ hs)
  | owdSingleWireRequest | owdAllWireRequest => exact goodNext_next <| Chip.when_good hs <| Chip.requestTest_good _ _ _ _ _ _ hs
  | eisCmdGo => exact goodNext_next <| Chip.when_good hs <| Chip.sweepGo_good _ _ _ _ _ _ hs
  | eisCmdStop => exact goodNext_next <| Chip.when_good hs <| Chip.sweepStop_good _ _ _ hs
  | cxsQtgtWrite => exact goodNext_next <| Chip.when_good hs <| Chip.writeQtgt_good _ _ _ _ hs
  | cxsEnWrite => exact goodNext_next <| Chip.when_good hs <| Chip.writeCxsCfg_good _ _ _ _ hs
  | injGo | injStop => exact goodNext_next <| Chip.when_good hs <| Chip.writeInjCfg_good _ _ _ _ hs
  | captureArm => exact goodNext_next <| Chip.when_good hs <| Chip.writeCapture_good _ _ _ hs
  | qlnRestart | qlnCensus | qlnStop => exact goodNext_next <| Chip.when_good hs <| Chip.writeQlnCmd_good _ _ _ _ hs
  | rawReset | rawWrite | rawRead | rawStep | rawStream =>
    exact goodNext_next <| Chip.when_good hs <| Chip.rawOp_good _ _ _ _ _ _ _ hs
  | modNibEntryWrite => exact execModNibEntryWrite_goodNext hs _ _ _ _
  | chkGo => exact goodNext_next (Chip.chkGo_good _ _ _ hs)
  | chkAbort => exact goodNext_next (Chip.chkAbort_good _ _ hs)
  | chkRunDone => exact goodNext_next (Chip.chkRunDone_good _ _ _ hs)
  | folDataWrite | folSealcrcWrite | folModeselWrite => exact goodNext_next <| Chip.when_good hs <| Chip.regWrite_good _ _ _ _ hs
  | holdclr => exact goodNext_next <| Chip.when_good hs <| Chip.clearHold_good _ _ hs
  | sensorExclClear => exact goodNext_next <| Chip.when_good hs <| Chip.clearExcl_good _ _ _ hs
  | cutmaskWrite => exact goodNext_next <| Chip.when_good hs <| Chip.writeThmCfg_good _ _ _ hs
  | calGo | calAbort | fbclr => exact goodNext_next <| Chip.when_good hs <| Chip.writeCalCmd_good _ _ _ hs
  | fcolStkWrite => exact goodNext_next <| Chip.when_good hs <| Chip.clearSticky_good _ _ _ _ hs
  | resume => exact goodNext_next <| Chip.when_good hs <| Chip.requestResume_good _ _ hs
  | evclr => exact goodNext_next <| Chip.when_good hs <| Chip.clearEventCounters_good _ _ hs
  | kick => exact goodNext_next (Chip.upd_good _ _ _ hs fun _ hx => hx)
  | fcolInjWrite => exact goodNext_next <| Chip.when_good hs <| Chip.armInjection_good _ _ _ _ hs
  | snapCtrlArm | fire => exact goodNext_next <| Chip.when_good hs <| Chip.writeSnapCtrl_good _ _ _ hs
  | snapHdr0Read => exact goodNext_next (Chip.snapHdr0Read_good _ _ hs)
  | ulkStrokeLoRead => exact goodNext_next (Chip.put_good _ _ _ _ _ hs)
  | pwrWake => exact goodNext_next (Chip.pwrWake_good _ _ hs)
  | padrel => exact goodNext_next <| Chip.when_good hs <| Chip.padrel_good _ _ _ hs
  | bistFuseGo => exact goodNext_next <| Chip.when_good hs <| Chip.bistFuseGo_good _ _ hs
  | fuseProgrammingDone => exact goodNext_next (Chip.fuseProgrammingDone_good _ _ _ hs)
  | bistAbort => exact goodNext_next <| Chip.when_good hs <| Chip.bistAbort_good _ _ hs
  | programSlot | revokeSlot | programServiceKey => exact goodNext_next <| Chip.when_good hs <| Chip.keyOp_good _ _ _ _ hs
  | registerWrite => exact goodNext_next <| Chip.when_good hs <| Chip.regWriteAny_good _ _ _ _ hs
  | vstkOvervoltageClear => exact goodNext_next (Chip.vstkOvervoltageClear_good _ _ _ hs)
  | faultToneChange => exact goodNext_next <| Chip.when_good hs <| Chip.putB_good _ _ _ _ _ <| Chip.putB_good _ _ _ _ _ hs
  | relayOutcomeReceived => exact execRelayOutcomeReceived_goodNext hs _ _ _
  | keyFuseProgrammingDone => exact goodNext_next (Chip.keyFuseProgrammingDone_good _ _ _ hs)
  | ramEccError => exact goodNext_next (Chip.ramEccError_good _ _ _ _ _ hs)

end

/-- A step is `exec` of the command at the front, or leaves the module as it is. -/
theorem step_good {G : Watch} {s t : State} (ht : ∀ e, ¬ G.tick e) (hs : s.chip.good G) (h : step s = .next t) : t.chip.good G := by
  unfold step at h
  split at h
  · cases h
    exact hs
  · next c rest _ => exact exec_goodNext (s := { s with pending := rest }) hs ht c t h

/-- Settles O2: nothing is listed in the stores at reset. -/
theorem resetStoresAreCanonical : Obligations.ResetStoresAreCanonical := by
  unfold Obligations.ResetStoresAreCanonical
  refine ⟨⟨rfl, fun d => ?_⟩, rfl⟩
  have hd : Chip.reset.die d = DieX.reset := by simp [Chip.die, Chip.reset]
  exact congrArg DieX.wf hd

/-- Settles O3: canonical stores are what is kept where nothing else is watched. -/
theorem everyStepKeepsStoresCanonical : Obligations.EveryStepKeepsStoresCanonical := by
  unfold Obligations.EveryStepKeepsStoresCanonical
  intro s t hs h
  exact (Chip.wf_iff_good _).2 (step_good (fun _ => id) ((Chip.wf_iff_good _).1 hs) h)

end Sys2Proof.Machine
end

section
/-! PROOFS. A register that holds what the type codes make of a written word takes the word field by field (R7, R9, Table 00.3). -/
namespace Sys2Proof.Machine

theorem fieldsApart_bound {l : List FieldDesc} (hl : fieldsApart l = true) {f : FieldDesc} (hf : f ∈ l) : f.fld.lo + f.fld.w ≤ 32 := by
  induction l with
  | nil => exact absurd hf List.not_mem_nil
  | cons g l ih =>
    simp only [fieldsApart, Bool.and_eq_true, decide_eq_true_eq] at hl
    obtain ⟨⟨⟨-, hbound⟩, -⟩, hrest⟩ := hl
    rcases List.mem_cons.1 hf with rfl | hm
    · exact hbound
    · exact ih hrest hm

section
variable {fields : List FieldDesc} (hap : fieldsApart fields = true) {f : FieldDesc} (hf : f ∈ fields) (old w : Word) (locked : Bool)
include hap hf

theorem read_newWord_testBit (i : Nat) :
    (f.fld.read (newWord fields old w locked)).testBit i = (decide (i < f.fld.w) && typedBit f old w locked (f.fld.lo + i)) := by
  rw [Fld.read_testBit]
  by_cases hi : i < f.fld.w
  · have hb := fieldsApart_bound hap hf
    have hh : f.fld.has (f.fld.lo + i) = true := by simp [Fld.has, hi]
    rw [(newWord_getLsbD old w locked _ (by omega) hap).1 f hf hh]
  · simp [hi]

/-- A field whose bits are written as those of a word reads as that word's. -/
theorem read_newWord_eq {x : Word} (h : ∀ i, typedBit f old w locked i = x.getLsbD i) :
    f.fld.read (newWord fields old w locked) = f.fld.read x := by
  apply Nat.eq_of_testBit_eq
  intro i
  rw [read_newWord_testBit hap hf, Fld.read_testBit, h]

theorem read_newWord_rw (ht : f.ty = .rw) : f.fld.read (newWord fields old w locked) = f.fld.read w :=
  read_newWord_eq hap hf old w locked fun i => by simp [typedBit, ht]

theorem read_newWord_kept (ht : f.ty = .ro ∨ f.ty = .wo) : f.fld.read (newWord fields old w locked) = f.fld.read old :=
  read_newWord_eq hap hf old w locked fun i => by rcases ht with ht | ht <;> simp [typedBit, ht]

theorem read_newWord_lck (ht : f.ty = .lck) :
    f.fld.read (newWord fields old w locked) = if locked then f.fld.read old else f.fld.read w := by
  split
  · next hl => exact read_newWord_eq hap hf old w locked fun i => by simp [typedBit, ht, hl]
  · next hl => exact read_newWord_eq hap hf old w locked fun i => by simp [typedBit, ht, hl]

theorem read_newWord_w1c (ht : f.ty = .w1c) :
    f.fld.read (newWord fields old w locked) = if f.fld.read w = 2 ^ f.fld.w - 1 then 0 else f.fld.read old := by
  split
  · next hc =>
    have hz : f.fld.read (0 : Word) = 0 := by simp [Fld.read]
    rw [← hz]
    exact read_newWord_eq hap hf old w locked fun i => by simp [typedBit, ht, hc]
  · next hc => exact read_newWord_eq hap hf old w locked fun i => by simp [typedBit, ht, hc]

theorem read_newWord_stk (ht : f.ty = .stk) {i : Nat} (hi : i < f.fld.w) :
    (f.fld.read (newWord fields old w locked)).testBit i = ((f.fld.read old).testBit i && !(f.fld.read w).testBit i) := by
  rw [read_newWord_testBit hap hf, Fld.read_testBit, Fld.read_testBit]
  simp [typedBit, ht, hi]

end

/-- A register without a lockable field takes a word alike, locked or not. -/
theorem newWord_locked {fields : List FieldDesc} (h : ∀ f ∈ fields, f.ty ≠ .lck) (old w : Word) (l m : Bool) :
    newWord fields old w l = newWord fields old w m := by
  have key : ∀ acc : Word, fields.foldl (fieldTurn old w l) acc = fields.foldl (fieldTurn old w m) acc := by
    induction fields with
    | nil => exact fun _ => rfl
    | cons f fs ih =>
      intro acc
      have hf : fieldTurn old w l acc f = fieldTurn old w m acc f := by
        unfold fieldTurn
        cases hty : f.ty with
        | lck => exact absurd hty (h f List.mem_cons_self)
        | _ => rfl
      rw [List.foldl_cons, List.foldl_cons, hf]
      exact ih (fun g hg => h g (List.mem_cons_of_mem _ hg)) _
  exact key old

/-- Read-only fields leave the word as it was. -/
theorem newWord_of_ro {fields : List FieldDesc} (h : ∀ f ∈ fields, f.ty = .ro) (old w : Word) (l : Bool) : newWord fields old w l = old := by
  have key : ∀ acc : Word, fields.foldl (fieldTurn old w l) acc = acc := by
    induction fields with
    | nil => exact fun _ => rfl
    | cons f fs ih =>
      intro acc
      have hf : fieldTurn old w l acc f = acc := by simp [fieldTurn, h f List.mem_cons_self]
      rw [List.foldl_cons, hf]
      exact ih (fun g hg => h g (List.mem_cons_of_mem _ hg)) _
  exact key old

/-- A register that holds what the type codes make of the word has taken it. -/
theorem Chip.takesWord_of_reg {s t : Chip} {d : Die} {a : Nat} {r : RegDesc} {w : Word} (hr : regDesc a = some r)
    (ht : t.reg d a = newWord r.fields (s.reg d a) w ((s.die d).boot.locked.contains a)) : s.takesWord t d a r w := by
  have hap := regDesc_apart hr
  simp only [Chip.takesWord, Chip.get, ht]
  refine ⟨fun f hf => ⟨?_, ?_, ?_, ?_, ?_⟩, fun i hi hno => ?_⟩
  · exact read_newWord_rw hap hf _ _ _
  · exact read_newWord_kept hap hf _ _ _
  · exact read_newWord_lck hap hf _ _ _
  · exact read_newWord_w1c hap hf _ _ _
  · exact fun hty i => read_newWord_stk hap hf _ _ _ hty
  · refine (newWord_getLsbD _ _ _ i hi hap).2 fun f hf => ?_
    have := hno f hf
    simp only [Fld.has, Bool.and_eq_false_iff, decide_eq_false_iff_not]
    omega

/-- An RW field of a register that has taken a word reads as that of the word. -/
theorem Chip.takesWord.read_rw {s t : Chip} {d : Die} {a : Nat} {r : RegDesc} {w : Word} {g : Fld} (h : s.takesWord t d a r w)
    (hg : ∃ f ∈ r.fields, f.fld = g ∧ f.ty = .rw) : t.get d a g = g.read w := by
  obtain ⟨f, hf, rfl, hty⟩ := hg
  exact (h.1 f hf).1 hty

end Sys2Proof.Machine
end

section
/-! PROOFS. What a change leaves: the registers of a list at one die, and the hidden state of that die, may move; nothing else does. -/
namespace Sys2Proof.Machine
namespace Chip

/-- From `s` to `t` only die `d` has changed: of its registers those at `as`, and what it holds beside them. -/
structure Within (s t : Chip) (d : Die) (as : List Nat) : Prop where
  regs : s.sameRegsBut t d as
  dies : s.sameDiesBut t d

namespace Within
variable {s t u : Chip} {d : Die} {as : List Nat}

theorem refl (s : Chip) (d : Die) (as : List Nat) : s.Within s d as := ⟨sameRegsBut_refl s d as, sameDiesBut_refl s d⟩

theorem trans (h : s.Within t d as) (h' : t.Within u d as) : s.Within u d as :=
  ⟨fun e a ha => (h'.regs e a ha).trans (h.regs e a ha), fun e he => (h'.dies e he).trans (h.dies e he)⟩

theorem mono {bs : List Nat} (h : s.Within t d as) (hab : as ⊆ bs) : s.Within t d bs :=
  ⟨fun e a ha => h.regs e a fun b hb => ha b (hab hb), h.dies⟩

theorem setReg (h : s.Within t d as) {a : Nat} (ha : a ∈ as) (w : Word) : s.Within (t.setReg d a w) d as :=
  ⟨sameRegsBut_setReg h.regs a w ha, sameDiesBut_setReg h.dies a w⟩

theorem put (h : s.Within t d as) {a : Nat} (ha : a ∈ as) (f : Fld) (v : Nat) : s.Within (t.put d a f v) d as := h.setReg ha _

theorem putB (h : s.Within t d as) {a : Nat} (ha : a ∈ as) (f : Fld) (b : Bool) : s.Within (t.putB d a f b) d as := h.put ha f _

theorem upd (h : s.Within t d as) (f : DieX → DieX) : s.Within (t.upd d f) d as := ⟨sameRegsBut_upd h.regs f, sameDiesBut_upd h.dies f⟩

theorem event (h : s.Within t d as) (c : Nat) (b : List Byte) : s.Within (t.event d c b) d as :=
  ⟨sameRegsBut_event h.regs c b, sameDiesBut_event h.dies c b⟩

theorem cond (h : s.Within t d as) (b : Bool) {f : Chip → Chip} (hf : s.Within (f t) d as) : s.Within (t.cond b f) d as :=
  ⟨sameRegsBut_cond h.regs b f hf.regs, sameDiesBut_cond h.dies b f hf.dies⟩

theorem each {α : Type} (h : s.Within t d as) (l : List α) {f : α → Chip → Chip} (hf : ∀ x u, s.Within u d as → s.Within (f x u) d as) :
    s.Within (t.each l f) d as := by
  induction l generalizing t with
  | nil => exact h
  | cons x l ih => exact ih (hf x t h)

/-- A register at a local address outside the list is the same. -/
theorem reg (h : s.Within t d as) (e : Die) {b : Nat} (hb : b < 0x20000000) (has : ∀ a ∈ as, a < 0x20000000 ∧ a ≠ b) :
    t.reg e b = s.reg e b :=
  h.regs e b fun a ha => (fullAddr_ne d e a b (has a ha).1 hb (has a ha).2).symm

theorem get (h : s.Within t d as) (e : Die) {b : Nat} (hb : b < 0x20000000) (has : ∀ a ∈ as, a < 0x20000000 ∧ a ≠ b) (f : Fld) :
    t.get e b f = s.get e b f := congrArg f.read (h.reg e hb has)

end Within

/-! ### Operations that follow a register write -/

theorem showModePend_within (s : Chip) (d : Die) : s.Within (s.showModePend d) d [FOL_STAT] := (Within.refl s d _).putB (by simp) _ _

theorem showThrottle_within (s : Chip) (d : Die) (n : Nat) : s.Within (s.showThrottle d n) d [THM_STAT] := by
  unfold showThrottle
  exact (((Within.refl s d _).put (by simp) _ _).put (by simp) _ _).put (by simp) _ _

theorem setCellTemp_within (s : Chip) (d : Die) (nib z aux un : Nat) :
    s.Within (s.setCellTemp d nib z aux un) d [THM_CELLSTAT, THM_OTSTAT] := by
  have ht := ((((Within.refl s d [THM_CELLSTAT, THM_OTSTAT]).put (a := THM_CELLSTAT) (by simp) THM_CELLSTAT.NIB nib).put
    (a := THM_CELLSTAT) (by simp) THM_CELLSTAT.Z z).put (a := THM_OTSTAT) (by simp) THM_OTSTAT.AUXHOT aux).put
    (a := THM_OTSTAT) (by simp) THM_OTSTAT.UNASSOC un
  unfold setCellTemp
  dsimp only
  split
  · exact Within.refl s d _
  · exact ht.event _ _

theorem auxOffs_within (s : Chip) (d : Die) : s.Within (s.auxOffs d) d [THM_CELLSTAT, THM_OTSTAT] :=
  (Within.refl s d _).each _ fun _ _ hu => (hu.upd fun x => { x with thm := _ }).trans (setCellTemp_within _ d _ _ _ _)

theorem releaseChan_within (s : Chip) (d : Die) (n : Nat) : s.Within (s.releaseChan d n) d [CXS_SEL n, PGEN_STAT n] := by
  have ht := (Within.refl s d [CXS_SEL n, PGEN_STAT n]).put (a := CXS_SEL n) (by simp) CXS_SEL.RAMP 1
  unfold releaseChan
  split
  · exact Within.refl s d _
  · exact ht.cond _ (ht.put (by simp) _ _)

theorem wiringInterlock_within (s : Chip) (d : Die) :
    s.Within (s.wiringInterlock d) d [CXS_SEL 1, PGEN_STAT 1, OWD_STATUS] := by
  unfold wiringInterlock
  split
  · exact (Within.refl s d _).cond _ (((releaseChan_within s d 1).mono (by simp)).put (by simp) _ _)
  · exact Within.refl s d _

end Chip
end Sys2Proof.Machine
end

section
/-! PROOFS. A write of a register that no rule of its own governs (R7, R9, R21): what each block makes of it. -/
namespace Sys2Proof.Machine

/-! ### Where a register can lie -/

theorem eq_regAddr {a : Nat} (ha : a < 0x20000000) (hbad : addrBad a = false) :
    a = regAddr (placeOf a).plane (placeOf a).block (placeOf a).chan (placeOf a).word := by
  have h4 : a % 4 = 0 := by
    have := hbad
    simp only [addrBad, Bool.or_eq_false_iff, bne_eq_false_iff_eq] at this
    exact this.1
  simp only [regAddr, placeOf]
  omega

theorem regDesc_mem {a : Nat} {r : RegDesc} (h : regDesc a = some r) :
    r ∈ blockRegs (placeOf a).plane (placeOf a).block ∧ r.covers (placeOf a).chan (placeOf a).word = true :=
  ⟨List.mem_of_find?_eq_some h, List.find?_some (p := fun x : RegDesc => x.covers (placeOf a).chan (placeOf a).word) h⟩

/-- The last word that a register or its array takes. -/
def RegDesc.last (r : RegDesc) : Nat := r.word + r.stride * (r.nword - 1)

theorem RegDesc.bounds_of_covers {r : RegDesc} {chan word : Nat} (h : r.covers chan word = true) :
    r.chan ≤ chan ∧ chan < r.chan + r.nchan ∧ word ≤ r.last := by
  simp only [RegDesc.covers, Bool.and_eq_true, decide_eq_true_eq, beq_iff_eq] at h
  obtain ⟨⟨⟨⟨h1, h2⟩, h3⟩, h4⟩, h5⟩ := h
  refine ⟨h1, h2, ?_⟩
  have hq : r.stride * ((word - r.word) / r.stride) = word - r.word := Nat.mul_div_cancel' (Nat.dvd_of_mod_eq_zero h4)
  have hle := Nat.mul_le_mul_left r.stride (Nat.le_sub_one_of_lt h5)
  unfold RegDesc.last
  omega

/-- A word that a register of a block lies at is not beyond the last of a register at its channel. -/
theorem word_le_of_last {a n : Nat} {r : RegDesc} (hr : regDesc a = some r)
    (h : ∀ x ∈ blockRegs (placeOf a).plane (placeOf a).block, x.chan ≤ (placeOf a).chan → (placeOf a).chan < x.chan + x.nchan → x.last ≤ n) :
    (placeOf a).word ≤ n := by
  obtain ⟨hm, hc⟩ := regDesc_mem hr
  obtain ⟨h1, h2, h3⟩ := RegDesc.bounds_of_covers hc
  exact Nat.le_trans h3 (h r hm h1 h2)

theorem not_lck_of_block {a : Nat} {r : RegDesc} (hr : regDesc a = some r)
    (h : (blockRegs (placeOf a).plane (placeOf a).block).all (fun x => x.fields.all (·.ty != .lck)) = true) :
    ∀ f ∈ r.fields, f.ty ≠ .lck := by
  simp only [List.all_eq_true, bne_iff_ne] at h
  exact h r (regDesc_mem hr).1

/-! ### What a write leaves -/

/-- The registers whose write is a command or is held to rules of its own, wherever they lie. -/
def commandRegs : List Nat :=
  [CFE_CONFIG, CFE_NOTCH, CFE_AUXCFG, OWD_CMD, EIS_CMD, CHK_CTRL, FOL_SEALCRC, CAL_CMD, FCOL_CTRL, FCOL_INJ, PWR_CMD, BIST_CTRL, BIST_FUSE,
    LCY_FUSECMD, THM_CFG, THM_CMD, INJ_CAPCFG, MOD_SNAP_CTRL, MOD_RING_ROLE]

theorem Chip.ne_of_not_actsOnWrite {s : Chip} {d : Die} {a b : Nat} (h : s.actsOnWrite d a = false)
    (hb : b ∈ commandRegs := by decide) : a ≠ b := by
  rintro rfl
  have : commandRegs.contains a = true := List.contains_iff_mem.2 hb
  simp only [commandRegs] at this
  simp only [actsOnWrite, this, Bool.true_or, Bool.true_eq_false] at h

/-- From `s` to `t`, register `a` of die `d` has taken the word by the type codes of its fields; no other die has changed, and no other
register where the write is of this one alone. -/
structure Chip.Wrote (s t : Chip) (d : Die) (a : Nat) (r : RegDesc) (w : Word) : Prop where
  reg : t.reg d a = newWord r.fields (s.reg d a) w ((s.die d).boot.locked.contains a)
  dies : s.sameDiesBut t d
  regs : writesOthers a = false → s.sameRegsBut t d [a]

namespace Chip
variable {s t u : Chip} {d : Die} {a : Nat} {r : RegDesc} {w : Word}

/-- Changes at the die that spare the register leave the word taken; they are allowed where the write is not of this register alone. -/
theorem Wrote.within {as : List Nat} (h : s.Wrote t d a r w) (ho : writesOthers a = true) (hu : t.Within u d as)
    (ha : a < 0x20000000) (has : ∀ b ∈ as, b < 0x20000000 ∧ b ≠ a) : s.Wrote u d a r w :=
  ⟨(hu.reg d ha has).trans h.reg, fun e he => (hu.dies e he).trans (h.dies e he), fun hn => by simp [ho] at hn⟩

theorem Wrote.upd (h : s.Wrote t d a r w) (f : DieX → DieX) : s.Wrote (t.upd d f) d a r w :=
  ⟨h.reg, sameDiesBut_upd h.dies f, fun hn => sameRegsBut_upd (h.regs hn) f⟩

theorem writeFields_within (s : Chip) (d : Die) (a : Nat) (r : RegDesc) (w : Word) : s.Within (s.writeFields d a r w) d [a] := by
  have ht := (Within.refl s d [a]).setReg (a := a) (by simp) (newWord r.fields (s.reg d a) w ((s.die d).boot.locked.contains a))
  exact ht.cond _ (f := fun s => s.updBoot d fun x => { x with locked := a :: x.locked }) (ht.upd _)

section
variable (hs : storeWf s.regs = true)
include hs

theorem writeFields_wrote (d : Die) (a : Nat) (r : RegDesc) (w : Word) : s.Wrote (s.writeFields d a r w) d a r w := by
  have hw := writeFields_within s d a r w
  refine ⟨?_, hw.dies, fun _ => hw.regs⟩
  unfold writeFields cond
  dsimp only
  split <;> exact reg_setReg_self _ _ _ _ hs

theorem writeHeld_wrote (d : Die) (a : Nat) {r : RegDesc} (w : Word) (hl : ∀ f ∈ r.fields, f.ty ≠ .lck) :
    s.Wrote (s.writeHeld d a r w) d a r w := by
  have hw : s.Within (s.writeHeld d a r w) d [a] := ((Within.refl s d [a]).upd _).setReg (by simp) _
  refine ⟨?_, hw.dies, fun _ => hw.regs⟩
  rw [newWord_locked hl _ _ _ false]
  exact reg_setReg_self _ _ _ _ hs

theorem writeCxs_wrote (hact : s.actsOnWrite d a = false) (hp : (placeOf a).plane = 0) (hb : (placeOf a).block = 0x10) :
    s.Wrote (s.writeCxs d a r w) d a r w := by
  simp [actsOnWrite, hp, hb] at hact
  obtain ⟨-, hcfg, hcell⟩ := hact
  unfold writeCxs
  dsimp only
  rw [if_neg (by omega), if_neg (by omega), if_neg (by omega), if_neg (by omega)]
  exact writeFields_wrote hs d a r w

theorem writeInj_wrote (ha : a < 0x20000000) (hbad : addrBad a = false) (hr : regDesc a = some r) (hact : s.actsOnWrite d a = false)
    (hp : (placeOf a).plane = 0) (hb : (placeOf a).block = 0x13) (hon : s.on d (domIx a) = true)
    (hok : s.regRefusal d a w 0xFFFF = none) : s.Wrote (s.writeInj d a r w) d a r w := by
  have hl := not_lck_of_block hr (by rw [hp, hb]; decide)
  have hcap : ¬ ((placeOf a).chan = 0xFF ∧ (placeOf a).word = 0) := by
    rintro ⟨hc, hw⟩
    have haddr := eq_regAddr ha hbad
    rw [hp, hb, hc, hw] at haddr
    exact absurd haddr (ne_of_not_actsOnWrite hact)
  have hword : (placeOf a).chan < 4 → (placeOf a).word ≤ 5 := by
    intro hc
    have h : ∀ x ∈ blockRegs 0 0x13, x.chan < 4 → x.last ≤ 5 := by decide
    refine word_le_of_last hr fun x hx h1 _ => ?_
    rw [hp, hb] at hx
    exact h x hx (by omega)
  simp [actsOnWrite, hp, hb] at hact
  obtain ⟨-, hword3⟩ := hact
  simp [regRefusal, refusal0, hp, hb, hon] at hok
  unfold writeInj
  dsimp only
  rw [if_neg hcap]
  split
  · next hc =>
    obtain ⟨h0, h2, h3⟩ := hword3 hc
    split
    · exact absurd ‹_› h0
    · exact absurd ‹_› h2
    · exact absurd ‹_› h3
    · exact writeFields_wrote hs d a r w
    · next h5 =>
      have hle := hword hc
      have hne : (placeOf a).word ≠ 5 := h5
      have hlt : (placeOf a).word < 5 := by omega
      rw [if_neg (by simp [hok hc hlt])]
      exact writeHeld_wrote hs d a w hl
  · exact writeFields_wrote hs d a r w

omit hs in
theorem thmAux_writesOthers : ∀ k < 8,
    writesOthers (THM_AUX k) = true ∧ ∀ b ∈ [THM_CELLSTAT, THM_OTSTAT], b < 0x20000000 ∧ b ≠ THM_AUX k := by decide

theorem writeThm_wrote (ha : a < 0x20000000) (hbad : addrBad a = false) (hr : regDesc a = some r) (hact : s.actsOnWrite d a = false)
    (hp : (placeOf a).plane = 0) (hb : (placeOf a).block = 0x14) : s.Wrote (s.writeThm d a r w) d a r w := by
  have haddr := eq_regAddr ha hbad
  have hw := writeFields_wrote hs d a r w
  have hword : (placeOf a).chan = 0xFF → (placeOf a).word ≤ 23 := by
    intro hc
    have h : ∀ x ∈ blockRegs 0 0x14, 0xFF < x.chan + x.nchan → x.last ≤ 23 := by decide
    refine word_le_of_last hr fun x hx _ h2 => ?_
    rw [hp, hb] at hx
    exact h x hx (by omega)
  have hsest : ¬ ((placeOf a).chan < 5 ∧ (placeOf a).word = 1) := by
    simp [actsOnWrite, hp, hb] at hact
    exact fun hc => hact.2 hc.1 hc.2
  unfold writeThm
  dsimp only
  rw [if_neg hsest]
  split
  · exact hw
  · next hc =>
    rw [Decidable.not_not] at hc
    rw [hp, hb, hc] at haddr
    split
    · next h => exact absurd (haddr.trans (congrArg (regAddr 0 0x14 0xFF) h)) (ne_of_not_actsOnWrite hact)
    · next h => exact absurd (haddr.trans (congrArg (regAddr 0 0x14 0xFF) h)) (ne_of_not_actsOnWrite hact)
    · next h =>
      have hlim : a = THM_HOSTLIM := haddr.trans (congrArg (regAddr 0 0x14 0xFF) h)
      subst hlim
      exact hw.within rfl (showThrottle_within _ d _) ha (by decide)
    · unfold cond
      split
      · next h =>
        have hle := hword hc
        have hge : 16 ≤ (placeOf a).word := of_decide_eq_true h
        have haux : a = THM_AUX ((placeOf a).word - 16) :=
          haddr.trans (congrArg (regAddr 0 0x14 0xFF) (by omega : (placeOf a).word = 0x10 + ((placeOf a).word - 16)))
        obtain ⟨ho, hne⟩ := thmAux_writesOthers ((placeOf a).word - 16) (by omega)
        rw [← haux] at ho hne
        exact hw.within ho (auxOffs_within _ d) ha hne
      · exact hw

theorem write0_wrote (ha : a < 0x20000000) (hbad : addrBad a = false) (hr : regDesc a = some r) (hact : s.actsOnWrite d a = false)
    (hp : (placeOf a).plane = 0) (hon : s.on d (domIx a) = true) (hok : s.regRefusal d a w 0xFFFF = none) :
    s.Wrote (s.write0 d a r w) d a r w := by
  unfold write0
  dsimp only
  split
  · next hb => exact writeCxs_wrote hs hact hp hb
  · next hb =>
    have hl := not_lck_of_block hr (by rw [hp, hb]; decide)
    have hprog : ¬ ((placeOf a).chan = 0x10 ∧ s.progLocked d = true) := by
      rintro ⟨hc, hlock⟩
      have h : ∀ x ∈ blockRegs 0 0x11, x.chan ≤ 0x10 → 0x10 < x.chan + x.nchan → x.last ≤ 511 := by decide
      have hle : (placeOf a).word ≤ 511 := word_le_of_last hr fun x hx h1 h2 => by
        rw [hp, hb] at hx
        exact h x hx (hc ▸ h1) (hc ▸ h2)
      simp [regRefusal, refusal0, hp, hb, hon, hc, hlock, (by omega : (placeOf a).word < 512)] at hok
    rw [if_neg hprog]
    split
    · exact writeFields_wrote hs d a r w
    · exact writeHeld_wrote hs d a w hl
  · next hb => exact writeHeld_wrote hs d a w (not_lck_of_block hr (by rw [hp, hb]; decide))
  · next hb => exact writeInj_wrote hs ha hbad hr hact hp hb hon hok
  · next hb => exact writeThm_wrote hs ha hbad hr hact hp hb
  · exact writeFields_wrote hs d a r w

/-! ### Plane 1 -/

theorem writeCfe_wrote (hact : s.actsOnWrite d a = false) : s.Wrote (s.writeCfe d a r w) d a r w := by
  unfold writeCfe
  rw [if_neg (ne_of_not_actsOnWrite hact), if_neg (ne_of_not_actsOnWrite hact), if_neg (ne_of_not_actsOnWrite hact)]
  exact writeFields_wrote hs d a r w

theorem writeOwd_wrote (ha : a < 0x20000000) (hact : s.actsOnWrite d a = false)
    (hp : (placeOf a).plane = 1) (hb : (placeOf a).block = 0x03) : s.Wrote (s.writeOwd d a r w) d a r w := by
  have hw := writeFields_wrote hs d a r w
  have hcmd : a ≠ OWD_CMD := ne_of_not_actsOnWrite hact
  simp [actsOnWrite, hp, hb] at hact
  obtain ⟨-, hwire⟩ := hact
  unfold writeOwd
  dsimp only
  rw [if_neg hcmd]
  split
  · next hcfg =>
    subst hcfg
    unfold cond
    split
    · exact hw.within rfl (wiringInterlock_within _ d) ha (by decide)
    · exact hw
  · rw [if_neg (by omega)]
    split
    · unfold dropCleared updOwd
      exact hw.upd _
    · exact hw

theorem write1_wrote (ha : a < 0x20000000) (hact : s.actsOnWrite d a = false) (hp : (placeOf a).plane = 1) :
    s.Wrote (s.write1 d a r w) d a r w := by
  have hw := writeFields_wrote hs d a r w
  unfold write1
  dsimp only
  split
  · exact writeCfe_wrote hs hact
  · next hb => exact writeOwd_wrote hs ha hact hp hb
  · next hb =>
    have hcmd : a ≠ EIS_CMD := ne_of_not_actsOnWrite hact
    simp [actsOnWrite, hp, hb] at hact
    obtain ⟨-, hzt⟩ := hact
    rw [if_neg hcmd, if_neg (by omega)]
    exact hw
  · next hb =>
    simp [actsOnWrite, hp, hb] at hact
    obtain ⟨-, hword⟩ := hact
    split
    · exact hw
    · next hc =>
      obtain ⟨h0, h1, h5⟩ := hword (by omega)
      split
      · exact absurd ‹_› h0
      · exact absurd ‹_› h1
      · exact absurd ‹_› h5
      · exact hw
  · exact hw

/-! ### Plane 2 -/

theorem writeFolio_wrote (ha : a < 0x20000000) (hact : s.actsOnWrite d a = false)
    (hp : (placeOf a).plane = 2) (hb : (placeOf a).block = 0x24) : s.Wrote (s.writeFolio d a r w) d a r w := by
  have hw := writeFields_wrote hs d a r w
  have hseal : a ≠ FOL_SEALCRC := ne_of_not_actsOnWrite hact
  simp [actsOnWrite, hp, hb] at hact
  obtain ⟨-, hchan⟩ := hact
  unfold writeFolio
  dsimp only
  rw [if_neg hchan, if_neg hseal]
  split
  · next hsel =>
    subst hsel
    exact hw.within rfl (showModePend_within _ d) ha (by decide)
  · exact hw

theorem writeFcol_wrote (ha : a < 0x20000000) (hbad : addrBad a = false) (hr : regDesc a = some r) (hact : s.actsOnWrite d a = false)
    (hp : (placeOf a).plane = 2) (hb : (placeOf a).block = 0x26) : s.Wrote (s.writeFcol d a r w) d a r w := by
  have hw := writeFields_wrote hs d a r w
  have haddr := eq_regAddr ha hbad
  have hc : (placeOf a).chan = 0xFF := by
    have h : ∀ x ∈ blockRegs 2 0x26, x.chan = 0xFF ∧ x.nchan = 1 := by decide
    obtain ⟨hm, hcov⟩ := regDesc_mem hr
    obtain ⟨h1, h2, -⟩ := RegDesc.bounds_of_covers hcov
    rw [hp, hb] at hm
    have := h r hm
    omega
  rw [hp, hb, hc] at haddr
  have hctrl : (placeOf a).word ≠ 0x12 := fun h =>
    absurd (haddr.trans (congrArg (regAddr 2 0x26 0xFF) h)) (ne_of_not_actsOnWrite hact)
  have hinj : (placeOf a).word ≠ 0x13 := fun h =>
    absurd (haddr.trans (congrArg (regAddr 2 0x26 0xFF) h)) (ne_of_not_actsOnWrite hact)
  simp [actsOnWrite, hp, hb] at hact
  obtain ⟨-, hstk⟩ := hact
  unfold writeFcol
  dsimp only
  rw [if_neg (by omega), if_neg hctrl, if_neg hinj]
  split
  · exact hw.upd _
  · exact hw

theorem writeBist_wrote (hact : s.actsOnWrite d a = false)
    (hp : (placeOf a).plane = 2) (hb : (placeOf a).block = 0x29) : s.Wrote (s.writeBist d a r w) d a r w := by
  have hctrl : a ≠ BIST_CTRL := ne_of_not_actsOnWrite hact
  have hfuse : a ≠ BIST_FUSE := ne_of_not_actsOnWrite hact
  simp [actsOnWrite, hp, hb] at hact
  obtain ⟨-, hlcy, hcfg⟩ := hact
  unfold writeBist
  rw [if_neg (not_or.2 ⟨hlcy, fun h => hcfg h.1 h.2⟩), if_neg hctrl, if_neg hfuse]
  exact writeFields_wrote hs d a r w

theorem write2_wrote (ha : a < 0x20000000) (hbad : addrBad a = false) (hr : regDesc a = some r) (hact : s.actsOnWrite d a = false)
    (hp : (placeOf a).plane = 2) : s.Wrote (s.write2 d a r w) d a r w := by
  have hw := writeFields_wrote hs d a r w
  unfold write2
  split
  · rw [if_neg (ne_of_not_actsOnWrite hact)]
    exact hw
  · next hb => exact writeFolio_wrote hs ha hact hp hb
  · rw [if_neg (ne_of_not_actsOnWrite hact)]
    exact hw
  · next hb => exact writeFcol_wrote hs ha hbad hr hact hp hb
  · rw [if_neg (ne_of_not_actsOnWrite hact)]
    exact hw
  · next hb => exact writeBist_wrote hs hact hp hb
  · next hb =>
    have hcmd : a ≠ LCY_FUSECMD := ne_of_not_actsOnWrite hact
    simp [actsOnWrite, hp, hb] at hact
    rw [if_neg hact.2, if_neg hcmd]
    exact hw
  · exact hw

/-! ### A write at any address -/

/-- A write outside plane 3 of an ordinary register (R7, R9). -/
theorem regApply_wrote (ha : a < 0x20000000) (hbad : addrBad a = false) (hr : regDesc a = some r) (hact : s.actsOnWrite d a = false)
    (hp : (placeOf a).plane ≠ 3) (hon : s.on d (domIx a) = true) (hok : s.regRefusal d a w 0xFFFF = none) :
    s.Wrote (s.regApply d a w) d a r w := by
  have hlt : (placeOf a).plane < 4 := Nat.mod_lt _ (by decide)
  have hplane : (placeOf a).plane = 0 ∨ (placeOf a).plane = 1 ∨ (placeOf a).plane = 2 := by omega
  unfold regApply
  simp only [hon, hr, Bool.not_true, Bool.false_eq_true, if_false]
  rcases hplane with h | h | h <;> simp only [h]
  · exact write0_wrote hs ha hbad hr hact h hon hok
  · exact write1_wrote hs ha hact h
  · exact write2_wrote hs ha hbad hr hact h

theorem setReg_reg_sameRegs (d : Die) (a : Nat) : s.sameRegs (s.setReg d a (s.reg d a)) := by
  intro e b
  by_cases h : fullAddr d a = fullAddr e b
  · have hsame : ∀ u : Chip, u.reg e b = u.reg d a := fun u => by simp only [Chip.reg, h]
    rw [hsame, hsame, reg_setReg_self _ _ _ _ hs]
  · exact reg_setReg_ne _ _ _ _ _ _ h

end

theorem writeFields_of_not_lck (hl : ∀ f ∈ r.fields, f.ty ≠ .lck) (s : Chip) (d : Die) (a : Nat) (w : Word) :
    s.writeFields d a r w = s.setReg d a (newWord r.fields (s.reg d a) w ((s.die d).boot.locked.contains a)) := by
  have hany : (r.fields.any fun f => f.ty == .lck) = false := by simpa using hl
  simp [writeFields, hany]

theorem fullAddr_mod (d : Die) (ha : a < 0x20000000) : fullAddr d a % 0x20000000 = a := by
  simp only [fullAddr]
  omega

theorem regWriteAny_of_plane_ne (ha : a < 0x20000000) (hbad : addrBad a = false) (hp : (placeOf a).plane ≠ 3)
    (hok : s.regRefusal d a w 0xFFFF = none) : s.regWriteAny d (fullAddr d a) w = s.regApply d a w := by
  simp [regWriteAny, fullAddr_mod d ha, hbad, hp, regWrite, hok]

theorem regWriteAny_of_plane3 (ha : a < 0x20000000) (hbad : addrBad a = false) (hp : (placeOf a).plane = 3)
    (hok : s.regRefusal d a w 0xFFFF = none) :
    s.regWriteAny d (fullAddr d a) w = s.each s.liveDies fun k s => s.regApply k a w := by
  simp [regWriteAny, fullAddr_mod d ha, hbad, hp, hok]

theorem regApply_of_block2 (hr : regDesc a = some r) (hp : (placeOf a).plane = 1) (hb : (placeOf a).block = 2)
    (hon : s.on d (domIx a) = true) : s.regApply d a w = s.writeFields d a r w := by
  simp [regApply, hon, hr, hp, write1, hb]

/-! ### Module-common registers (R21) -/

theorem domIx_of_plane3 (hp : (placeOf a).plane = 3) : domIx a = 0 := by
  have hp' : a / 0x8000000 % 4 = 3 := hp
  simp [domIx, addrDomain, domainOf, hp']

/-- Outside the roster and the two registers with rules of their own, a module-common register takes a word by its fields. -/
theorem regApply_of_plane3 (hbad : addrBad a = false) (hr : regDesc a = some r) (hp : (placeOf a).plane = 3) (hb : (placeOf a).block ≠ 0x06)
    (hne : a ≠ MOD_SNAP_CTRL ∧ a ≠ MOD_RING_ROLE) (t : Chip) (k : Die) (hon : t.on k 0 = true) :
    t.regApply k a w = t.setReg k a (newWord r.fields (t.reg k a) w ((t.die k).boot.locked.contains a)) := by
  have hl : ∀ f ∈ r.fields, f.ty ≠ .lck := not_lck_of_block hr (by
    have hblock : (placeOf a).block = 0x06 ∨ (placeOf a).block = 0x26 ∨ (placeOf a).block = 0x27 ∨ (placeOf a).block = 0x30 := by
      simpa [addrBad, hp, blockAssigned, Decidable.or_iff_not_imp_left] using (Bool.or_eq_false_iff.1 hbad).2
    rcases hblock with h | h | h | h <;> rw [hp, h] <;> decide)
  rw [← writeFields_of_not_lck hl]
  simp [regApply, domIx_of_plane3 hp, hon, hr, hp, write3, hb, hne.1, hne.2]

/-- A word written in each of some dies is taken by each from what its own copy was. -/
theorem each_regApply_of_plane3 (hbad : addrBad a = false) (hr : regDesc a = some r) (hp : (placeOf a).plane = 3)
    (hb : (placeOf a).block ≠ 0x06) (hne : a ≠ MOD_SNAP_CTRL ∧ a ≠ MOD_RING_ROLE) {l : List Die} (hl : l.Nodup) {t : Chip}
    (ht : storeWf t.regs = true) (hon : ∀ k ∈ l, t.on k 0 = true) :
    (t.each l fun k u => u.regApply k a w).dies = t.dies
      ∧ (∀ k ∈ l, (t.each l fun k u => u.regApply k a w).reg k a
          = newWord r.fields (t.reg k a) w ((t.die k).boot.locked.contains a))
      ∧ ∀ k ∉ l, (t.each l fun k u => u.regApply k a w).reg k a = t.reg k a := by
  induction l generalizing t with
  | nil => exact ⟨rfl, fun k hk => absurd hk List.not_mem_nil, fun _ _ => rfl⟩
  | cons j l ih =>
    obtain ⟨hj, hnd⟩ := List.nodup_cons.1 hl
    have hother : ∀ (k : Die) v, k ≠ j → (t.setReg j a v).reg k a = t.reg k a := fun k v hk =>
      reg_setReg_ne _ _ _ _ _ _ (fullAddr_ne_die _ _ _ _ (Ne.symm hk))
    have hstep := regApply_of_plane3 (w := w) hbad hr hp hb hne t j (hon j List.mem_cons_self)
    have hrec := ih hnd (t := t.regApply j a w) (by rw [hstep]; exact setReg_store _ _ _ _ ht)
      (by rw [hstep]; exact fun k hk => hon k (List.mem_cons_of_mem _ hk))
    obtain ⟨hdies, hin, hout⟩ := hrec
    rw [hstep] at hdies hin hout
    simp only [each, List.foldl_cons, hstep] at hdies hin hout ⊢
    refine ⟨hdies, fun k hk => ?_, fun k hk => ?_⟩
    · rcases List.mem_cons.1 hk with rfl | hk
      · rw [hout k hj, reg_setReg_self _ _ _ _ ht]
      · have hne : k ≠ j := fun h => hj (h ▸ hk)
        rw [hin k hk, hother k _ hne, setReg_die]
    · obtain ⟨hkj, hkl⟩ := not_or.1 (mt List.mem_cons.2 hk)
      rw [hout k hkl, hother k _ hkj]

theorem liveDies_nodup (s : Chip) : s.liveDies.Nodup := List.Pairwise.filter _ (by decide)

theorem on_of_mem_liveDies {k : Die} (h : k ∈ s.liveDies) : s.on k 0 = true := by
  have := (List.mem_filter.1 h).2
  simp only [Bool.and_eq_true] at this
  exact this.1.2

/-- A write of an ordinary module-common register reaches every live die (R21), and changes nothing that a die holds beside its registers. -/
theorem regWriteAny_common (hs : storeWf s.regs = true) (ha : a < 0x20000000) (hbad : addrBad a = false) (hr : regDesc a = some r)
    (hp : (placeOf a).plane = 3) (hb : (placeOf a).block ≠ 0x06) (hne : a ≠ MOD_SNAP_CTRL ∧ a ≠ MOD_RING_ROLE)
    (hok : s.regRefusal d a w 0xFFFF = none) :
    (∀ k ∈ s.liveDies, s.takesWord (s.regWriteAny d (fullAddr d a) w) k a r w)
      ∧ (s.regWriteAny d (fullAddr d a) w).dies = s.dies := by
  rw [regWriteAny_of_plane3 ha hbad hp hok]
  obtain ⟨hdies, hin, -⟩ := each_regApply_of_plane3 (w := w) hbad hr hp hb hne (liveDies_nodup s) hs fun k => on_of_mem_liveDies
  exact ⟨fun k hk => takesWord_of_reg hr (hin k hk), hdies⟩

end Chip

theorem exec_registerWrite {s : State} {d : Die} {addr : Nat} {w : Word} (hf : s.chip.fitted d = true) (hon : s.chip.on d 0 = true) :
    exec (.registerWrite d addr w) s = .next { s with chip := s.chip.regWriteAny d addr w } := by
  change execRegisterWrite d addr w s = _
  simp [execRegisterWrite, hf, hon]

end Sys2Proof.Machine
end

section
/-! PROOFS. The clauses of O54 on register writes, PING, ENUMERATE and CHECK. -/
namespace Sys2Proof.Machine

/-! ### Register writes -/

section
variable {s : State} {d : Die} (hs : s.Inv) (hf : s.chip.fitted d = true) (h0 : s.chip.on d 0 = true)
include hs hf h0

theorem registerWrite_takesWord {a : Nat} {r : RegDesc} {w : Word} (ha : a < 0x20000000) (hbad : addrBad a = false) (hr : regDesc a = some r)
    (hp : (placeOf a).plane ≠ 3) (hon : s.chip.on d (domIx a) = true) (hok : s.chip.regRefusal d a w 0xFFFF = none)
    (hact : s.chip.actsOnWrite d a = false) : ∃ t, exec (.registerWrite d (fullAddr d a) w) s = .next t
      ∧ s.chip.takesWord t.chip d a r w ∧ s.chip.sameDiesBut t.chip d ∧ (writesOthers a = false → s.chip.sameRegsBut t.chip d [a]) := by
  have hw := Chip.regApply_wrote (w := w) hs.1 ha hbad hr hact hp hon hok
  refine ⟨_, exec_registerWrite hf h0, ?_⟩
  rw [Chip.regWriteAny_of_plane_ne ha hbad hp hok]
  exact ⟨Chip.takesWord_of_reg hr hw.reg, hw.dies, hw.regs⟩

theorem registerWrite_common {a : Nat} {r : RegDesc} {w : Word} (ha : a < 0x20000000) (hbad : addrBad a = false) (hr : regDesc a = some r)
    (hp : (placeOf a).plane = 3) (hb : (placeOf a).block ≠ 0x06) (hne : a ≠ MOD_SNAP_CTRL ∧ a ≠ MOD_RING_ROLE)
    (hok : s.chip.regRefusal d a w 0xFFFF = none) : ∃ t, exec (.registerWrite d (fullAddr d a) w) s = .next t
      ∧ (∀ k ∈ s.chip.liveDies, s.chip.takesWord t.chip k a r w) ∧ t.chip.dies = s.chip.dies :=
  ⟨_, exec_registerWrite hf h0, Chip.regWriteAny_common hs.1 ha hbad hr hp hb hne hok⟩

omit hs in
/-- A write in the shadow path (R74) takes its word, and changes no other register. -/
theorem registerWrite_shadow {a : Nat} {r : RegDesc} {w : Word} (ha : a < 0x20000000) (hbad : addrBad a = false) (hr : regDesc a = some r)
    (hp : (placeOf a).plane = 1) (hb : (placeOf a).block = 2) (hon : s.chip.on d (domIx a) = true) :
    exec (.registerWrite d (fullAddr d a) w) s
      = .next { s with chip := s.chip.setReg d a (newWord r.fields (s.chip.reg d a) w ((s.chip.die d).boot.locked.contains a)) } := by
  have hl := not_lck_of_block hr (by rw [hp, hb]; decide)
  have hok : s.chip.regRefusal d a w 0xFFFF = none := by simp [Chip.regRefusal, Chip.refusal1, hp, hb]
  rw [exec_registerWrite hf h0, Chip.regWriteAny_of_plane_ne ha hbad (by omega) hok, Chip.regApply_of_block2 hr hp hb hon,
    Chip.writeFields_of_not_lck hl]

theorem registerWrite_shdOv (h2 : s.chip.on d 2 = true) (w : Word) :
    ∃ t, exec (.registerWrite d (fullAddr d SHD_OV) w) s = .next t ∧ t.chip.get d SHD_OV SHD_OV.CODE = SHD_OV.CODE.read w
      ∧ s.chip.sameRegsBut t.chip d [SHD_OV] ∧ t.chip.dies = s.chip.dies := by
  have hr : regDesc SHD_OV = some (regsSHD1.head (by decide)) := by decide
  refine ⟨_, registerWrite_shadow hf h0 (by decide) (by decide) hr (by decide) (by decide) h2, ?_, ?_, rfl⟩
  · exact (Chip.takesWord_of_reg hr (Chip.reg_setReg_self _ _ _ _ hs.1)).read_rw (by decide)
  · exact Chip.sameRegsBut_setReg (Chip.sameRegsBut_refl _ _ _) _ _ (by simp)

/-- The status of the shadow path is read-only: a write leaves everything as it is. -/
theorem registerWrite_shdStatus (h2 : s.chip.on d 2 = true) (w : Word) :
    ∃ t, exec (.registerWrite d (fullAddr d SHD_STATUS) w) s = .next t ∧ s.chip.sameRegs t.chip ∧ t.chip.dies = s.chip.dies := by
  have hr : regDesc SHD_STATUS = some (regsSHD1[4]) := by decide
  have hro : ∀ f ∈ (regsSHD1[4]).fields, f.ty = .ro := by decide
  refine ⟨_, registerWrite_shadow hf h0 (by decide) (by decide) hr (by decide) (by decide) h2, ?_, rfl⟩
  rw [newWord_of_ro hro]
  exact Chip.setReg_reg_sameRegs hs.1 _ _

theorem registerWrite_snapCfg (w : Word) : ∃ t, exec (.registerWrite d (fullAddr d MOD_SNAP_CFG) w) s = .next t
    ∧ (∀ k ∈ s.chip.liveDies, t.chip.get k MOD_SNAP_CFG MOD_SNAP_CFG.PIN_EN = MOD_SNAP_CFG.PIN_EN.read w
        ∧ t.chip.get k MOD_SNAP_CFG MOD_SNAP_CFG.PIN_POL = MOD_SNAP_CFG.PIN_POL.read w) ∧ t.chip.dies = s.chip.dies := by
  have hr : regDesc MOD_SNAP_CFG = some (regsSNAP3.head (by decide)) := by decide
  have hplace : placeOf MOD_SNAP_CFG = ⟨3, 0x27, 0xFF, 0⟩ := by decide
  have hok : s.chip.regRefusal d MOD_SNAP_CFG w 0xFFFF = none := by simp [Chip.regRefusal, Chip.refusal3, hplace]
  obtain ⟨t, ht, hall, hdies⟩ := registerWrite_common hs hf h0 (w := w) (by decide) (by decide) hr (by decide) (by decide) (by decide) hok
  exact ⟨t, ht, fun k hk => ⟨(hall k hk).read_rw (by decide), (hall k hk).read_rw (by decide)⟩, hdies⟩

end

/-! ### PING (R274) -/

/-- A response of a module with an address joins the die's queue, and changes nothing else. -/
theorem Chip.respond_eq_enqueue {s : Chip} {d : Die} (h : s.address d ≠ 0) (die : Die) (smod tag seq op st det mask : Nat) (res : List Byte) :
    s.respond d die smod tag seq op st det mask res
      = s.enqueue d ⟨3, 0, smod, 0, s.address d, die.val, tag, seq,
          leBytes 1 op ++ leBytes 1 st ++ leBytes 2 (s.get d MOD_SESSION MOD_SESSION.SESSION) ++ leBytes 2 det ++ leBytes 1 mask ++ [0]
            ++ (if res = [] ∧ 0x02 < st ∧ kindI op then [0] else res), true, true⟩ := if_neg h

theorem Chip.mem_enqueue (s : Chip) (d : Die) (f : Frame) : f ∈ ((s.enqueue d f).die d).ring.queue := by
  simp [Chip.enqueue]

/-- A valid PING for the die has its answer formed from the registers as they stand (R274). -/
theorem Chip.ping_eq {s : Chip} {d : Die} {f : FrameIn} (hf : s.fitted d = true) (h0 : s.on d 0 = true)
    (hlink : s.linked d = true) (haddr : s.address d ≠ 0) (hcmd : validCmd f = true) (hgasp : (s.die d).pwr.gasp = none)
    (hok : s.frameLinkOk d f = true) (hmod : f.dmod = s.address d) (hdie : f.ddie = d.val) (hop : pktOpcode f.payload = 0x01)
    (hpkt : packetFault f.payload = none) :
    s.ping d f = (s.put d CMD_STAT CMD_STAT.LASTOP 0x01).respond d d f.smod f.tag f.seq 0x01 0 0 (2 ^ d.val)
      (leBytes 2 (s.get d MOD_SESSION MOD_SESSION.SESSION) ++ leBytes 1 (s.address d)
          ++ leBytes 1 (s.get d MOD_TOPOLOGY MOD_TOPOLOGY.ALIVE) ++ leBytes 1 (s.lifecycle d)
          ++ leBytes 1 (s.get d CMD_STAT CMD_STAT.FWSTATE) ++ leBytes 2 (s.expect d)) := by
  simp [ping, hf, h0, hlink, haddr, hcmd, hgasp, hok, hmod, hdie, hop, hpkt]

theorem ping_answered {s : State} (hs : s.Inv) {d : Die} {f : FrameIn} (hf : s.chip.fitted d = true) (h0 : s.chip.on d 0 = true)
    (hlink : s.chip.linked d = true) (haddr : s.chip.address d ≠ 0) (hcmd : Chip.validCmd f = true) (hgasp : (s.chip.die d).pwr.gasp = none)
    (hok : s.chip.frameLinkOk d f = true) (hmod : f.dmod = s.chip.address d) (hdie : f.ddie = d.val) (hop : pktOpcode f.payload = 0x01)
    (hpkt : packetFault f.payload = none) :
    ∃ t, exec (.ping d f) s = .next t
      ∧ (∃ g ∈ (t.chip.die d).ring.queue, g.ftype = 3 ∧ g.tag = f.tag ∧ g.seq = f.seq ∧ g.dmod = f.smod
        ∧ g.payload.drop 8 = leBytes 2 (s.chip.get d MOD_SESSION MOD_SESSION.SESSION) ++ leBytes 1 (s.chip.address d)
          ++ leBytes 1 (s.chip.get d MOD_TOPOLOGY MOD_TOPOLOGY.ALIVE) ++ leBytes 1 (s.chip.lifecycle d)
          ++ leBytes 1 (s.chip.get d CMD_STAT CMD_STAT.FWSTATE) ++ leBytes 2 (s.chip.expect d))
      ∧ t.chip.get d CMD_STAT CMD_STAT.LASTOP = 1 ∧ s.chip.sameRegsBut t.chip d [CMD_STAT] ∧ s.chip.sameDiesBut t.chip d := by
  have haddr' : (s.chip.put d CMD_STAT CMD_STAT.LASTOP 0x01).address d ≠ 0 := by
    rw [Chip.address, Chip.get_put_off _ _ _ _ _ _ _ _ (by decide) (by decide) (by decide)]
    exact haddr
  have hw := ((Chip.Within.refl s.chip d [CMD_STAT]).put (a := CMD_STAT) (by simp) CMD_STAT.LASTOP 0x01)
  refine ⟨{ s with chip := s.chip.ping d f }, rfl, ?_⟩
  rw [Chip.ping_eq hf h0 hlink haddr hcmd hgasp hok hmod hdie hop hpkt, Chip.respond_eq_enqueue haddr']
  refine ⟨⟨_, Chip.mem_enqueue _ _ _, rfl, rfl, rfl, rfl, rfl⟩, ?_, (hw.upd _).regs, (hw.upd _).dies⟩
  exact Chip.get_put_self _ _ _ _ _ hs.1 (by decide)

/-! ### ENUMERATE (R263) -/

/-- What every turn of a change over a list keeps, it keeps. -/
theorem Chip.each_keeps {α : Type} {P : Chip → Prop} {f : α → Chip → Chip} (hf : ∀ x u, P u → P (f x u)) {s : Chip} (hs : P s)
    (l : List α) : P (s.each l f) := by
  induction l generalizing s with
  | nil => exact hs
  | cons x l ih => exact ih (hf x s hs)

/-- What the turn of one element brings about, and every turn keeps, holds after a change over a list that has the element. -/
theorem Chip.each_brings {α : Type} {P Q : Chip → Prop} {f : α → Chip → Chip} (hf : ∀ x u, P u → P (f x u)) {x : α}
    (hx : ∀ u, P u → Q (f x u)) (hkeep : ∀ y u, P u → Q u → Q (f y u)) {s : Chip} (hs : P s) {l : List α} (hl : x ∈ l) :
    Q (s.each l f) := by
  induction l generalizing s with
  | nil => exact absurd hl List.not_mem_nil
  | cons y l ih =>
    rcases List.mem_cons.1 hl with rfl | hl
    · exact (each_keeps (P := fun u => P u ∧ Q u) (fun y u hu => ⟨hf y u hu.1, hkeep y u hu.1 hu.2⟩) ⟨hf x s hs, hx s hs⟩ l).2
    · exact ih (hf y s hs) hl

theorem Chip.showJournal_within (s : Chip) (d : Die) : s.Within (s.showJournal d) d [JNL_STAT] := by
  have ht := fun n b => ((Within.refl s d [JNL_STAT]).put (a := JNL_STAT) (by simp) JNL_STAT.OPEN n).putB (a := JNL_STAT) (by simp)
    JNL_STAT.GAPWAIT b
  unfold showJournal
  exact (ht _ _).cond _ (f := fun s => s.updJnl d fun j => { j with gapStrokes := 0 }) ((ht _ _).upd _)

theorem Chip.showJournal_expect {s : Chip} (hs : storeWf s.regs = true) (d : Die) : (s.showJournal d).expect d = s.expect d := by
  have hcond : ∀ (u : Chip) (b : Bool) (g : DieX → DieX), (u.cond b fun s => s.upd d g).expect d = u.expect d := by
    intro u b g
    cases b <;> rfl
  unfold showJournal
  refine (hcond _ _ _).trans ?_
  unfold expect putB
  rw [get_put_apart _ _ _ _ _ _ (put_store _ _ _ _ _ hs) (by decide), get_put_apart _ _ _ _ _ _ hs (by decide)]

/-- The journal of a die as it begins a session: EXPECT is 0 and no SEQ has been executed (R277). -/
def Chip.beginJournal (k : Die) (s : Chip) : Chip :=
  ((s.updJnl k fun j => { j with lastSeq := 0 }).put k JNL_STAT JNL_STAT.EXPECT 0).showJournal k

theorem Chip.beginJournal_within (k : Die) (s : Chip) : s.Within (s.beginJournal k) k [JNL_STAT] :=
  (((Within.refl s k [JNL_STAT]).upd fun x => { x with jnl := { x.jnl with lastSeq := 0 } }).put (by simp) JNL_STAT.EXPECT 0).trans
    (showJournal_within _ k)

theorem Chip.beginJournal_good {G : Watch} (k : Die) {s : Chip} (hs : s.good G) : (s.beginJournal k).good G :=
  showJournal_good _ _ (put_good _ _ _ _ _ (updJnl_good _ _ _ hs))

theorem Chip.beginJournal_expect {s : Chip} (hs : storeWf s.regs = true) (k : Die) : (s.beginJournal k).expect k = 0 := by
  refine (showJournal_expect ?_ k).trans (get_put_self _ _ _ _ _ hs (by decide))
  exact put_store _ _ _ _ _ hs

theorem Chip.beginJournal_expect_ne {s : Chip} {j k : Die} (h : j ≠ k) : (s.beginJournal j).expect k = s.expect k :=
  congrArg JNL_STAT.EXPECT.read ((beginJournal_within j s).regs k JNL_STAT (by
    simpa using fullAddr_ne_die k j JNL_STAT JNL_STAT (Ne.symm h)))

theorem mem_allDies (k : Die) : k ∈ allDies := by revert k; decide

section
variable {G : Watch} {s : Chip} (hs : s.good G) {k : Die} (hk : s.on k 0 = true) (next base : Nat)

theorem Chip.takeAddress_eq (s : Chip) (next base : Nat) :
    s.takeAddress next base = ((s.putAll MOD_TOPOLOGY MOD_TOPOLOGY.ADDRESS next).putAll MOD_SESSION MOD_SESSION.SESSION
      (if (base + 1) % 65536 = 0 then 1 else (base + 1) % 65536)).each (allDies.filter fun k => s.on k 0) beginJournal := rfl

/-- Beginning the journals of the dies leaves every register but JNL_STAT. -/
theorem Chip.each_beginJournal_reg (s : Chip) (l : List Die) (k : Die) {b : Nat} (hb : b < 0x20000000) (hne : JNL_STAT ≠ b) :
    (s.each l beginJournal).reg k b = s.reg k b :=
  each_keeps (P := fun u => u.reg k b = s.reg k b)
    (fun j u hu => ((beginJournal_within j u).reg k hb (by simpa using ⟨by decide, hne⟩)).trans hu) rfl l

include hs hk

theorem Chip.takeAddress_address : (s.takeAddress next base).address k = next % 128 := by
  have hreg : (s.takeAddress next base).reg k MOD_TOPOLOGY = (s.putAll MOD_TOPOLOGY MOD_TOPOLOGY.ADDRESS next).reg k MOD_TOPOLOGY := by
    rw [takeAddress_eq, each_beginJournal_reg _ _ _ (by decide) (by decide), reg_putAll_off _ _ _ _ _ _ (by decide) (by decide) (by decide)]
  exact (congrArg MOD_TOPOLOGY.ADDRESS.read hreg).trans (get_putAll s k _ _ _ hs.1 hk (by decide))

theorem Chip.takeAddress_session : (s.takeAddress next base).get k MOD_SESSION MOD_SESSION.SESSION
    = if (base + 1) % 65536 = 0 then 1 else (base + 1) % 65536 := by
  have hon : (s.putAll MOD_TOPOLOGY MOD_TOPOLOGY.ADDRESS next).on k 0 = true := by
    unfold on
    rw [putAll_die]
    exact hk
  have hlt : (if (base + 1) % 65536 = 0 then 1 else (base + 1) % 65536) % 65536 = if (base + 1) % 65536 = 0 then 1 else (base + 1) % 65536 := by
    split <;> omega
  refine Eq.trans ?_ hlt
  rw [takeAddress_eq, get, each_beginJournal_reg _ _ _ (by decide) (by decide)]
  exact get_putAll _ k _ _ _ (putAll_store _ _ _ _ hs.1) hon (by decide)

theorem Chip.takeAddress_expect : (s.takeAddress next base).expect k = 0 := by
  rw [takeAddress_eq]
  refine each_brings (P := fun u => u.good G) (Q := fun u => u.expect k = 0) (x := k) (fun j u hu => beginJournal_good j hu)
    (fun u hu => beginJournal_expect hu.1 k) (fun j u hu hq => ?_) (putAll_good _ _ _ _ (putAll_good _ _ _ _ hs))
    (List.mem_filter.2 ⟨mem_allDies k, hk⟩)
  by_cases h : j = k
  · exact h ▸ beginJournal_expect hu.1 j
  · exact (beginJournal_expect_ne h).trans hq

end

/-- A response changes no register. -/
theorem Chip.respond_reg (s : Chip) (d die : Die) (smod tag seq op st det mask : Nat) (res : List Byte) (k : Die) (b : Nat) :
    (s.respond d die smod tag seq op st det mask res).reg k b = s.reg k b := by
  unfold respond
  split <;> rfl

/-- A module without an address that a valid ENUMERATE reaches takes the address, begins a session, answers, and sends the frame on. -/
theorem Chip.enumerate_reg {s : Chip} {d : Die} {f : FrameIn} (hf : s.fitted d = true) (h0 : s.on d 0 = true) (h6 : s.on d 6 = true)
    (hcmd : validCmd f = true) (hgasp : (s.die d).pwr.gasp = none) (hok : s.frameLinkOk d f = true) (hmod : f.dmod = 0)
    (hop : pktOpcode f.payload = 0x04) (hmaster : s.master d = d) (haddr : s.address d = 0) (hpkt : packetFault f.payload = none)
    (h1 : 1 ≤ p8 (pktParams f.payload) 0) (h126 : p8 (pktParams f.payload) 0 ≤ 126) (k : Die) {b : Nat} (hb : b < 0x20000000)
    (hne : ULK_TX ≠ b ∧ ULK_MISS 0 ≠ b ∧ ULK_MISS 1 ≠ b ∧ CMD_STAT ≠ b) :
    (s.enumerate d f).reg k b = (s.takeAddress (p8 (pktParams f.payload) 0) (p16 (pktParams f.payload) 2)).reg k b := by
  obtain ⟨htx, hm0, hm1, hcs⟩ := hne
  have hnext : p8 (pktParams f.payload) 0 ≠ 0 ∧ p8 (pktParams f.payload) 0 ≠ 127 ∧ ¬ 127 < p8 (pktParams f.payload) 0 := by omega
  simp only [enumerate, hf, h0, h6, hcmd, hgasp, hok, hmod, hop, hmaster, haddr, hpkt, hnext.1, hnext.2.1, hnext.2.2, Option.isNone_none,
    beq_self_eq_true, Bool.and_self, Bool.not_true, Bool.false_eq_true, if_false, ne_eq, not_true_eq_false, Option.isSome_none, or_self]
  rw [forward_reg_off _ _ _ _ _ _ _ hb htx hm0 hm1, respond_reg, reg_put_off _ _ _ _ _ _ _ (by decide) hb hcs]

theorem enumerate_takesAddress {s : State} (hs : s.Inv) {d : Die} {f : FrameIn} (hf : s.chip.fitted d = true) (h0 : s.chip.on d 0 = true)
    (h6 : s.chip.on d 6 = true) (hcmd : Chip.validCmd f = true) (hgasp : (s.chip.die d).pwr.gasp = none)
    (hok : s.chip.frameLinkOk d f = true) (hmod : f.dmod = 0) (hop : pktOpcode f.payload = 0x04) (hmaster : s.chip.master d = d)
    (haddr : s.chip.address d = 0) (hpkt : packetFault f.payload = none) (h1 : 1 ≤ p8 (pktParams f.payload) 0)
    (h126 : p8 (pktParams f.payload) 0 ≤ 126) :
    ∃ t, exec (.enumerate d f) s = .next t
      ∧ (∀ k, s.chip.on k 0 = true → t.chip.address k = p8 (pktParams f.payload) 0 ∧ t.chip.expect k = 0
        ∧ t.chip.get k MOD_SESSION MOD_SESSION.SESSION
          = (if (p16 (pktParams f.payload) 2 + 1) % 65536 = 0 then 1 else (p16 (pktParams f.payload) 2 + 1) % 65536)) := by
  have hreg := fun k {b} => Chip.enumerate_reg hf h0 h6 hcmd hgasp hok hmod hop hmaster haddr hpkt h1 h126 k (b := b)
  have hgood := (Chip.wf_iff_good _).1 hs
  refine ⟨{ s with chip := s.chip.enumerate d f }, rfl, fun k hk => ⟨?_, ?_, ?_⟩⟩
  · rw [Chip.address, Chip.get, hreg k (by decide) (by decide)]
    exact (Chip.takeAddress_address hgood hk _ _).trans (Nat.mod_eq_of_lt (by omega))
  · rw [Chip.expect, Chip.get, hreg k (by decide) (by decide)]
    exact Chip.takeAddress_expect hgood hk _ _
  · rw [Chip.get, hreg k (by decide) (by decide)]
    exact Chip.takeAddress_session hgood hk _ _

end Sys2Proof.Machine
end

section
/-! PROOFS. A command at its turn that passes every check of R281 step 1 goes on from what its opcode forms; CHECK takes the check-value unit
(R291 to R293). -/
namespace Sys2Proof.Machine
namespace Chip
variable {s : Chip} {d : Die} {seq op block : Nat} {q : List Byte} {e : Entry}

/-- Nothing before the opcode's own parameters settles an entry that is ready (R281 step 1). -/
theorem frontCheck_of_ready (h : s.ready d seq op block q e) (hop : opcodes.contains op = true) : s.frontCheck d e = (none, true) := by
  obtain ⟨-, -, -, -, hpop, -, hpkt, hexp, hcrc, -, -, -, -, -, -, -, hcore, -⟩ := h
  have hlate : ¬ (pktFlags e.packet % 2 = 1 ∧ 0 < toSigned ((s.stroke d + 2 ^ 32 - pktExpiry e.packet) % 2 ^ 32) 32) :=
    fun ⟨hfl, hpos⟩ => absurd (hexp hfl) (Int.not_le.2 hpos)
  unfold frontCheck
  dsimp only
  simp only [hcrc, hpop, hop, hpkt, Bool.not_true, Bool.false_eq_true, if_false, if_neg hlate]
  split
  · rfl
  · next hk =>
    have hloops : s.coreLoops d = true := hcore.resolve_left hk
    simp only [coreLoops, runsOn, Bool.and_eq_true, beq_iff_eq] at hloops
    obtain ⟨⟨hfw, hloop⟩, ⟨-, h5⟩, hrest⟩ := hloops
    simp [hfw, hloop, h5, hrest]

/-- With no self-test slice in its block an entry takes its access at once (R282). -/
theorem accessBlock_of_not_sliced (hfrom : e.waitFrom = none) (hsl : s.slicedNow d block = false) (f : Formed) :
    s.accessBlock d block e f = (s.portAccess d e).finishForm d e f := by
  simp [accessBlock, meetsSlice, stillWaits, hfrom, hsl]

/-- An entry that is ready goes on from what its opcode forms, after its accesses to the target block (R281 steps 1 to 3). -/
theorem executeEntry_of_ready (h : s.ready d seq op block q e) (hop : opcodes.contains op = true) (hst : e.st ≠ .executing)
    (form : Chip → List Byte → Formed) (hwait : form s q ≠ .wait) (hown : (form s q).ownFault = false) :
    s.executeEntry d seq op block form = (s.portAccess d e).finishForm d e (form s q) := by
  have hfront := frontCheck_of_ready h hop
  obtain ⟨hf, h0, hdone, hent, hpop, rfl, -, -, -, hturn, -, hfrom, -, hinj, hsl, hself, -, -⟩ := h
  rw [← accessBlock_of_not_sliced hfrom hsl]
  simp [executeEntry, hf, h0, hdone, hent, hpop, hturn, hst, hinj, hfront, hown, hself]

/-! ### The entry of a command that begins -/

/-- Of the elements that pass a test, the first takes the value that all of them are given. -/
theorem find?_map_of_find? {α : Type} {p : α → Bool} {e e' : α} (hp : p e' = true) {l : List α} (h : l.find? p = some e) :
    (l.map fun x => if p x then e' else x).find? p = some e' := by
  induction l with
  | nil => simp at h
  | cons x l ih =>
    by_cases hx : p x = true
    · simp [hx, hp]
    · rw [List.find?_cons_of_neg hx] at h
      simp [hx, ih h]

/-- An entry that keeps its SEQ and its session is found as it was changed. -/
theorem entry?_updEntry {e' : Entry} (h : s.entry? d seq = some e) (hseq : e'.seq = e.seq) (hses : e'.session = e.session) :
    (s.updEntry d seq fun _ => e').entry? d seq = some e' := by
  have he := List.find?_some h
  unfold entry? updEntry updJnl
  simp only [upd_die_self, upd_get]
  exact find?_map_of_find? (by simpa only [hseq, hses] using he) h

theorem updEntry_within (s : Chip) (d : Die) (seq : Nat) (f : Entry → Entry) : s.Within (s.updEntry d seq f) d [] :=
  (Within.refl s d []).upd fun x => { x with jnl := _ }

/-! ### CHECK -/

/-- The registers that a CHECK writes: the status of the unit and the set it loads. -/
def checkRegs : List Nat := [CHK_STAT, CHK_CFG, CHK_POLY_LO, CHK_POLY_HI, CHK_INIT_LO, CHK_INIT_HI, CHK_XOR_LO, CHK_XOR_HI]

@[simp] theorem loadSet_die (s : Chip) (d : Die) (n : Nat) (k : Die) : (s.loadSet d n).die k = s.die k := by
  unfold loadSet
  split <;> rfl

theorem loadSet_within (s : Chip) (d : Die) (n : Nat) : s.Within (s.loadSet d n) d checkRegs := by
  have hs := Within.refl s d checkRegs
  unfold loadSet
  split
  · exact hs
  · exact ((((((hs.setReg (by simp [checkRegs]) _).setReg (by simp [checkRegs]) _).setReg (by simp [checkRegs]) _).setReg
      (by simp [checkRegs]) _).setReg (by simp [checkRegs]) _).setReg (by simp [checkRegs]) _).setReg (by simp [checkRegs]) _

theorem loadSet_entry? (s : Chip) (d : Die) (n : Nat) : (s.loadSet d n).entry? d seq = s.entry? d seq := by
  simp only [entry?, loadSet_die, (loadSet_within s d n).get d (b := MOD_SESSION) (by decide) (by decide)]

theorem chkRun_within (s : Chip) (d : Die) (fw : Bool) (a n : Nat) (p : Option (List Byte)) (serves : Option Nat) :
    s.Within (s.chkRun d fw a n p serves) d [CHK_STAT] :=
  (((Within.refl s d _).put (by simp) _ _).putB (by simp) _ _).upd _

@[simp] theorem chkRun_chk (s : Chip) (d : Die) (fw : Bool) (a n : Nat) (p : Option (List Byte)) (serves : Option Nat) :
    ((s.chkRun d fw a n p serves).die d).chk = { (s.die d).chk with addr := a, len := n, payload := p, serves := serves } := by
  simp only [chkRun, upd_die_self]
  rfl

theorem chkRun_entry? (s : Chip) (fw : Bool) (a n : Nat) (p : Option (List Byte)) (serves : Option Nat) :
    (s.chkRun d fw a n p serves).entry? d seq = s.entry? d seq := by
  have hget := (chkRun_within s d fw a n p serves).get d (b := MOD_SESSION) (by decide) (by decide)
  have hjnl : ((s.chkRun d fw a n p serves).die d).jnl = (s.die d).jnl := by simp only [chkRun, upd_die_self]; rfl
  simp only [entry?, hget, hjnl]

theorem chkRun_owner (hs : storeWf s.regs = true) (fw : Bool) (a n : Nat) (p : Option (List Byte)) (serves : Option Nat) :
    (s.chkRun d fw a n p serves).get d CHK_STAT CHK_STAT.OWNER = if fw then 1 else 0 := by
  rw [chkRun, upd_get, putB, get_put_self _ _ _ _ _ (put_store _ _ _ _ _ hs) (by decide)]
  cases fw <;> rfl

theorem chkRun_busy (hs : storeWf s.regs = true) (fw : Bool) (a n : Nat) (p : Option (List Byte)) (serves : Option Nat) :
    (s.chkRun d fw a n p serves).get d CHK_STAT CHK_STAT.BUSY = 1 := by
  rw [chkRun, upd_get, putB, get_put_apart _ _ _ _ _ _ (put_store _ _ _ _ _ hs) (by decide), get_put_self _ _ _ _ _ hs (by decide)]
  rfl

/-- With the unit free, nothing due and good parameters a CHECK over a range begins (R291 to R293). -/
theorem formCheck_eq_begin (hdue : (s.die d).jnl.due = []) (hbusy : s.bit d CHK_STAT CHK_STAT.BUSY = false) (hset : p8 q 0 ≤ 3)
    (hsrc : p8 q 1 = 0) (hrange : rangeOk (p32 q 4) (p32 q 8) = true) (hok : (s.loadSet d (p8 q 0)).chkParamsOk d = true) :
    s.formCheck d q = .begin_ := by
  have hfault : checkFault q = none := by simp [checkFault, hsrc, Nat.not_lt.2 hset]
  simp [formCheck, hfault, hdue, hbusy, hrange, hok]

/-- A CHECK that begins loads its set and starts the unit; its entry waits for the result. -/
theorem check_of_begin (h : s.ready d seq 0xC0 0x22 q e) (hst : e.st ≠ .executing) (hform : s.formCheck d q = .begin_) :
    s.check d seq = ((s.updEntry d seq fun _ => { e with st := .executing }).loadSet d (p8 q 0)).chkRun d false (p32 q 4) (p32 q 8)
      (checkPayload q) (some seq) := by
  obtain ⟨-, -, -, hent, hop, hq, -⟩ := id h
  have hseq : e.seq = seq := by
    have := List.find?_some hent
    simp only [Bool.and_eq_true, beq_iff_eq] at this
    exact this.1
  have hport : s.portAccess d e = s := by simp [portAccess, hop]
  have hexec : s.executeEntry d seq 0xC0 0x22 (fun t q => t.formCheck d q) = s.updEntry d seq fun _ => { e with st := .executing } := by
    rw [executeEntry_of_ready h (by decide) hst _ (by simp [hform]) (by simp [hform, Formed.ownFault])]
    simp only [hform, hport, finishForm, hseq]
  have hent' := entry?_updEntry (e' := { e with st := .executing }) hent rfl rfl
  unfold check
  simp [hexec, hent, hent', hst, hq]

end Chip

theorem check_begins {s : State} (hs : s.Inv) {d : Die} {seq : Nat} {q : List Byte} {e : Entry} (h : s.chip.ready d seq 0xC0 0x22 q e)
    (hst : e.st = .accepted) (hform : s.chip.formCheck d q = .begin_) :
    ∃ t, exec (.check d seq) s = .next t ∧ t.chip.bit d CHK_STAT CHK_STAT.BUSY = true ∧ t.chip.bit d CHK_STAT CHK_STAT.OWNER = false
      ∧ (t.chip.die d).chk.serves = some seq ∧ (t.chip.die d).chk.addr = p32 q 4 ∧ (t.chip.die d).chk.len = p32 q 8
      ∧ (∃ e', t.chip.entry? d seq = some e' ∧ e'.st = .executing)
      ∧ s.chip.sameRegsBut t.chip d Chip.checkRegs ∧ s.chip.sameDiesBut t.chip d := by
  obtain ⟨-, -, -, hent, -⟩ := id h
  have hrun := Chip.check_of_begin h (by simp [hst]) hform
  have hent' := Chip.entry?_updEntry (e' := { e with st := .executing }) hent rfl rfl
  have hwf : storeWf ((s.chip.updEntry d seq fun _ => { e with st := .executing }).loadSet d (p8 q 0)).regs = true :=
    (Chip.loadSet_good _ _ _ (Chip.updEntry_good _ _ _ _ ((Chip.wf_iff_good _).1 hs))).1
  have hin := (((Chip.updEntry_within s.chip d seq fun _ => { e with st := .executing }).mono (List.nil_subset _)).trans
    (Chip.loadSet_within _ d (p8 q 0))).trans ((Chip.chkRun_within _ d false (p32 q 4) (p32 q 8) (Chip.checkPayload q) (some seq)).mono
      (by simp [Chip.checkRegs]))
  rw [← hrun] at hin
  refine ⟨{ s with chip := s.chip.check d seq }, rfl, ?_, ?_, ?_, ?_, ?_, ?_, hin.regs, hin.dies⟩
  · simp [hrun, Chip.bit, Chip.chkRun_busy hwf]
  · simp [hrun, Chip.bit, Chip.chkRun_owner hwf]
  · simp [hrun]
  · simp [hrun]
  · simp [hrun]
  · exact ⟨_, by rw [hrun, Chip.chkRun_entry?, Chip.loadSet_entry?, hent'], rfl⟩

/-- Settles O54: the fields of a written word go by their type codes, in each block's own write and in every live die of a module-common
one; PING, ENUMERATE and CHECK from what each changes. -/
theorem registerWritesPingEnumerateAndCheck : Obligations.RegisterWritesPingEnumerateAndCheck := by
  unfold Obligations.RegisterWritesPingEnumerateAndCheck
  intro d s hs hf h0
  refine ⟨?write, ?common, fun w h2 => ⟨registerWrite_shdOv hs hf h0 h2 w, registerWrite_shdStatus hs hf h0 h2 w⟩,
    registerWrite_snapCfg hs hf h0, ?ping, ?enumerate, ?check⟩
  case write =>
    intro a r w ha hbad hr hp hon hok hact
    exact registerWrite_takesWord hs hf h0 ha hbad hr hp hon hok hact
  case common =>
    intro a r w ha hbad hr hp _ hok hact
    have hb : (placeOf a).block ≠ 0x06 := by
      simp [Chip.actsOnWrite, hp] at hact
      exact hact.2
    exact registerWrite_common hs hf h0 ha hbad hr hp hb ⟨Chip.ne_of_not_actsOnWrite hact, Chip.ne_of_not_actsOnWrite hact⟩ hok
  case ping =>
    intro f hl ha hv hg hlink hmod hdie hop hpkt
    exact ping_answered hs hf h0 hl ha hv hg hlink hmod hdie hop hpkt
  case enumerate =>
    intro f h6 hv hg hlink hmod hop hm ha hpkt hlo hhi
    exact enumerate_takesAddress hs hf h0 h6 hv hg hlink hmod hop hm ha hpkt hlo hhi
  case check =>
    intro seq e q hready hst hbusy hset hsrc hrange hok
    obtain ⟨-, -, -, -, -, -, -, -, -, -, -, -, hdue, -⟩ := id hready
    exact check_begins hs hready hst (Chip.formCheck_eq_begin hdue hbusy hset hsrc hrange hok)

end Sys2Proof.Machine
end

section
/-! PROOFS. The latch of the FINE and LINE samples at a stroke (R65, R69, R70): what the sample registers hold after it, what it leaves, and
the value of a channel on which nothing but its own stage acts. -/
namespace Sys2Proof.Machine

/-! ### Numbers -/

theorem roundDiv_mul_self (x : Int) {b : Int} (hb : 0 < b) : roundDiv (x * b) b = x := by
  simp only [roundDiv, Int.mul_ediv_cancel x (Int.ne_of_gt hb), Int.mul_emod_left, Int.mul_zero, hb, if_true]

theorem satSigned_of_mem {v : Int} {w : Nat} (hlo : -(2 ^ (w - 1) : Nat) ≤ v) (hhi : v ≤ (2 ^ (w - 1) : Nat) - 1) : satSigned v w = v := by
  rw [satSigned, Int.min_eq_left hhi, Int.max_eq_right hlo]

/-- The range of a cell lies inside its sample field. -/
theorem satSigned_cell_range (x : Int) :
    satSigned (max (-300000) (min 5500000 x)) CFE_FINE.SAMPLE.w = max (-300000) (min 5500000 x) := by
  have hw : 2 ^ (CFE_FINE.SAMPLE.w - 1) = 8388608 := rfl
  exact satSigned_of_mem (by rw [hw]; omega) (by rw [hw]; omega)

/-- The clamp of a cell's value is that of R69. -/
theorem Chip.ranged_cell_value (v : Int) : (ranged false v).1 = max (-300000) (min 5500000 v) := by
  simp only [ranged, Bool.false_eq_true, if_false]
  split
  · omega
  · split <;> omega

namespace Chip
variable {s t u : Chip} {d : Die} {c n w : Nat}

/-! ### Sample registers (Table 03.21) -/

theorem each_range_succ (s : Chip) (n : Nat) (f : Nat → Chip → Chip) :
    s.each (List.range (n + 1)) f = f n (s.each (List.range n) f) := by simp [each, List.range_succ]

/-- The sample register of a channel: LINE at word 0, FINE at word 1. -/
def sampleAddr (w c : Nat) : Nat := regAddr 1 0x1 c w

theorem sampleAddr_lt (hw : w < 1024) (hc : c < 18) : sampleAddr w c < 0x20000000 := by
  simp only [sampleAddr, regAddr]
  omega

theorem sampleAddr_ne {b w' : Nat} (hw : w < 1024) (hw' : w' < 1024) (h : w ≠ w' ∨ c ≠ b) : sampleAddr w c ≠ sampleAddr w' b := by
  simp only [sampleAddr, regAddr]
  omega

/-- The first `n` channels get their samples and flags. -/
def putSamples (s : Chip) (d : Die) (w n : Nat) (v : Nat → Int × Nat) : Chip :=
  s.each (List.range n) fun c s => (s.putI d (sampleAddr w c) CFE_FINE.SAMPLE (v c).1).put d (sampleAddr w c) CFE_FINE.FLAGS (v c).2

theorem putSamples_succ (s : Chip) (d : Die) (w n : Nat) (v : Nat → Int × Nat) :
    s.putSamples d w (n + 1) v = ((s.putSamples d w n v).putI d (sampleAddr w n) CFE_FINE.SAMPLE (v n).1).put d (sampleAddr w n)
      CFE_FINE.FLAGS (v n).2 := each_range_succ ..

theorem putSamples_store (hs : storeWf s.regs = true) (v : Nat → Int × Nat) : storeWf (s.putSamples d w n v).regs = true :=
  each_keeps (P := fun u => storeWf u.regs = true) (fun _ _ hu => put_store _ _ _ _ _ (put_store _ _ _ _ _ hu)) hs _

theorem putSamples_within (s : Chip) (d : Die) (w n : Nat) (v : Nat → Int × Nat) :
    s.Within (s.putSamples d w n v) d ((List.range n).map (sampleAddr w)) := by
  induction n with
  | zero => exact Within.refl s d _
  | succ n ih =>
    have hn : sampleAddr w n ∈ (List.range (n + 1)).map (sampleAddr w) := List.mem_map_of_mem List.self_mem_range_succ
    have hsub : (List.range n).map (sampleAddr w) ⊆ (List.range (n + 1)).map (sampleAddr w) :=
      List.map_subset _ (by simp [List.range_succ])
    rw [putSamples_succ]
    exact ((ih.mono hsub).put hn _ _).put hn _ _

/-- A channel's sample reads as its value, held to the field (R69). -/
theorem putSamples_sample (hs : storeWf s.regs = true) (hw : w < 1024) (hn : n ≤ 18) (hc : c < n) (v : Nat → Int × Nat) :
    (s.putSamples d w n v).get d (sampleAddr w c) CFE_FINE.SAMPLE
      = ofSigned (satSigned (v c).1 CFE_FINE.SAMPLE.w) CFE_FINE.SAMPLE.w := by
  induction n with
  | zero => omega
  | succ n ih =>
    have hwf := putSamples_store (d := d) (w := w) (n := n) hs v
    rw [putSamples_succ]
    rcases Nat.lt_succ_iff_lt_or_eq.1 hc with hlt | rfl
    · have hn' := sampleAddr_lt hw (show n < 18 by omega)
      have hc' := sampleAddr_lt hw (show c < 18 by omega)
      have hne : sampleAddr w n ≠ sampleAddr w c := sampleAddr_ne hw hw (.inr (Nat.ne_of_gt hlt))
      rw [get_put_off _ _ _ _ _ _ _ _ hn' hc' hne, putI, get_put_off _ _ _ _ _ _ _ _ hn' hc' hne]
      exact ih (by omega) hlt
    · rw [putI, get_put_apart _ _ _ _ _ _ (put_store _ _ _ _ _ hwf) (by decide), get_put_self _ _ _ _ _ hwf (by decide)]
      exact Nat.mod_eq_of_lt (by simp only [ofSigned]; omega)

theorem Within.ite {as : List Nat} {p : Prop} [Decidable p] (ht : s.Within t d as) (hu : s.Within u d as) :
    s.Within (if p then t else u) d as := by split <;> assumption

/-! ### The checks on the LINE samples (R106 to R108) -/

/-- The registers of the sense-wire block that the checks on a line's samples write. -/
def lineCheckRegs : List Nat := [OWD_SUMCHK, OWD_CLASS_LO, OWD_CLASS_HI, OWD_STATUS]

theorem sampleAddr_ne_lineCheck (hw : w < 1024) (hc : c < 18) : ∀ a ∈ lineCheckRegs, a < 0x20000000 ∧ a ≠ sampleAddr w c := by
  simp only [lineCheckRegs, List.forall_mem_cons, List.not_mem_nil, false_imp_iff, implies_true, and_true, sampleAddr, regAddr, OWD_SUMCHK,
    OWD_CLASS_LO, OWD_CLASS_HI, OWD_STATUS]
  omega

theorem sumCheck_within (s : Chip) (d : Die) : s.Within (s.sumCheck d) d lineCheckRegs := by
  have hput := fun (t : Chip) (h : s.Within t d lineCheckRegs) f v => h.put (a := OWD_SUMCHK) (by simp [lineCheckRegs]) f v
  have ht := fun k m f => (hput _ (hput _ (Within.refl s d _) OWD_SUMCHK.SKIP k) OWD_SUMCHK.M m).upd f
  unfold sumCheck
  exact (hput _ (Within.refl ..) _ _).ite ((hput _ (ht _ _ _) _ _).ite ((hput _ (ht _ _ _) _ _).ite (ht _ _ _)))

theorem deviationCheck_within (s : Chip) (d : Die) : s.Within (s.deviationCheck d) d lineCheckRegs := by
  have hclass : ∀ c, classReg c ∈ lineCheckRegs := fun c => by simp only [classReg]; split <;> simp [lineCheckRegs]
  unfold deviationCheck
  exact ((Within.refl s d _).upd _).each _ fun c u hu => hu.ite (((hu.put (hclass c) _ _).upd _).putB (by simp [lineCheckRegs]) _ _)

/-- The LINE latch: the samples of all channels, and after them the checks. -/
theorem latchLine_within_putSamples (d : Die) (vs : List (Int × Nat)) (s : Chip) :
    (s.putSamples d 0 18 fun c => vs.getD c (noData, 8)).Within (s.latchLine d vs) d lineCheckRegs :=
  (((Within.refl _ d _).upd _).trans (sumCheck_within _ d)).trans (deviationCheck_within _ d)

theorem latchLine_line (hs : storeWf s.regs = true) (vs : List (Int × Nat)) (hc : c < 18) :
    (s.latchLine d vs).get d (CFE_LINE c) CFE_LINE.SAMPLE
      = ofSigned (satSigned (vs.getD c (noData, 8)).1 CFE_LINE.SAMPLE.w) CFE_LINE.SAMPLE.w :=
  ((latchLine_within_putSamples d vs s).get d (sampleAddr_lt (by decide) hc) (sampleAddr_ne_lineCheck (by decide) hc) _).trans
    (putSamples_sample hs (by decide) (by decide) hc _)

/-- The LINE latch leaves the FINE samples. -/
theorem latchLine_fine (vs : List (Int × Nat)) (hc : c < 18) (f : Fld) :
    (s.latchLine d vs).get d (CFE_FINE c) f = s.get d (CFE_FINE c) f := by
  have hlt : sampleAddr 1 c < 0x20000000 := sampleAddr_lt (by decide) hc
  refine ((latchLine_within_putSamples d vs s).get d hlt (sampleAddr_ne_lineCheck (by decide) hc) f).trans
    ((putSamples_within s d 0 18 _).get d hlt (fun a ha => ?_) f)
  obtain ⟨b, hb, rfl⟩ := List.mem_map.1 ha
  exact ⟨sampleAddr_lt (by decide) (List.mem_range.1 hb), sampleAddr_ne (by decide) (by decide) (.inl (by decide))⟩

/-! ### The state that is sampled -/

/-- The state whose samples the latch takes: the GAP record of a sleep is queued (R61) and the ages have counted the stroke. -/
def toSample (s : Chip) (d : Die) : Chip := (s.sleepGap d).ageChannels d

theorem showLevel_within (s : Chip) (d : Die) : s.Within (s.showLevel d) d [ULK_TX] := (Within.refl s d _).put (by simp) _ _

theorem queueGapOf_within (s : Chip) (d : Die) (first count cause m : Nat) :
    s.Within (s.queueGapOf d first count cause m) d [ULK_TX] := by
  unfold queueGapOf
  exact (Within.refl s d _).ite (((((Within.refl s d _).upd _).upd _).trans (showLevel_within _ d)).ite ((Within.refl s d _).upd _))

theorem sleepGap_within (s : Chip) (d : Die) : s.Within (s.sleepGap d) d [ULK_TX] := by
  unfold sleepGap
  exact (Within.refl s d _).ite ((queueGapOf_within ..).upd _)

theorem toSample_within (s : Chip) (d : Die) : s.Within (s.toSample d) d [ULK_TX] := by
  unfold toSample ageChannels
  exact (sleepGap_within s d).upd _

theorem queueGapOf_die (s : Chip) (d : Die) (first count cause m : Nat) :
    ∃ r, (s.queueGapOf d first count cause m).die d = { s.die d with ring := r } := by
  unfold queueGapOf
  dsimp only
  repeat' split
  · exact ⟨_, rfl⟩
  · simp only [showLevel, stream, takeSeq, enqueue, putSat_die, upd_die_self]
    exact ⟨_, rfl⟩
  · exact ⟨_, upd_die_self ..⟩

theorem sleepGap_die (s : Chip) (d : Die) :
    ∃ r g, (s.sleepGap d).die d = { s.die d with ring := r, time := { (s.die d).time with gapMask := g } } := by
  unfold sleepGap
  dsimp only
  split
  · exact ⟨_, _, rfl⟩
  · simp only [updTime, upd_die_self]
    rw [(queueGapOf_die ..).choose_spec]
    exact ⟨_, _, rfl⟩

/-- What decides where a channel's sample comes from, and its corrections beside those of R111, is the same in both states. -/
structure SameSources (s u : Chip) (d : Die) : Prop where
  reg : ∀ b < 0x20000000, ULK_TX ≠ b → u.reg d b = s.reg d b
  cal : (u.die d).cal = (s.die d).cal
  bist : (u.die d).bist = (s.die d).bist
  owd : (u.die d).owd = (s.die d).owd
  invalid : (u.die d).cfe.invalid = (s.die d).cfe.invalid
  shadowOnly : (u.die d).cfe.shadowOnly = (s.die d).cfe.shadowOnly
  repair : (u.die d).cfe.repair = (s.die d).cfe.repair
  fineNow : (u.die d).cfe.fineNow = (s.die d).cfe.fineNow
  stroke : u.stroke d = s.stroke d

theorem toSample_sameSources (s : Chip) (d : Die) : s.SameSources (s.toSample d) d := by
  obtain ⟨r, g, hdie⟩ := sleepGap_die s d
  have hreg : ∀ b < 0x20000000, ULK_TX ≠ b → (s.toSample d).reg d b = s.reg d b := fun b hb hne =>
    (toSample_within s d).reg d hb (by simpa using ⟨by decide, hne⟩)
  constructor
  case reg => exact hreg
  all_goals simp [toSample, ageChannels, updCfe, Chip.stroke, hdie]

namespace SameSources
variable (h : s.SameSources u d)
include h

theorem get {b : Nat} (hb : b < 0x20000000) (hne : ULK_TX ≠ b) (f : Fld) : u.get d b f = s.get d b f := congrArg f.read (h.reg b hb hne)

theorem cells : u.cells d = s.cells d := h.get (by decide) (by decide) _

theorem fullCal : u.fullCal d = s.fullCal d := congrArg (· == 3) (h.get (by decide) (by decide) _)

theorem spareState : u.spareState d = s.spareState d := h.get (by decide) (by decide) _

theorem spareTarget : u.spareTarget d = s.spareTarget d := h.get (by decide) (by decide) _

theorem spareOwner : u.spareOwner d = s.spareOwner d := h.get (by decide) (by decide) _

theorem cellInvalid (c : Nat) : u.cellInvalid d c = s.cellInvalid d c := by simp only [Chip.cellInvalid, h.invalid]

theorem spareServes (c : Nat) : u.spareServes d c = s.spareServes d c := by simp only [Chip.spareServes, h.spareTarget, h.spareState]

theorem shadowed (c : Nat) : u.shadowed d c = s.shadowed d c := by
  simp only [Chip.shadowed, underRepair, takenChannels, h.shadowOnly, h.repair, h.spareOwner, h.spareState, h.spareTarget, h.cal, h.bist]

theorem correction (hc : c < 16) : u.correction d c = s.correction d c := by
  have hlt : CAL_CH c < 0x20000000 := by simp only [CAL_CH, regAddr]; omega
  have hne : ULK_TX ≠ CAL_CH c := by simp only [CAL_CH, ULK_TX, regAddr]; omega
  simp only [Chip.correction, getI, h.cal, h.get hlt hne]

end SameSources

/-! ### What the latch writes -/

/-- The samples that the latch takes of the channels of state `u`. -/
def samples (u : Chip) (d : Die) (chans : List ChanIn) : List ((Int × Nat) × (Int × Nat) × (Int × Nat)) :=
  (List.range 18).map fun c => u.latched d c (chans.getD c ⟨0, 0, 0⟩)

theorem samples_getD (u : Chip) (d : Die) (chans : List ChanIn) (hc : c < 18) (z : (Int × Nat) × (Int × Nat) × (Int × Nat)) :
    (u.samples d chans).getD c z = u.latched d c (chans.getD c ⟨0, 0, 0⟩) := by
  simp [samples, hc]

theorem samples_line_getD (u : Chip) (d : Die) (chans : List ChanIn) (hc : c < 18) (z : Int × Nat) :
    ((u.samples d chans).map (·.2.1)).getD c z = (u.latched d c (chans.getD c ⟨0, 0, 0⟩)).2.1 := by
  simp [samples, hc]

theorem draw_regs (s : Chip) : s.draw.regs = s.regs := rfl

/-- The latch of every stroke: the FINE samples of the channels that have a FINE register, beside what `f` makes of the hidden state. -/
def latchFine (u : Chip) (d : Die) (chans : List ChanIn) (f : CfeX → CfeX) : Chip :=
  ((u.putSamples d 1 17 fun c => ((u.samples d chans).getD c ((noData, 8), (noData, 8), (noData, 8))).1).updCfe d f).draw

theorem latchFine_fine (hu : storeWf u.regs = true) (chans : List ChanIn) (f : CfeX → CfeX) (hc : c < 17) :
    (u.latchFine d chans f).get d (CFE_FINE c) CFE_FINE.SAMPLE
      = ofSigned (satSigned (u.latched d c (chans.getD c ⟨0, 0, 0⟩)).1.1 CFE_FINE.SAMPLE.w) CFE_FINE.SAMPLE.w := by
  rw [latchFine, draw_get, updCfe, upd_get, ← samples_getD u d chans (by omega) ((noData, 8), (noData, 8), (noData, 8))]
  exact putSamples_sample hu (by decide) (by decide) hc _

theorem latchFine_store (hu : storeWf u.regs = true) (chans : List ChanIn) (f : CfeX → CfeX) :
    storeWf (u.latchFine d chans f).regs = true := by
  rw [latchFine, draw_regs, updCfe, upd_regs]
  exact putSamples_store hu _

theorem latchFine_within (u : Chip) (d : Die) (chans : List ChanIn) (f : CfeX → CfeX) :
    u.Within (u.latchFine d chans f) d ((List.range 17).map CFE_FINE) := by
  have hput := (putSamples_within u d 1 17 fun c => ((u.samples d chans).getD c ((noData, 8), (noData, 8), (noData, 8))).1).upd
    fun x => { x with cfe := f x.cfe }
  exact ⟨sameRegsBut_draw hput.regs, sameDiesBut_draw hput.dies⟩

/-- The latch of a die that measures: the FINE samples at every stroke, and at the first stroke of a line the LINE samples (R65). -/
theorem cfeLatch_eq (chans : List ChanIn) (hrun : s.runsOn d 1 = true) (hstop : (s.die d).cfe.stopped = false) :
    ∃ f, s.cfeLatch d chans =
      if s.stroke d % 4 = 0 then ((s.toSample d).latchFine d chans f).latchLine d (((s.toSample d).samples d chans).map (·.2.1))
      else (s.toSample d).latchFine d chans f := by
  rw [← (toSample_sameSources s d).stroke]
  simp only [cfeLatch, hrun, hstop]
  exact ⟨_, rfl⟩

/-! ### A channel on which nothing but its own stage acts (R69) -/

/-- The compensation of R111 is all that the stage adds to a cell's output where the channel has no offset and no gain. -/
theorem stageValue_of_uncorrected {x : Int} {kind code : Nat} (hcorr : u.correction d c = (0, 0)) (hstage : u.stageCorr d c kind code = 0) :
    u.stageValue d c c false x kind code = x := by
  have hx : u.corrected d c false x * 25600 + 0 * corrDen false = x * (corrDen false * 25600) := by
    simp only [corrected, hcorr, corrDen, Bool.false_eq_true, if_false]
    omega
  simp only [stageValue, hstage, Bool.false_eq_true, if_false, hx]
  exact roundDiv_mul_self x (by decide)

theorem sampleOf_undisturbed {x : Int} {kind code settle : Nat} (hc : c < 16) (hcell : c < u.cells d) (hcal : u.fullCal d = false)
    (hinv : u.cellInvalid d c = false) (hshd : u.shadowed d c = false) (hspare : u.spareServes d c = false) (hshift : (u.die d).owd.shift = [])
    (hcorr : u.correction d c = (0, 0)) (hstage : u.stageCorr d c kind code = 0) :
    (u.sampleOf d c x kind code settle).1 = max (-300000) (min 5500000 x) := by
  have hmeas : u.noMeasurement d c = false := by simp [noMeasurement, hcal, hinv, hcell]
  have hspan : (c == 17) = false := beq_false_of_ne (by omega)
  simp [sampleOf, hmeas, hshd, hspare, hshift, hspan, stageValue_of_uncorrected hcorr hstage, ranged_cell_value]

theorem latched_fine_of_cell (hc : c < 16) (x : ChanIn) :
    (u.latched d c x).1 = u.sampleOf d c x.fine 0 (u.die d).cfe.fineNow ((u.die d).cfe.setFine.getD c 0) := by
  simp [latched, show c ≠ 16 by omega]

end Chip

open Chip in
/-- Settles O24: the latch is the FINE samples of the state that is sampled and, at the first stroke of a line, the LINE samples; the checks
that follow those write none of the sample registers. -/
theorem latchTakesTheChannelsSamples : Obligations.LatchTakesTheChannelsSamples := by
  unfold Obligations.LatchTakesTheChannelsSamples
  intro d chans s hs hrun hstop
  have hsame := toSample_sameSources s.chip d
  have hwf : storeWf (s.chip.toSample d).regs = true :=
    (ageChannels_good d _ (sleepGap_good _ d ((wf_iff_good _).1 hs))).1
  obtain ⟨f, hlatch⟩ := cfeLatch_eq chans hrun hstop
  have hfine : ∀ c < 17, (s.chip.cfeLatch d chans).get d (CFE_FINE c) CFE_FINE.SAMPLE
      = ofSigned (satSigned ((s.chip.toSample d).latched d c (chans.getD c ⟨0, 0, 0⟩)).1.1 CFE_FINE.SAMPLE.w) CFE_FINE.SAMPLE.w := by
    intro c hc
    rw [hlatch, ← latchFine_fine hwf chans f hc]
    split
    · exact latchLine_fine _ (by omega) _
    · rfl
  refine ⟨{ s with chip := s.chip.cfeLatch d chans }, rfl, hfine, ?line, ?frame, ?undisturbed⟩
  case line =>
    intro hstroke c hc
    simp only [hlatch, if_pos hstroke]
    rw [latchLine_line (latchFine_store hwf chans f) _ hc, samples_line_getD _ d chans hc]
    rfl
  case frame =>
    intro hstroke
    have hin := ((toSample_within s.chip d).mono (List.cons_subset_cons _ (List.nil_subset _))).trans
      ((latchFine_within _ d chans f).mono (List.subset_cons_self ULK_TX _))
    simp only [hlatch, if_neg hstroke]
    exact ⟨hin.regs, hin.dies⟩
  case undisturbed =>
    intro c hc hcell hcal hinv hshd hspare hshift hcorr hstage
    have hvalue := sampleOf_undisturbed (x := (chans.getD c ⟨0, 0, 0⟩).fine) (settle := ((s.chip.toSample d).die d).cfe.setFine.getD c 0)
      hc (hsame.cells ▸ hcell) (hsame.fullCal.trans hcal) ((hsame.cellInvalid c).trans hinv) ((hsame.shadowed c).trans hshd)
      ((hsame.spareServes c).trans hspare) ((congrArg (·.shift) hsame.owd).trans hshift) ((hsame.correction hc).trans hcorr) hstage
    refine (hfine c (by omega)).trans ?_
    rw [latched_fine_of_cell hc, hsame.fineNow, hvalue, satSigned_cell_range]

end Sys2Proof.Machine
end

section
/-! PROOFS. What the operations of the open-wire tests change (R94 to R112): the hidden state of the tests, the fields that show it, and the
registers they leave. -/
namespace Sys2Proof.Machine
namespace Chip
variable {G : Watch} {s t : Chip} {d : Die} {as : List Nat} {a v k : Nat} {f : Fld}

/-! ### Fields and hidden state after the basic updates -/

theorem bit_put_self (hs : s.good G) (hf : f.lo + f.w ≤ 32) : (s.put d a f v).bit d a f = (v % 2 ^ f.w == 1) := by
  rw [bit, get_put_self _ _ _ _ _ hs.1 hf]

theorem cond_get (b : Bool) {g : Chip → Chip} (h : (g s).get d a f = s.get d a f) : (s.cond b g).get d a f = s.get d a f := by
  cases b
  · rfl
  · exact h

theorem cond_owd (b : Bool) {g : Chip → Chip} (h : ((g s).die d).owd = (s.die d).owd) : ((s.cond b g).die d).owd = (s.die d).owd := by
  cases b
  · rfl
  · exact h

@[simp] theorem updOwd_owd (s : Chip) (d : Die) (g : OwdX → OwdX) : ((s.updOwd d g).die d).owd = g (s.die d).owd := by simp [updOwd]

@[simp] theorem updOwd_get (s : Chip) (d e : Die) (g : OwdX → OwdX) (a : Nat) (f : Fld) : (s.updOwd d g).get e a f = s.get e a f := rfl

@[simp] theorem updCfe_owd (s : Chip) (d : Die) (g : CfeX → CfeX) : ((s.updCfe d g).die d).owd = (s.die d).owd := by simp [updCfe]

theorem Within.updOwd (h : s.Within t d as) (g : OwdX → OwdX) : s.Within (t.updOwd d g) d as := h.upd _

theorem Within.updCfe (h : s.Within t d as) (g : CfeX → CfeX) : s.Within (t.updCfe d g) d as := h.upd _

theorem Within.putI (h : s.Within t d as) (ha : a ∈ as) (f : Fld) (x : Int) : s.Within (t.putI d a f x) d as := h.put ha f _

/-! ### The spare (R72) -/

theorem setSpare_within (s : Chip) (d : Die) (target state owner : Nat) : s.Within (s.setSpare d target state owner) d [CFE_SPARE] :=
  (((Within.refl s d _).put (by simp) _ _).put (by simp) _ _).put (by simp) _ _

theorem spareEnter_within (s : Chip) (d : Die) (owner c : Nat) : s.Within (s.spareEnter d owner c) d [CFE_SPARE] := by
  unfold spareEnter
  exact (setSpare_within ..).ite ((setSpare_within ..).updCfe _)

@[simp] theorem spareEnter_owd (s : Chip) (d : Die) (owner c : Nat) : ((s.spareEnter d owner c).die d).owd = (s.die d).owd := by
  unfold spareEnter settleChannel
  split
  · rfl
  · rw [updCfe_owd]; rfl

theorem spareGiveUp_within (s : Chip) (d : Die) (owner : Nat) : s.Within (s.spareGiveUp d owner) d [CFE_SPARE] := by
  unfold spareGiveUp
  exact (Within.refl ..).ite (((setSpare_within ..).updCfe _).ite ((Within.refl ..).updCfe _))

theorem spareRelease_within (s : Chip) (d : Die) (owner : Nat) : s.Within (s.spareRelease d owner) d [CFE_SPARE] := by
  unfold spareRelease
  exact ((Within.refl ..).put (by simp) _ _).ite (spareGiveUp_within ..)

@[simp] theorem spareRelease_owd (s : Chip) (d : Die) (owner : Nat) : ((s.spareRelease d owner).die d).owd = (s.die d).owd := by
  unfold spareRelease spareGiveUp spareIdle
  repeat' split
  · rfl
  · rfl
  · rw [updCfe_owd]; rfl
  · rw [updCfe_owd]

theorem spareRelease_owdStatus (s : Chip) (d : Die) (owner : Nat) (f : Fld) :
    (s.spareRelease d owner).get d OWD_STATUS f = s.get d OWD_STATUS f :=
  (spareRelease_within s d owner).get d (by decide) (by decide) f

/-! ### Marks and requests (R101, R104) -/

theorem showMarks_within (s : Chip) (d : Die) : s.Within (s.showMarks d) d [] := by
  unfold showMarks
  exact ((Within.refl s d []).updCfe _).each _ fun _ _ h => h.updCfe _

theorem showMarks_get (s : Chip) (d : Die) {b : Nat} (hb : b < 0x20000000) (f : Fld) : (s.showMarks d).get d b f = s.get d b f :=
  (showMarks_within s d).get d hb (by simp) f

@[simp] theorem showMarks_owd (s : Chip) (d : Die) : ((s.showMarks d).die d).owd = (s.die d).owd :=
  each_keeps (P := fun u => (u.die d).owd = (s.die d).owd) (fun _ u hu => (updCfe_owd u d _).trans hu) (updCfe_owd s d _) _

@[simp] theorem showQueued_die (s : Chip) (d e : Die) : (s.showQueued d).die e = s.die e := rfl

theorem showQueued_within (s : Chip) (d : Die) : s.Within (s.showQueued d) d [OWD_STATUS] := (Within.refl s d _).putB (by simp) _ _

theorem showQueued_get (hs : s.good G) (hf : f.lo + f.w ≤ 1 ∨ 2 ≤ f.lo) : (s.showQueued d).get d OWD_STATUS f = s.get d OWD_STATUS f :=
  get_put_apart _ _ _ _ _ _ hs.1 hf

theorem showQueued_queued (hs : s.good G) (h : (s.die d).owd.queue ≠ []) :
    (s.showQueued d).bit d OWD_STATUS OWD_STATUS.QUEUED = true := by
  refine (bit_put_self hs (by decide)).trans ?_
  rw [List.isEmpty_eq_false_iff.2 h]
  rfl

theorem requestTest_of_free {all : Bool} {wire : Nat} (cur down : Bool) (hfree : (s.die d).owd.queue = [])
    (hwire : all = true ∨ wire ≤ s.cells d) :
    s.requestTest d all wire cur down
      = (s.updOwd d fun x => { x with queue := [⟨all, false, false, wire, cur, down, 0, false⟩] }).showQueued d := by
  have hok : (!all && decide (s.cells d < wire)) = false := by
    rcases hwire with rfl | h
    · rfl
    · simp [h]
  simp [requestTest, hfree, hok]

theorem requestTest_of_waiting (all : Bool) (wire : Nat) (cur down : Bool) (hwait : (s.die d).owd.queue ≠ []) :
    s.requestTest d all wire cur down = s.put d OWD_STATUS OWD_STATUS.DROPPED 1 := by
  simp [requestTest, hwait]

/-! ### The end of a test and of its step stage (R103, R105, R112) -/

theorem endTest_owd (s : Chip) (d : Die) :
    ((s.endTest d).die d).owd = { (s.die d).owd with test := none, step := none, shift := [], spoilt := false } := by simp [endTest]

theorem endTest_within (s : Chip) (d : Die) : s.Within (s.endTest d) d [OWD_STATUS] :=
  ((((Within.refl s d _).updOwd _).put (by simp) _ _).put (by simp) _ _).put (by simp) _ _

theorem endTest_busy (hs : s.good G) : (s.endTest d).get d OWD_STATUS OWD_STATUS.BUSY = 0 := by
  have hbusy := put_good _ d OWD_STATUS OWD_STATUS.BUSY 0
    (updOwd_good s d (fun x => { x with test := none, step := none, shift := [], spoilt := false }) hs)
  rw [endTest, get_put_apart _ _ _ _ _ _ (put_good _ _ _ _ _ hbusy).1 (by decide), get_put_apart _ _ _ _ _ _ hbusy.1 (by decide)]
  exact get_put_self _ _ _ _ _ hs.1 (by decide)

theorem endStage_owd (s : Chip) (d : Die) :
    ((s.endStage d).die d).owd = { (s.die d).owd with test := none, step := none, shift := [], spoilt := false } := by
  rw [endStage, put_die, endTest_owd]

theorem endStage_within (s : Chip) (d : Die) : s.Within (s.endStage d) d [OWD_STATUS, CXS_STATUS] :=
  ((endTest_within s d).mono (by simp)).put (by simp) _ _

theorem endStage_busy (hs : s.good G) : (s.endStage d).get d OWD_STATUS OWD_STATUS.BUSY = 0 :=
  (get_put_off _ _ _ _ _ _ _ _ (by decide) (by decide) (by decide)).trans (endTest_busy hs)

theorem endStage_stephold (hs : s.good G) : (s.endStage d).get d CXS_STATUS CXS_STATUS.STEPHOLD = 0 :=
  get_put_self _ _ _ _ _ (endTest_good s d hs).1 (by decide)

end Chip
end Sys2Proof.Machine
end

section
/-! PROOFS. Open-wire requests (R104, R105), and the start and the abandonment of tests (R94 to R103, R112). -/
namespace Sys2Proof.Machine
namespace Chip
variable {G : Watch} {s : Chip} {d : Die} {t0 : OwdTest}

/-! ### The start of a test (R99, R102) -/

/-- The fields of OWD_STATUS that show a test as it starts, the spare taken for it where it is free. -/
def showStart (s : Chip) (d : Die) (t : OwdTest) (wrap spare : Bool) : Chip :=
  ((((((s.put d OWD_STATUS OWD_STATUS.BUSY 1).put d OWD_STATUS OWD_STATUS.WIRE (if t.all then 0x10 else t.wire)).put d OWD_STATUS
    OWD_STATUS.STAGE (if t.all then 6 else 1)).cond wrap fun s => s.put d OWD_STATUS OWD_STATUS.NEXT 0).cond spare fun s =>
    s.spareEnter d 1 (t.wire - 1)).showQueued d)

theorem openWireTestStart_eq (hrun : s.runsOn d 1 = true) (hline : s.stroke d % 4 = 0) (hasked : s.stepAsked d 5 = false)
    (hstop : (s.die d).cfe.stopped = false) (hnone : (s.die d).owd.test = none) (hstep : (s.die d).owd.step = none)
    (hnext : s.nextTest d = some t0) (hspare : t0.all = true ∨ s.spareFreeFor d = true) :
    ∃ g wrap spare, (∀ x, (g x).test = some { t0 with line := s.stroke d / 4 })
      ∧ s.openWireTestStart d = (s.updOwd d g).showStart d t0 wrap spare := by
  have hfree : (!t0.all && !s.spareFreeFor d) = false := by rcases hspare with h | h <;> simp [h]
  simp only [openWireTestStart, hrun, lineStroke, hline, hasked, hstop, hnone, hstep, hnext, hfree]
  exact ⟨_, _, _, fun _ => rfl, rfl⟩

section
variable (s d t0) (wrap spare : Bool)

theorem showStart_owd : ((s.showStart d t0 wrap spare).die d).owd = (s.die d).owd :=
  (cond_owd spare (spareEnter_owd ..)).trans (cond_owd wrap rfl)

theorem showStart_within : s.Within (s.showStart d t0 wrap spare) d [OWD_STATUS, CFE_SPARE] := by
  have hput := ((((Within.refl s d [OWD_STATUS, CFE_SPARE]).put (a := OWD_STATUS) (by simp) OWD_STATUS.BUSY 1).put (a := OWD_STATUS)
    (by simp) OWD_STATUS.WIRE (if t0.all then 0x10 else t0.wire)).put (a := OWD_STATUS) (by simp) OWD_STATUS.STAGE (if t0.all then 6 else 1))
  have hnext := hput.cond wrap (f := fun s => s.put d OWD_STATUS OWD_STATUS.NEXT 0) (hput.put (by simp) _ _)
  exact (hnext.cond spare (hnext.trans ((spareEnter_within ..).mono (by simp)))).putB (by simp) _ _

end

/-- The fields that tell of the running test stay through the later updates of its start. -/
theorem showStart_get (hs : s.good G) (wrap spare : Bool) {f : Fld} (hqueued : f.lo + f.w ≤ 1 ∨ 2 ≤ f.lo)
    (hnext : f.lo + f.w ≤ OWD_STATUS.NEXT.lo) :
    (s.showStart d t0 wrap spare).get d OWD_STATUS f
      = (((s.put d OWD_STATUS OWD_STATUS.BUSY 1).put d OWD_STATUS OWD_STATUS.WIRE (if t0.all then 0x10 else t0.wire)).put d OWD_STATUS
        OWD_STATUS.STAGE (if t0.all then 6 else 1)).get d OWD_STATUS f := by
  have hput := put_good _ d OWD_STATUS OWD_STATUS.STAGE (if t0.all then 6 else 1) (put_good _ d OWD_STATUS OWD_STATUS.WIRE
    (if t0.all then 0x10 else t0.wire) (put_good s d OWD_STATUS OWD_STATUS.BUSY 1 hs))
  have hwrap := cond_good _ wrap _ hput fun _ h => put_good _ d OWD_STATUS OWD_STATUS.NEXT 0 h
  rw [showStart, showQueued_get (cond_good _ spare _ hwrap fun _ h => spareEnter_good _ d 1 (t0.wire - 1) h) hqueued,
    cond_get spare (g := fun s => s.spareEnter d 1 (t0.wire - 1)) ((spareEnter_within ..).get d (by decide) (by decide) f),
    cond_get wrap (g := fun s => s.put d OWD_STATUS OWD_STATUS.NEXT 0) (get_put_apart _ _ _ _ _ _ hput.1 (.inl hnext))]

theorem showStart_busy (hs : s.good G) (wrap spare : Bool) : (s.showStart d t0 wrap spare).bit d OWD_STATUS OWD_STATUS.BUSY = true := by
  have hbusy := put_good s d OWD_STATUS OWD_STATUS.BUSY 1 hs
  rw [bit, showStart_get hs wrap spare (by decide) (by decide), get_put_apart _ _ _ _ _ _ (put_good _ _ _ _ _ hbusy).1 (by decide),
    get_put_apart _ _ _ _ _ _ hbusy.1 (by decide)]
  exact bit_put_self hs (by decide)

theorem showStart_stage (hs : s.good G) (wrap spare : Bool) :
    (s.showStart d t0 wrap spare).get d OWD_STATUS OWD_STATUS.STAGE = if t0.all then 6 else 1 := by
  rw [showStart_get hs wrap spare (by decide) (by decide),
    get_put_self _ _ _ _ _ (put_good _ _ _ _ _ (put_good _ _ _ _ _ hs)).1 (by decide)]
  split <;> rfl

/-! ### A page without its background test, and the test current (R94, R100, R102) -/

theorem openWireSkipPage_eq (hrun : s.runsOn d 1 = true) (hline : s.stroke d % 4 = 0) (hlate : 192 ≤ s.stroke d / 4 % 256)
    (hdone : (s.die d).owd.pageDone = false) (hmode : s.mode d FOL_MODENOW.OWD = false)
    (hen : s.bit d OWD_CONFIG OWD_CONFIG.BG_EN = true) :
    ∃ g, (∀ x, (g x).pageDone = true) ∧ s.openWireSkipPage d = (s.inc d OWD_STATUS OWD_STATUS.SKIPCNT).updOwd d g := by
  simp only [openWireSkipPage, hrun, lineStroke, hline, decide_eq_true hlate, hdone, hmode, hen]
  refine ⟨_, ?_, if_pos rfl⟩
  exact fun _ => rfl

theorem openWireCurrentOn_eq (hrun : s.runsOn d 1 = true) (hline : s.stroke d % 4 = 0) (htest : (s.die d).owd.test = some t0)
    (hall : t0.all = false) (hjudged : t0.judged = false) (hshift : (s.die d).owd.shift = []) (h2 : s.stroke d / 4 = t0.line + 2) :
    s.openWireCurrentOn d = (s.updOwd d fun x => { x with shift := s.wireShift d t0 }).put d OWD_STATUS OWD_STATUS.STAGE 3 := by
  simp [openWireCurrentOn, htest, hrun, lineStroke, hline, hall, hjudged, hshift, h2]

/-! ### Abandonment (R103, R112) -/

theorem openWireAbandon_eq (hrun : s.runsOn d 1 = true) (hline : s.stroke d % 4 = 0) (hspoilt : (s.die d).owd.spoilt = true) :
    s.openWireAbandon d = if (s.die d).owd.step.isSome then s.endStage d else s.abandonTest d := by
  simp [openWireAbandon, hrun, lineStroke, hline, hspoilt]

/-- An abandoned test ends and gives the spare up; one that is not the background's waits again, shown as queued (R103). -/
theorem abandonTest_eq (htest : (s.die d).owd.test = some t0) :
    s.abandonTest d = if t0.bg then (s.endTest d).spareRelease d 1 else
      ((((s.endTest d).spareRelease d 1).updOwd d fun x => { x with
        retryAt := some (s.stroke d / 1024 + 1)
        queue := if t0.dev then x.queue else t0 :: x.queue, devQueue := if t0.dev then t0 :: x.devQueue else x.devQueue }).showQueued d) := by
  simp [abandonTest, htest]

theorem abandonTest_within (s : Chip) (d : Die) : s.Within (s.abandonTest d) d [OWD_STATUS, CFE_SPARE] := by
  have hend : s.Within ((s.endTest d).spareRelease d 1) d [OWD_STATUS, CFE_SPARE] :=
    ((endTest_within s d).mono (by simp)).trans ((spareRelease_within ..).mono (by simp))
  cases htest : (s.die d).owd.test with
  | none => simpa [abandonTest, htest] using Within.refl s d _
  | some t0 =>
    rw [abandonTest_eq htest]
    exact hend.ite ((hend.updOwd _).putB (by simp) _ _)

theorem abandonTest_busy (hs : s.good G) (htest : (s.die d).owd.test = some t0) :
    (s.abandonTest d).get d OWD_STATUS OWD_STATUS.BUSY = 0 := by
  have hend : ((s.endTest d).spareRelease d 1).get d OWD_STATUS OWD_STATUS.BUSY = 0 :=
    (spareRelease_owdStatus ..).trans (endTest_busy hs)
  rw [abandonTest_eq htest]
  split
  · exact hend
  · exact (showQueued_get (updOwd_good _ _ _ (spareRelease_good _ _ _ (endTest_good _ _ hs))) (by decide)).trans hend

theorem abandonTest_owd (htest : (s.die d).owd.test = some t0) :
    ((s.abandonTest d).die d).owd.test = none ∧ ((s.abandonTest d).die d).owd.shift = []
      ∧ (t0.bg = false → ((s.abandonTest d).die d).owd.retryAt = some (s.stroke d / 1024 + 1)) := by
  rw [abandonTest_eq htest]
  split
  · next hbg => simp [endTest_owd, hbg]
  · simp [endTest_owd]

end Chip

/-- A request that finds no other one waiting is taken, and one that does is dropped (R104), whichever row makes it. -/
theorem request_waits_or_is_dropped {s : State} {d : Die} {i : Instr} {all cur down : Bool} {wire : Nat} (hs : s.Inv)
    (hexec : exec i s = .next { s with chip := s.chip.requestTest d all wire cur down }) (hwire : all = true ∨ wire ≤ s.chip.cells d) :
    ((s.chip.die d).owd.queue = [] → ∃ t, exec i s = .next t
        ∧ (t.chip.die d).owd.queue = [⟨all, false, false, wire, cur, down, 0, false⟩]
        ∧ t.chip.bit d OWD_STATUS OWD_STATUS.QUEUED = true ∧ s.chip.sameRegsBut t.chip d [OWD_STATUS] ∧ s.chip.sameDiesBut t.chip d)
      ∧ ((s.chip.die d).owd.queue ≠ [] → ∃ t, exec i s = .next t ∧ t.chip.bit d OWD_STATUS OWD_STATUS.DROPPED = true
        ∧ s.chip.sameRegsBut t.chip d [OWD_STATUS] ∧ t.chip.dies = s.chip.dies) := by
  have hgood := (Chip.wf_iff_good _).1 hs
  refine ⟨fun hfree => ⟨_, hexec, ?_⟩, fun hwait => ⟨_, hexec, ?_⟩⟩
  · have hin := ((Chip.Within.refl s.chip d [OWD_STATUS]).updOwd fun x =>
      { x with queue := [⟨all, false, false, wire, cur, down, 0, false⟩] }).trans (Chip.showQueued_within _ d)
    rw [Chip.requestTest_of_free cur down hfree hwire]
    exact ⟨by simp, Chip.showQueued_queued (Chip.updOwd_good _ _ _ hgood) (by simp), hin.regs, hin.dies⟩
  · rw [Chip.requestTest_of_waiting _ _ _ _ hwait]
    exact ⟨Chip.bit_put_self hgood (by decide), ((Chip.Within.refl s.chip d [OWD_STATUS]).put (by simp) _ _).regs, rfl⟩

/-- Settles O26: both rows request a test by the same operation. -/
theorem openWireRequestsWaitOrAreDropped : Obligations.OpenWireRequestsWaitOrAreDropped := by
  unfold Obligations.OpenWireRequestsWaitOrAreDropped
  rintro d s hs hon i t0 (⟨k, cur, pol, rfl, hk, rfl⟩ | ⟨rfl, rfl⟩)
  · refine request_waits_or_is_dropped hs ?_ (.inr hk)
    change execOwdSingleWireRequest d k cur pol s = _
    simp [execOwdSingleWireRequest, hon]
  · refine request_waits_or_is_dropped hs ?_ (.inl rfl)
    change execOwdAllWireRequest d s = _
    simp [execOwdAllWireRequest, hon]

open Chip in
/-- Settles O27: each row is its operation's equation where its guard holds, read through the operations that show the test. -/
theorem openWireTestsStartAndAreAbandoned : Obligations.OpenWireTestsStartAndAreAbandoned := by
  unfold Obligations.OpenWireTestsStartAndAreAbandoned
  intro d s hs hrun hline
  have hgood := (wf_iff_good _).1 hs
  refine ⟨?start, ?skip, ?current, ?abandonTest, ?abandonStage⟩
  case start =>
    intro t0 hasked hstop hnone hstep hnext hspare
    obtain ⟨g, wrap, spare, hg, heq⟩ := openWireTestStart_eq hrun hline hasked hstop hnone hstep hnext hspare
    have hupd := updOwd_good s.chip d g hgood
    have hin := ((Within.refl s.chip d [OWD_STATUS, CFE_SPARE]).updOwd g).trans (showStart_within _ d t0 wrap spare)
    refine ⟨{ s with chip := s.chip.openWireTestStart d }, rfl, ?_⟩
    simp only [heq]
    exact ⟨by rw [showStart_owd, updOwd_owd, hg], showStart_busy hupd wrap spare, showStart_stage hupd wrap spare, hin.regs, hin.dies⟩
  case skip =>
    intro hlate hdone hmode hen
    obtain ⟨g, hg, heq⟩ := openWireSkipPage_eq hrun hline hlate hdone hmode hen
    have hin := ((Within.refl s.chip d [OWD_STATUS]).put (a := OWD_STATUS) (by simp) OWD_STATUS.SKIPCNT
      (min (s.chip.get d OWD_STATUS OWD_STATUS.SKIPCNT + 1) (2 ^ OWD_STATUS.SKIPCNT.w - 1))).updOwd g
    refine ⟨{ s with chip := s.chip.openWireSkipPage d }, rfl, ?_⟩
    simp only [heq]
    refine ⟨?_, by rw [updOwd_owd, hg], hin.regs, hin.dies⟩
    exact (get_put_self _ _ _ _ _ hgood.1 (by decide)).trans (Nat.mod_eq_of_lt (by simp only [OWD_STATUS.SKIPCNT]; omega))
  case current =>
    intro t0 htest hall hjudged hshift h2
    have hin := ((Within.refl s.chip d [OWD_STATUS]).updOwd fun x => { x with shift := s.chip.wireShift d t0 }).put (a := OWD_STATUS)
      (by simp) OWD_STATUS.STAGE 3
    refine ⟨{ s with chip := s.chip.openWireCurrentOn d }, rfl, ?_⟩
    simp only [openWireCurrentOn_eq hrun hline htest hall hjudged hshift h2]
    exact ⟨get_put_self _ _ _ _ _ (updOwd_good _ _ _ hgood).1 (by decide), by simp, hin.regs, hin.dies⟩
  case abandonTest =>
    intro t0 htest hspoilt hstep
    obtain ⟨hnone, hshift, hretry⟩ := abandonTest_owd htest
    have hin := abandonTest_within s.chip d
    refine ⟨{ s with chip := s.chip.openWireAbandon d }, rfl, ?_⟩
    simp only [openWireAbandon_eq hrun hline hspoilt, hstep, Option.isSome_none, Bool.false_eq_true, if_false]
    exact ⟨hnone, hshift, by simp [bit, abandonTest_busy hgood htest], hretry, hin.regs, hin.dies⟩
  case abandonStage =>
    intro hspoilt hstep
    have hin := endStage_within s.chip d
    refine ⟨{ s with chip := s.chip.openWireAbandon d }, rfl, ?_⟩
    simp only [openWireAbandon_eq hrun hline hspoilt, Option.isSome_iff_ne_none.2 hstep, if_true, endStage_owd]
    exact ⟨trivial, trivial, trivial, by simp [bit, endStage_stephold hgood], by simp [bit, endStage_busy hgood], hin.regs, hin.dies⟩

end Sys2Proof.Machine
end

section
/-! PROOFS. The verdicts of the open-wire tests, the result of a step stage and the class of a deviating cell (R96 to R113). -/
namespace Sys2Proof.Machine
namespace Chip
variable {G : Watch} {s : Chip} {d : Die} {t0 : OwdTest} {c k m v : Nat}

/-! ### The registers of a wire (Table 04.17) -/

theorem OWD_WIRE_lt (hk : k ≤ 31) : OWD_WIRE k < 0x20000000 := by
  simp only [OWD_WIRE, regAddr]
  omega

theorem OWD_WIRE_ne {j : Nat} (h : j ≠ k) : OWD_WIRE j ≠ OWD_WIRE k := by
  simp only [OWD_WIRE, regAddr]
  omega

theorem ne_OWD_WIRE (hk : k ≤ 31) : ∀ a ∈ [OWD_LAST, OWD_STATUS, CFE_SPARE], a < 0x20000000 ∧ a ≠ OWD_WIRE k := by
  simp only [List.forall_mem_cons, List.not_mem_nil, false_imp_iff, implies_true, and_true, OWD_LAST, OWD_STATUS, CFE_SPARE, OWD_WIRE, regAddr]
  omega

theorem OWD_RWIRE_lt (hk : k ≤ 16) : OWD_RWIRE k < 0x20000000 := by
  simp only [OWD_RWIRE, regAddr]
  omega

theorem ne_OWD_RWIRE (hk : k ≤ 16) : ∀ a ∈ [OWD_STATUS, CXS_STATUS], a < 0x20000000 ∧ a ≠ OWD_RWIRE k := by
  simp only [List.forall_mem_cons, List.not_mem_nil, false_imp_iff, implies_true, and_true, OWD_STATUS, CXS_STATUS, OWD_RWIRE, regAddr]
  omega

theorem cells_le (s : Chip) (d : Die) : s.cells d ≤ 31 := Nat.le_of_lt_succ (Nat.mod_lt _ (by decide))

/-! ### A verdict of a wire (R101) -/

theorem giveVerdict_within (s : Chip) (d : Die) (k v : Nat) (all : Bool) : s.Within (s.giveVerdict d k v all) d [OWD_WIRE k] := by
  unfold giveVerdict
  exact ((((Within.refl s d _).put (by simp) _ _).putB (by simp) _ _).put (by simp) _ _).updOwd _

theorem giveVerdict_verdict (hs : s.good G) (hv : v < 4) (all : Bool) :
    (s.giveVerdict d k v all).get d (OWD_WIRE k) OWD_WIRE.VERDICT = v := by
  have hput := put_good s d (OWD_WIRE k) OWD_WIRE.VERDICT v hs
  rw [giveVerdict, updOwd_get, get_put_apart _ _ _ _ _ _ (putB_good _ _ _ _ _ hput).1 (by decide), putB,
    get_put_apart _ _ _ _ _ _ hput.1 (by decide), get_put_self _ _ _ _ _ hs.1 (by decide)]
  exact Nat.mod_eq_of_lt hv

theorem giveVerdict_age (hs : s.good G) (v : Nat) (all : Bool) : (s.giveVerdict d k v all).get d (OWD_WIRE k) OWD_WIRE.AGE = 0 :=
  get_put_self _ _ _ _ _ (putB_good _ _ _ _ _ (put_good _ _ _ _ _ hs)).1 (by decide)

theorem giveVerdict_marks (s : Chip) (d : Die) (k : Nat) (all : Bool) : k ∈ ((s.giveVerdict d k 2 all).die d).owd.marked := by
  rw [giveVerdict, updOwd_owd]
  simp only [true_and]
  split
  · exact List.mem_cons_self
  · next h => exact Decidable.not_not.1 h

/-- Verdicts given to the first wires: each wire's own is that of its turn. -/
theorem each_giveVerdict_verdict (hs : s.good G) (hm : m ≤ 32) {g : Nat → Nat} (hg : ∀ j, g j < 4) (hk : k < m) :
    (s.each (List.range m) fun j s => s.giveVerdict d j (g j) true).get d (OWD_WIRE k) OWD_WIRE.VERDICT = g k := by
  induction m with
  | zero => omega
  | succ m ih =>
    rw [each_range_succ]
    rcases Nat.lt_succ_iff_lt_or_eq.1 hk with hlt | rfl
    · have hother : ∀ a ∈ [OWD_WIRE m], a < 0x20000000 ∧ a ≠ OWD_WIRE k :=
        List.forall_mem_singleton.2 ⟨OWD_WIRE_lt (by omega), OWD_WIRE_ne (Nat.ne_of_gt hlt)⟩
      exact ((giveVerdict_within _ d m _ true).get d (OWD_WIRE_lt (by omega)) hother _).trans (ih (by omega) hlt)
    · exact giveVerdict_verdict (each_good _ _ _ hs fun _ _ h => giveVerdict_good _ _ _ _ _ h) (hg k) true

theorem each_giveVerdict_within (s : Chip) (d : Die) (m : Nat) (g : Nat → Nat) :
    s.Within (s.each (List.range m) fun j s => s.giveVerdict d j (g j) true) d ((List.range m).map OWD_WIRE) := by
  induction m with
  | zero => exact Within.refl s d _
  | succ m ih =>
    have hsub : (List.range m).map OWD_WIRE ⊆ (List.range (m + 1)).map OWD_WIRE := List.map_subset _ (by simp [List.range_succ])
    have hm : OWD_WIRE m ∈ (List.range (m + 1)).map OWD_WIRE := List.mem_map_of_mem List.self_mem_range_succ
    rw [each_range_succ]
    exact (ih.mono hsub).trans ((giveVerdict_within _ d m (g m) true).mono (List.cons_subset.2 ⟨hm, List.nil_subset _⟩))

/-! ### A single-wire test (R96, R99) -/

theorem advanceRotation_within (s : Chip) (d : Die) : s.Within (s.advanceRotation d) d [OWD_STATUS] := by
  unfold advanceRotation
  exact (((Within.refl ..).put (by simp) _ _).updOwd _).ite ((Within.refl ..).put (by simp) _ _)

theorem advanceRotation_stage (hs : s.good G) :
    (s.advanceRotation d).get d OWD_STATUS OWD_STATUS.STAGE = s.get d OWD_STATUS OWD_STATUS.STAGE := by
  unfold advanceRotation
  dsimp only
  split <;> exact get_put_apart _ _ _ _ _ _ hs.1 (by decide)

/-- The rotation's next wire, where there is one, changes the polarity alone of the tests' hidden state. -/
theorem cond_advanceRotation_owd (s : Chip) (d : Die) (bg : Bool) :
    ∃ b, ((s.cond bg fun s => s.advanceRotation d).die d).owd = { (s.die d).owd with down := b } := by
  unfold cond advanceRotation
  dsimp only
  repeat' split
  · exact ⟨_, updOwd_owd ..⟩
  · exact ⟨_, rfl⟩
  · exact ⟨_, rfl⟩

/-- The codes of OPEN, HIGH and GOOD lie inside the field of a verdict. -/
theorem verdict_lt (p q : Prop) [Decidable p] [Decidable q] : (if p then 2 else if q then 3 else 1) < 4 := by
  split
  · decide
  · split <;> decide

/-- What follows a single-wire test's verdict: its last ramp and δ4, the current off, the rotation's next wire, the spare released. -/
def closeVerdict (s : Chip) (d : Die) (t : OwdTest) (ramp delta : Int) : Chip :=
  (((((((s.putI d OWD_LAST OWD_LAST.RAMP ramp).putI d OWD_LAST OWD_LAST.DELTA4 delta).updOwd d fun x =>
    { x with test := some { t with judged := true }, shift := [] }).put d OWD_STATUS OWD_STATUS.STAGE 4).cond t.bg fun s =>
    s.advanceRotation d).spareRelease d 1).showMarks d)

/-- The verdict of a single-wire test recorded, with R_PATH where the wire is not open. -/
def recordVerdict (s : Chip) (d : Die) (t : OwdTest) (v rpath : Nat) (ramp delta : Int) : Chip :=
  ((s.giveVerdict d t.wire v false).cond (v != 2) fun s => s.put d (OWD_WIRE t.wire) OWD_WIRE.RPATH rpath).closeVerdict d t ramp delta

theorem openWireVerdict_eq {r : RampIn} {n : Nat} {x1 x4 : Int} (hrun : s.runsOn d 1 = true) (hline : s.stroke d % 4 = 0)
    (htest : (s.die d).owd.test = some t0) (hall : t0.all = false) (hjudged : t0.judged = false) (hspoilt : (s.die d).owd.spoilt = false)
    (hdue : t0.line + 6 ≤ s.stroke d / 4) (hn : n = s.cells d)
    (hx1 : x1 = testValue n t0.wire t0.down fun c => s.changeOf d c (at' r.base c) (at' r.l1 c))
    (hx4 : x4 = testValue n t0.wire t0.down fun c => s.changeOf d c (at' r.base c) (at' r.l4 c))
    (hv : v = (if (s.get d OWD_THRESH OWD_THRESH.RAMP_TH : Int) * 1600000000 < x4 - x1
      ∨ (∃ c ∈ testCells n t0.wire, r.range.getD c false = true) then 2
      else if 8000000 * (if t0.cur then 400 else 50) * (s.get d OWD_THRESH OWD_THRESH.RPATH_MAX : Int) < 5 * x4 then 3 else 1)) :
    ∃ rpath ramp delta, s.openWireVerdict d r = s.recordVerdict d t0 v rpath ramp delta := by
  have hguard : (!(s.runsOn d 1 && s.lineStroke d == 0) || t0.all || t0.judged || (s.die d).owd.spoilt) = false := by
    simp [hrun, lineStroke, hline, hall, hjudged, hspoilt]
  have hopen : ((decide ((s.get d OWD_THRESH OWD_THRESH.RAMP_TH : Int) * 1600000000 < x4 - x1)
      || (testCells n t0.wire).any fun c => r.range.getD c false) = true)
      = ((s.get d OWD_THRESH OWD_THRESH.RAMP_TH : Int) * 1600000000 < x4 - x1 ∨ ∃ c ∈ testCells n t0.wire, r.range.getD c false = true) := by
    simp only [Bool.or_eq_true, decide_eq_true_eq, List.any_eq_true]
  subst hn
  simp only [openWireVerdict, htest, hguard, Bool.false_or, decide_eq_true_eq, if_neg (Nat.not_lt.2 hdue), testCurrent, ← hx1, ← hx4,
    hopen, ← hv]
  exact ⟨_, _, _, rfl⟩

section
variable (s d t0) (v rpath : Nat) (ramp delta : Int)

theorem closeVerdict_within : s.Within (s.closeVerdict d t0 ramp delta) d [OWD_LAST, OWD_STATUS, CFE_SPARE] := by
  have hlast := (((Within.refl s d [OWD_LAST, OWD_STATUS, CFE_SPARE]).putI (a := OWD_LAST) (by simp) OWD_LAST.RAMP ramp).putI
    (a := OWD_LAST) (by simp) OWD_LAST.DELTA4 delta).updOwd fun x => { x with test := some { t0 with judged := true }, shift := [] }
  have hstage := hlast.put (a := OWD_STATUS) (by simp) OWD_STATUS.STAGE 4
  have hturn := hstage.cond t0.bg (f := fun s => s.advanceRotation d) (hstage.trans ((advanceRotation_within ..).mono (by simp)))
  exact (hturn.trans ((spareRelease_within ..).mono (by simp))).trans ((showMarks_within ..).mono (by simp))

theorem closeVerdict_owd : ∃ b, ((s.closeVerdict d t0 ramp delta).die d).owd
    = { (s.die d).owd with test := some { t0 with judged := true }, shift := [], down := b } := by
  obtain ⟨b, hb⟩ := cond_advanceRotation_owd ((((s.putI d OWD_LAST OWD_LAST.RAMP ramp).putI d OWD_LAST OWD_LAST.DELTA4 delta).updOwd d
    fun x => { x with test := some { t0 with judged := true }, shift := [] }).put d OWD_STATUS OWD_STATUS.STAGE 4) d t0.bg
  rw [closeVerdict, showMarks_owd, spareRelease_owd, hb, put_die, updOwd_owd]
  exact ⟨b, rfl⟩

theorem closeVerdict_stage {G : Watch} (hs : s.good G) : (s.closeVerdict d t0 ramp delta).get d OWD_STATUS OWD_STATUS.STAGE = 4 := by
  have hlast := updOwd_good _ d (fun x => { x with test := some { t0 with judged := true }, shift := [] })
    (putI_good _ d OWD_LAST OWD_LAST.DELTA4 delta (putI_good s d OWD_LAST OWD_LAST.RAMP ramp hs))
  rw [closeVerdict, showMarks_get _ _ (by decide), spareRelease_owdStatus,
    cond_get _ (g := fun s => s.advanceRotation d) (advanceRotation_stage (put_good _ d OWD_STATUS OWD_STATUS.STAGE 4 hlast)),
    get_put_self _ _ _ _ _ hlast.1 (by decide)]
  rfl

theorem recordVerdict_within :
    s.Within (s.recordVerdict d t0 v rpath ramp delta) d [OWD_WIRE t0.wire, OWD_LAST, OWD_STATUS, CFE_SPARE] := by
  have hgive : s.Within (s.giveVerdict d t0.wire v false) d [OWD_WIRE t0.wire, OWD_LAST, OWD_STATUS, CFE_SPARE] :=
    (giveVerdict_within ..).mono (by simp)
  exact (hgive.cond _ (hgive.put (by simp) _ _)).trans ((closeVerdict_within ..).mono (List.subset_cons_self ..))

/-- What follows the verdict leaves the fields of the wire's register above R_PATH. -/
theorem recordVerdict_wire (hwire : t0.wire ≤ 16) (f : Fld) (hf : OWD_WIRE.RPATH.w ≤ f.lo) {G : Watch} (hs : s.good G) :
    (s.recordVerdict d t0 v rpath ramp delta).get d (OWD_WIRE t0.wire) f
      = (s.giveVerdict d t0.wire v false).get d (OWD_WIRE t0.wire) f := by
  have habove : OWD_WIRE.RPATH.lo + OWD_WIRE.RPATH.w ≤ f.lo := by simpa [OWD_WIRE.RPATH] using hf
  exact ((closeVerdict_within ..).get d (OWD_WIRE_lt (by omega)) (ne_OWD_WIRE (by omega)) f).trans
    (cond_get _ (get_put_apart _ _ _ _ _ _ (giveVerdict_good _ _ _ _ _ hs).1 (.inr habove)))

theorem recordVerdict_owd : ((s.recordVerdict d t0 v rpath ramp delta).die d).owd.shift = []
    ∧ ((s.recordVerdict d t0 v rpath ramp delta).die d).owd.test = some { t0 with judged := true }
    ∧ (v = 2 → t0.wire ∈ ((s.recordVerdict d t0 v rpath ramp delta).die d).owd.marked) := by
  obtain ⟨b, hb⟩ := closeVerdict_owd ((s.giveVerdict d t0.wire v false).cond (v != 2) fun s =>
    s.put d (OWD_WIRE t0.wire) OWD_WIRE.RPATH rpath) d t0 ramp delta
  rw [recordVerdict, hb]
  refine ⟨rfl, rfl, ?_⟩
  rintro rfl
  exact giveVerdict_marks s d t0.wire false

theorem recordVerdict_stage {G : Watch} (hs : s.good G) :
    (s.recordVerdict d t0 v rpath ramp delta).get d OWD_STATUS OWD_STATUS.STAGE = 4 :=
  closeVerdict_stage _ d t0 ramp delta (cond_good _ _ _ (giveVerdict_good _ _ _ _ _ hs) fun _ h => put_good _ _ _ _ _ h)

end

/-! ### An all-wire test (R105) -/

/-- The verdicts of all wires of a die, the open ones given, and the end of their test. -/
def recordAll (s : Chip) (d : Die) (opens : List Nat) : Chip :=
  ((s.each (List.range (s.cells d + 1)) fun k s => s.giveVerdict d k (if opens.contains k then 2 else 1) true).endTest d).showMarks d

theorem allWireVerdict_eq {r : RampIn} (hrun : s.runsOn d 1 = true) (hline : s.stroke d % 4 = 0) (htest : (s.die d).owd.test = some t0)
    (hall : t0.all = true) (hspoilt : (s.die d).owd.spoilt = false) (hdue : t0.line + 8 ≤ s.stroke d / 4) :
    s.allWireVerdict d r
      = s.recordAll d (s.openWires d ((s.get d OWD_THRESH OWD_THRESH.RAMP_TH : Int) * (if t0.cur then 800 else 100)) r) := by
  simp [allWireVerdict, recordAll, htest, hrun, lineStroke, hline, hall, hspoilt, Nat.not_lt.2 hdue]

section
variable (s d) (opens : List Nat)

theorem recordAll_within : s.Within (s.recordAll d opens) d (OWD_STATUS :: (List.range (s.cells d + 1)).map OWD_WIRE) :=
  (((each_giveVerdict_within s d _ _).mono (List.subset_cons_self ..)).trans ((endTest_within ..).mono (by simp))).trans
    ((showMarks_within ..).mono (List.nil_subset _))

theorem recordAll_test : ((s.recordAll d opens).die d).owd.test = none := by rw [recordAll, showMarks_owd, endTest_owd]

variable {G : Watch} (hs : s.good G)
include hs

theorem recordAll_verdict (hk : k ≤ s.cells d) :
    (s.recordAll d opens).get d (OWD_WIRE k) OWD_WIRE.VERDICT = if k ∈ opens then 2 else 1 := by
  have hcells := cells_le s d
  have hlt : OWD_WIRE k < 0x20000000 := OWD_WIRE_lt (by omega)
  rw [recordAll, showMarks_get _ _ hlt, (endTest_within ..).get d hlt (List.forall_mem_singleton.2 (ne_OWD_WIRE (by omega) OWD_STATUS (by simp))),
    each_giveVerdict_verdict hs (by omega) (fun j => by split <;> decide) (by omega)]
  simp

theorem recordAll_busy : (s.recordAll d opens).get d OWD_STATUS OWD_STATUS.BUSY = 0 := by
  rw [recordAll, showMarks_get _ _ (by decide)]
  exact endTest_busy (each_good _ _ _ hs fun _ _ h => giveVerdict_good _ _ _ _ _ h)

end

/-! ### A step stage (R112, R113) -/

/-- A wire's resistance as a step stage gives it, in units of 10 µΩ; above the limit it is flagged and reported. -/
def giveResistance (s : Chip) (d : Die) (k : Nat) (rho : Int) : Chip :=
  (((s.put d (OWD_RWIRE k) OWD_RWIRE.RWIRE (max 0 (min 65535 rho)).toNat).put d (OWD_RWIRE k) OWD_RWIRE.VALID 1).put d
    (OWD_RWIRE k) OWD_RWIRE.AGE 0).cond (decide (5000 < rho)) fun s => (s.put d (OWD_RWIRE k) OWD_RWIRE.LIMIT 1).report d (49 + k)

theorem stepStageEnd_eq {l : List StepPair} {line : Nat} (hrun : s.runsOn d 1 = true) (hline : s.stroke d % 4 = 0)
    (hstep : (s.die d).owd.step = some (k, c, line)) (hdue : line + 8 ≤ s.stroke d / 4) :
    s.stepStageEnd d l = if (s.die d).owd.spoilt = true ∨ (s.die d).owd.stepIon < 400 then s.endStage d
      else (s.endStage d).giveResistance d k (s.stepResult d k l (s.die d).owd.stepIon) := by
  simp [stepStageEnd, giveResistance, hstep, hrun, lineStroke, hline, Nat.not_lt.2 hdue]

section
variable (s d k) (rho : Int)

theorem giveResistance_within : s.Within (s.giveResistance d k rho) d [OWD_RWIRE k] := by
  have hput := (((Within.refl s d [OWD_RWIRE k]).put (a := OWD_RWIRE k) (by simp) OWD_RWIRE.RWIRE (max 0 (min 65535 rho)).toNat).put
    (a := OWD_RWIRE k) (by simp) OWD_RWIRE.VALID 1).put (a := OWD_RWIRE k) (by simp) OWD_RWIRE.AGE 0
  exact hput.cond _ (f := fun s => (s.put d (OWD_RWIRE k) OWD_RWIRE.LIMIT 1).report d (49 + k)) ((hput.put (by simp) _ _).upd _)

@[simp] theorem giveResistance_owd : ((s.giveResistance d k rho).die d).owd = (s.die d).owd :=
  cond_owd _ (by simp [report])

variable {G : Watch} (hs : s.good G)
include hs

/-- The fields below LIMIT are those of the result. -/
theorem giveResistance_get {f : Fld} (hf : f.lo + f.w ≤ OWD_RWIRE.LIMIT.lo) :
    (s.giveResistance d k rho).get d (OWD_RWIRE k) f
      = ((s.put d (OWD_RWIRE k) OWD_RWIRE.RWIRE (max 0 (min 65535 rho)).toNat).put d (OWD_RWIRE k) OWD_RWIRE.VALID 1).get d (OWD_RWIRE k) f := by
  have hvalid := put_good _ d (OWD_RWIRE k) OWD_RWIRE.VALID 1 (put_good s d (OWD_RWIRE k) OWD_RWIRE.RWIRE (max 0 (min 65535 rho)).toNat hs)
  refine (cond_get _ ?_).trans (get_put_apart _ _ _ _ _ _ hvalid.1 (.inl (Nat.le_succ_of_le hf)))
  exact get_put_apart _ _ _ _ _ _ (put_good _ _ _ _ _ hvalid).1 (.inl hf)

theorem giveResistance_rwire : (s.giveResistance d k rho).get d (OWD_RWIRE k) OWD_RWIRE.RWIRE = (max 0 (min 65535 rho)).toNat := by
  rw [giveResistance_get s d k rho hs (by decide), get_put_apart _ _ _ _ _ _ (put_good _ _ _ _ _ hs).1 (by decide),
    get_put_self _ _ _ _ _ hs.1 (by decide)]
  exact Nat.mod_eq_of_lt (by simp only [OWD_RWIRE.RWIRE]; omega)

theorem giveResistance_valid : (s.giveResistance d k rho).bit d (OWD_RWIRE k) OWD_RWIRE.VALID = true := by
  rw [bit, giveResistance_get s d k rho hs (by decide)]
  exact bit_put_self (put_good _ _ _ _ _ hs) (by decide)

theorem giveResistance_limit (h : 5000 < rho) : (s.giveResistance d k rho).bit d (OWD_RWIRE k) OWD_RWIRE.LIMIT = true
    ∧ 49 + k ∈ ((s.giveResistance d k rho).die d).fcol.reports := by
  rw [giveResistance, decide_eq_true h, cond_true, report_reports]
  exact ⟨bit_put_self (put_good _ _ _ _ _ (put_good _ _ _ _ _ (put_good _ _ _ _ _ hs))) (by decide), by simp⟩

end

/-! ### The class of a deviating cell (R108) -/

/-- The code of a cell's class from its pair test and the verdicts of its lower and upper wire. -/
def classCode (holds : Bool) (a b : Nat) : Nat :=
  if holds then (if a = 2 ∨ b = 2 then 2 else 3) else (if a = 2 ∨ b = 2 then 4 else 1)

theorem deviationClassify_eq {holds : Bool} {a b : Nat} (hrun : s.runsOn d 1 = true)
    (hpair : (s.die d).owd.pairs.find? (fun p => p.1 == c) = some (c, holds, some a, some b)) :
    s.deviationClassify d c
      = ((s.updOwd d fun x => { x with pairs := x.pairs.filter (·.1 != c) }).put d (classReg c) (classField c) (classCode holds a b)).cond
        (classCode holds a b == 3) fun s => s.report d 108 := by
  have hopen : (a == 2 || b == 2) = decide (a = 2 ∨ b = 2) := by
    rw [Bool.decide_or]
    rfl
  simp only [deviationClassify, hpair, hrun, Bool.not_true, Bool.false_eq_true, if_false, hopen, classCode]
  by_cases h : a = 2 ∨ b = 2
  · cases holds <;> simp [h]
  · cases holds <;> simp [h]

theorem classCode_lt (holds : Bool) (a b : Nat) : classCode holds a b < 16 := by
  unfold classCode
  repeat' split
  all_goals decide

end Chip

open Chip in
/-- Settles O28: each row is its operation's equation where its guard holds; what it writes is read past what follows. -/
theorem wireVerdictsAndClasses : Obligations.WireVerdictsAndClasses := by
  unfold Obligations.WireVerdictsAndClasses
  refine ⟨?single, fun d s hs hrun => ⟨?all, ?step, ?classify⟩⟩
  case single =>
    intro d r t0 s n x1 x4 v hs hrun hline htest hall hjudged hspoilt hwire hdue hn hx1 hx4 hv
    have hgood := (wf_iff_good _).1 hs
    have hv4 : v < 4 := hv ▸ verdict_lt _ _
    obtain ⟨rpath, ramp, delta, heq⟩ := openWireVerdict_eq hrun hline htest hall hjudged hspoilt hdue hn hx1 hx4 hv
    obtain ⟨hshift, htest', hmarked⟩ := recordVerdict_owd s.chip d t0 v rpath ramp delta
    have hin := recordVerdict_within s.chip d t0 v rpath ramp delta
    refine ⟨{ s with chip := s.chip.openWireVerdict d r }, rfl, ?_⟩
    simp only [heq, recordVerdict_wire s.chip d t0 v rpath ramp delta hwire _ (by decide : OWD_WIRE.RPATH.w ≤ OWD_WIRE.VERDICT.lo) hgood,
      recordVerdict_wire s.chip d t0 v rpath ramp delta hwire _ (by decide : OWD_WIRE.RPATH.w ≤ OWD_WIRE.AGE.lo) hgood]
    exact ⟨giveVerdict_verdict hgood hv4 false, giveVerdict_age hgood v false, hshift, htest',
      recordVerdict_stage s.chip d t0 v rpath ramp delta hgood, hmarked, hin.regs, hin.dies⟩
  case all =>
    intro r t0 hline htest hall hspoilt hdue
    have hgood := (wf_iff_good _).1 hs
    refine ⟨{ s with chip := s.chip.allWireVerdict d r }, rfl, ?_⟩
    simp only [allWireVerdict_eq hrun hline htest hall hspoilt hdue]
    generalize s.chip.openWires d _ r = opens
    have hin := recordAll_within s.chip d opens
    exact ⟨fun k hk => recordAll_verdict s.chip d opens hgood hk, recordAll_test s.chip d opens,
      by simp [bit, recordAll_busy s.chip d opens hgood], hin.regs, hin.dies⟩
  case step =>
    rintro p0 p1 p2 p3 ion k c line rfl hline hstep hk hdue
    have hgood := (wf_iff_good _).1 hs
    have hend := endStage_good s.chip d hgood
    have hout := endStage_within s.chip d
    refine ⟨{ s with chip := s.chip.stepStageEnd d [p0, p1, p2, p3] }, rfl, ?_⟩
    simp only [stepStageEnd_eq hrun hline hstep hdue]
    generalize s.chip.stepResult d k [p0, p1, p2, p3] (s.chip.die d).owd.stepIon = rho
    split
    · next hbad =>
      have hin := hout.mono (bs := [OWD_STATUS, CXS_STATUS, OWD_RWIRE k]) (by simp)
      rw [endStage_owd]
      exact ⟨by simp [bit, endStage_stephold hgood], rfl, rfl, fun hsp hion => absurd hbad (by simp [hsp, hion]),
        fun _ => hout.reg d (OWD_RWIRE_lt hk) (ne_OWD_RWIRE hk), hin.regs, hin.dies⟩
    · next hok =>
      have hgive := giveResistance_within (s.chip.endStage d) d k rho
      have hin := (hout.mono (bs := [OWD_STATUS, CXS_STATUS, OWD_RWIRE k]) (by simp)).trans (hgive.mono (by simp))
      have hhold := hgive.get d (b := CXS_STATUS) (by decide)
        (List.forall_mem_singleton.2 ⟨OWD_RWIRE_lt hk, (ne_OWD_RWIRE hk CXS_STATUS (by simp)).2.symm⟩) CXS_STATUS.STEPHOLD
      rw [giveResistance_owd, endStage_owd]
      exact ⟨by simp [bit, hhold, endStage_stephold hgood], rfl, rfl,
        fun _ _ => ⟨giveResistance_rwire _ d k rho hend, giveResistance_valid _ d k rho hend, giveResistance_limit _ d k rho hend⟩,
        fun hbad => absurd hbad hok, hin.regs, hin.dies⟩
  case classify =>
    intro c holds a b hpair
    have hgood := (wf_iff_good _).1 hs
    have hput := ((Within.refl s.chip d [classReg c.val]).updOwd fun x => { x with pairs := x.pairs.filter (·.1 != c.val) }).put
      (a := classReg c.val) (by simp) (classField c.val) (classCode holds a b)
    have hin := hput.cond (classCode holds a b == 3) (f := fun s => s.report d 108) (hput.upd _)
    refine ⟨{ s with chip := s.chip.deviationClassify d c.val }, rfl, ?_⟩
    simp only [deviationClassify_eq hrun hpair]
    refine ⟨?_, ?_, hin.regs, hin.dies⟩
    · refine (cond_get _ rfl).trans
        ((get_put_self _ _ _ _ _ (updOwd_good _ _ _ hgood).1 ?_).trans (Nat.mod_eq_of_lt (classCode_lt holds a b)))
      simp only [classField]
      omega
    · rintro rfl ha hb
      have hcode : classCode true a b = 3 := by simp [classCode, ha, hb]
      simp [hcode, report_reports]

end Sys2Proof.Machine
end

section
/-! PROOFS. A channel's selection (R116, R153, R154): what SELECTION_CHANGE does with the cell that a channel wants, and what it leaves. -/
namespace Sys2Proof.Machine
namespace Chip
variable {G : Watch} {s t : Chip} {d : Die} {n k owner dir why : Nat} {as : List Nat}

/-! ### The registers of a channel (Tables 06.11, 06.12, 07.15) -/

theorem CXS_SEL_lt (hn : n < 2) : CXS_SEL n < 0x20000000 := by
  simp only [CXS_SEL, regAddr]
  omega

theorem CXS_STATE_lt (hn : n < 2) : CXS_STATE n < 0x20000000 := by
  simp only [CXS_STATE, regAddr]
  omega

theorem ne_CXS_SEL (hn : n < 2) (hk : k < 16) :
    ∀ a ∈ [CXS_STATE n, PGEN_STAT n, PGEN_ACC n, CXS_QSTAT k], a < 0x20000000 ∧ a ≠ CXS_SEL n := by
  simp only [List.forall_mem_cons, List.not_mem_nil, false_imp_iff, implies_true, and_true, CXS_STATE, PGEN_STAT, PGEN_ACC, CXS_QSTAT, CXS_SEL,
    regAddr]
  omega

theorem ne_CXS_STATE (n : Nat) (hk : k < 16) : ∀ a ∈ [CXS_QSTAT k], a < 0x20000000 ∧ a ≠ CXS_STATE n := by
  simp only [List.forall_mem_singleton, CXS_QSTAT, CXS_STATE, regAddr]
  omega

/-! ### Channels and profile generators -/

theorem Within.updChan (h : s.Within t d as) (n : Nat) (f : ChanX → ChanX) : s.Within (t.updChan d n f) d as := by
  unfold Chip.updChan updCxs
  exact h.upd _

theorem pgenIdle_within (s : Chip) (d : Die) (n : Nat) : s.Within (s.pgenIdle d n) d [PGEN_STAT n, PGEN_ACC n] :=
  (((Within.refl s d _).upd _).put (by simp) _ _).put (by simp) _ _

/-- Only a channel that the die has can want a cell. -/
theorem lt_chans_of_want {x : Nat × Nat × Nat} (h : (s.chan d n).want = some x) : n < (s.die d).cxs.chans.length := by
  refine Nat.lt_of_not_ge fun hge => ?_
  simp [chan, List.getElem?_eq_none hge] at h

theorem updChan_chan (f : ChanX → ChanX) (h : n < (s.die d).cxs.chans.length) : (s.updChan d n f).chan d n = f (s.chan d n) := by
  simp [updChan, updCxs, chan, h]

theorem selected_eq_some (h : s.get d (CXS_SEL n) CXS_SEL.CELL = k) (hk : k < 16) : s.selected d n = some k := by
  simp [selected, h, hk]

/-! ### A cell taken (Table 06.2) -/

/-- CXS_SEL of a channel that takes a cell: the cell, its owner and direction, PENDING, and REFUSE as it was. -/
def selWord (s : Chip) (d : Die) (n k owner dir : Nat) : Word :=
  CXS_SEL.REFUSE.write (BitVec.ofNat 32 (k + 32 * owner + 128 * dir + 256)) (s.get d (CXS_SEL n) CXS_SEL.REFUSE)

theorem selWord_cell (s : Chip) (d : Die) (n owner dir : Nat) (hk : k < 16) : CXS_SEL.CELL.read (s.selWord d n k owner dir) = k := by
  rw [selWord, Fld.read_write_ne _ _ _ _ (by decide)]
  simp only [Fld.read, CXS_SEL.CELL, BitVec.toNat_ofNat]
  omega

theorem selWord_owner (s : Chip) (d : Die) (n dir : Nat) (hk : k < 16) (howner : owner < 4) : CXS_SEL.OWNER.read (s.selWord d n k owner dir) = owner := by
  rw [selWord, Fld.read_write_ne _ _ _ _ (by decide)]
  simp only [Fld.read, CXS_SEL.OWNER, BitVec.toNat_ofNat]
  omega

theorem selWord_pending (s : Chip) (d : Die) (n : Nat) (hk : k < 16) (howner : owner < 4) (hdir : dir < 2) : CXS_SEL.PENDING.read (s.selWord d n k owner dir) = 1 := by
  rw [selWord, Fld.read_write_ne _ _ _ _ (by decide)]
  simp only [Fld.read, CXS_SEL.PENDING, BitVec.toNat_ofNat]
  omega

/-- A cell that a host target has a channel take shows the target as active there (R163). -/
theorem showTarget_within (s : Chip) (d : Die) (n k owner : Nat) :
    s.Within (s.cond (owner == 2) fun s => (s.put d (CXS_QSTAT k) CXS_QSTAT.ACTIVE 1).put d (CXS_QSTAT k) CXS_QSTAT.CH n) d [CXS_QSTAT k] :=
  (Within.refl s d _).cond _ (((Within.refl s d _).put (by simp) _ _).put (by simp) _ _)

theorem setReg_within_select (s : Chip) (d : Die) (n k owner dir : Nat) :
    (s.setReg d (CXS_SEL n) (s.selWord d n k owner dir)).Within (s.select d n k owner dir) d
      [CXS_STATE n, PGEN_STAT n, PGEN_ACC n, CXS_QSTAT k] :=
  (((((pgenIdle_within _ d n).mono (by simp)).put (by simp) _ _).updChan _ _).trans ((showTarget_within ..).mono (by simp)))

theorem select_within (s : Chip) (d : Die) (n k owner dir : Nat) :
    s.Within (s.select d n k owner dir) d [CXS_SEL n, CXS_STATE n, PGEN_STAT n, PGEN_ACC n, CXS_QSTAT k] :=
  ((Within.refl s d _).setReg (by simp) _).trans ((setReg_within_select ..).mono (List.subset_cons_self ..))

section
variable (hs : s.good G) (hn : n < 2) (hk : k < 16)
include hs hn hk

theorem select_get_sel (f : Fld) : (s.select d n k owner dir).get d (CXS_SEL n) f = f.read (s.selWord d n k owner dir) := by
  rw [(setReg_within_select ..).get d (CXS_SEL_lt hn) (ne_CXS_SEL hn hk), get, reg_setReg_self _ _ _ _ hs.1]

theorem select_selected (owner dir : Nat) : (s.select d n k owner dir).selected d n = some k :=
  selected_eq_some ((select_get_sel hs hn hk _).trans (selWord_cell s d n owner dir hk)) hk

theorem select_duty : (s.select d n k owner dir).get d (CXS_STATE n) CXS_STATE.DUTY = 0 :=
  ((showTarget_within ..).get d (CXS_STATE_lt hn) (ne_CXS_STATE n hk) _).trans
    (get_put_self _ _ _ _ _ (pgenIdle_good _ _ _ (setReg_good _ _ _ _ hs)).1 (by decide))

end

/-! ### A cell refused (R154) -/

theorem refusal_lt (h : s.refusal d n k = some why) : why < 4 := by
  unfold refusal at h
  dsimp only at h
  repeat' split at h
  all_goals cases h
  all_goals decide

/-- A refused channel no longer wants its cell; REFUSE has the reason. -/
def refuse (s : Chip) (d : Die) (n why : Nat) : Chip :=
  (s.put d (CXS_SEL n) CXS_SEL.REFUSE why).updChan d n fun c => { c with want := none }

theorem refuse_within (s : Chip) (d : Die) (n why : Nat) : s.Within (s.refuse d n why) d [CXS_SEL n] :=
  ((Within.refl s d _).put (by simp) _ _).updChan _ _

theorem refuse_want {x : Nat × Nat × Nat} (h : (s.chan d n).want = some x) (why : Nat) : ((s.refuse d n why).chan d n).want = none :=
  congrArg ChanX.want (updChan_chan (s := s.put d (CXS_SEL n) CXS_SEL.REFUSE why) _ (lt_chans_of_want h))

theorem refuse_reason (hs : s.good G) (hwhy : why < 4) : (s.refuse d n why).get d (CXS_SEL n) CXS_SEL.REFUSE = why :=
  (get_put_self _ _ _ _ _ hs.1 (by decide)).trans (Nat.mod_eq_of_lt hwhy)

theorem refuse_selected (hs : s.good G) (why : Nat) : (s.refuse d n why).selected d n = s.selected d n := by
  have hcell : (s.refuse d n why).get d (CXS_SEL n) CXS_SEL.CELL = s.get d (CXS_SEL n) CXS_SEL.CELL :=
    get_put_apart _ _ _ _ _ _ hs.1 (by decide)
  simp only [selected, hcell]

/-! ### SELECTION_CHANGE -/

section
variable (hwant : (s.chan d n).want = some (k, owner, dir))
include hwant

theorem selectionChange_of_waiting (h : s.mayTake d n = false ∨ s.cells d ≤ k) : s.selectionChange d n = s := by
  rcases h with h | h
  · simp [selectionChange, hwant, h]
  · simp [selectionChange, hwant, Nat.not_lt.2 h]

variable (hrun : s.runsOn d 3 = true) (hline : s.stroke d % 4 = 0) (hmay : s.mayTake d n = true) (hk : k < s.cells d)
include hrun hline hmay hk

theorem selectionChange_of_allowed (h : s.refusal d n k = none) : s.selectionChange d n = s.select d n k owner dir := by
  simp [selectionChange, hwant, hrun, lineStroke, hline, hmay, hk, h]

theorem selectionChange_of_refused (h : s.refusal d n k = some why) : s.selectionChange d n = s.refuse d n why := by
  simp [selectionChange, refuse, hwant, hrun, lineStroke, hline, hmay, hk, h]

end

end Chip

open Chip in
/-- Settles O31: the row is the operation of taking, of refusing, or nothing; what each writes is read past what follows it. -/
theorem selectionTakesOrRefusesTheWantedCell : Obligations.SelectionTakesOrRefusesTheWantedCell := by
  unfold Obligations.SelectionTakesOrRefusesTheWantedCell
  intro d n k owner dir s hs hwant hk howner hdir hrun hline
  have hgood := (wf_iff_good _).1 hs
  refine ⟨fun hwaits => ?_, fun hnone hfree hassign hheld hsense hen hcells => ?_⟩
  · change State.run s _ = _
    rw [State.run_eq, selectionChange_of_waiting hwant hwaits]
  · have hmay : s.chip.mayTake d n.val = true := by simp [mayTake, hnone, hfree, hassign, hheld, hsense, hen]
    refine ⟨fun hallowed => ?taken, fun why hrefused => ?refused⟩
    all_goals refine ⟨{ s with chip := s.chip.selectionChange d n.val }, rfl, ?_⟩
    case taken =>
      have hin := select_within s.chip d n.val k owner dir
      have hsel := select_get_sel (d := d) (owner := owner) (dir := dir) hgood n.isLt hk
      simp only [selectionChange_of_allowed hwant hrun hline hmay hcells hallowed]
      refine ⟨select_selected hgood n.isLt hk owner dir, ?_, ?_, select_duty hgood n.isLt hk, hin.regs, hin.dies⟩
      · exact (hsel _).trans (selWord_owner s.chip d n.val dir hk howner)
      · simp [bit, hsel, selWord_pending s.chip d n.val hk howner hdir]
    case refused =>
      have hin := refuse_within s.chip d n.val why
      simp only [selectionChange_of_refused hwant hrun hline hmay hcells hrefused]
      exact ⟨refuse_reason hgood (refusal_lt hrefused), (refuse_selected hgood why).trans hnone, refuse_want hwant why, hin.regs, hin.dies⟩

end Sys2Proof.Machine
end

section
/-! PROOFS. The cause of a stop (R168, Table 06.3): EN = 0 does not replace the cause of a stop at once while a severe overrun (R197) has
still to deselect the channel, which statement O32 does not except. -/
namespace Sys2Proof.Machine

/-- Die 0 with its domains powered and cell 4 on channel 0. One stroke edge brought a severe overrun of slot 0 and the safe state; then the
host wrote EN = 1, and RESUME ended the safe state's actions, before the line boundary that will deselect the channel. -/
def resumedAfterOverrun : State :=
  let running := (Chip.reset.put 0 (CXS_SEL 0) CXS_SEL.CELL 4).upd 0 fun x => { x with pwr := { x.pwr with on := Vector.replicate 9 true } }
  ⟨(((running.stageOverrun 0 0).stageSafe 0).writeCxsCfg 0 0 (CXS_CFG.EN.write 0 1)).put 0 CXS_STATUS CXS_STATUS.SAFE 0, []⟩

theorem resumedAfterOverrun_inv : resumedAfterOverrun.Inv := by
  have h : storeWf resumedAfterOverrun.chip.regs = true ∧ ∀ d : Die, (resumedAfterOverrun.chip.die d).wf = true := by decide +kernel
  exact h

/-- EN = 0 written there leaves the cause of the safe state. -/
theorem cxsEnWrite_resumedAfterOverrun : ∃ t, exec (.cxsEnWrite 0 0 0) resumedAfterOverrun = .next t
    ∧ t.chip.get 0 (CXS_STATE 0) CXS_STATE.STOPCAUSE = 4 :=
  ⟨_, rfl, by decide +kernel⟩

/-- Refutes O32: with a severe overrun that has still to deselect the channel, and the safe state as the last cause of a stop, EN = 0 written
to the enabled channel leaves STOPCAUSE 4, though the converters are no longer held at zero and STOPCAUSE is not 6. -/
theorem not_stageRampsBleedsAndWrites : ¬ Obligations.StageRampsBleedsAndWrites := by
  unfold Obligations.StageRampsBleedsAndWrites
  rintro ⟨-, hwrites⟩
  obtain ⟨-, hdisable, -⟩ := hwrites 0 0 resumedAfterOverrun resumedAfterOverrun_inv (by decide +kernel)
  obtain ⟨t, hexec, -, -, hcause, -⟩ := hdisable 0 (by decide +kernel) (by decide +kernel) (by decide +kernel) (by decide +kernel)
    (by decide +kernel) (by decide +kernel) (by decide +kernel)
  obtain ⟨t', hexec', hkept⟩ := cxsEnWrite_resumedAfterOverrun
  cases hexec.symm.trans hexec'
  exact absurd (hcause.symm.trans hkept) (by decide)

end Sys2Proof.Machine
end

section
/-! PROOFS. The profile generators (R190, R192): what a generator's step makes of it, what it leaves, and that neither generator's step is
seen by the other. -/
namespace Sys2Proof.Machine
namespace Chip
variable {G : Watch} {s t : Chip} {d : Die} {m n : Nat} {i a : Int} {limit rest : Bool}

/-! ### A generator moved -/

/-- Generator `n` moved to the current `i` with the acceleration `a`: both shown, with its limit flag, and IDLE where it comes to rest. -/
def movePgen (s : Chip) (d : Die) (n : Nat) (i a : Int) (limit rest : Bool) : Chip :=
  (((s.updPgen d n fun x => { x with i := i, a := a, next := sat16 (roundDiv i 65536) }).putI d (PGEN_ACC n) PGEN_ACC.ACCEL
    (a.tdiv 163840)).putB d (PGEN_STAT n) PGEN_STAT.ILIMIT limit).cond rest fun s => s.pgenMode d n 0

theorem Within.updPgen {as : List Nat} (h : s.Within t d as) (n : Nat) (f : PgenX → PgenX) : s.Within (t.updPgen d n f) d as := by
  unfold Chip.updPgen updCxs
  exact h.upd _

theorem movePgen_within (s : Chip) (d : Die) (n : Nat) (i a : Int) (limit rest : Bool) :
    s.Within (s.movePgen d n i a limit rest) d [PGEN_STAT n, PGEN_ACC n] :=
  have h := (((Within.refl s d _).updPgen n _).putI (by simp) _ _).putB (by simp) _ _
  h.cond _ (h.put (by simp) _ _)

/-- Of the hidden state only the generator moves. -/
theorem movePgen_die (s : Chip) (d : Die) (n : Nat) (i a : Int) (limit rest : Bool) :
    (s.movePgen d n i a limit rest).die d = { s.die d with cxs := { (s.die d).cxs with
      pgen := (s.die d).cxs.pgen.set n { s.pgen d n with i := i, a := a, next := sat16 (roundDiv i 65536) } } } := by
  cases rest <;> simp [movePgen, pgenMode, updPgen, updCxs]

theorem movePgen_pgen (h : n < (s.die d).cxs.pgen.length) (i a : Int) (limit rest : Bool) :
    (s.movePgen d n i a limit rest).pgen d n = { s.pgen d n with i := i, a := a, next := sat16 (roundDiv i 65536) } := by
  rw [pgen, movePgen_die]
  simp [h]

theorem movePgen_limit (hs : s.good G) (n : Nat) (i a : Int) (limit rest : Bool) :
    (s.movePgen d n i a limit rest).bit d (PGEN_STAT n) PGEN_STAT.ILIMIT = limit := by
  have hshown := putI_good _ d (PGEN_ACC n) PGEN_ACC.ACCEL (a.tdiv 163840)
    (updPgen_good s d n (fun x => { x with i := i, a := a, next := sat16 (roundDiv i 65536) }) hs)
  have hidle (u : Chip) (hu : u.good G) : (u.pgenMode d n 0).get d (PGEN_STAT n) PGEN_STAT.ILIMIT = u.get d (PGEN_STAT n) PGEN_STAT.ILIMIT :=
    get_put_apart _ _ _ _ _ _ hu.1 (by decide)
  rw [movePgen, bit, cond_get _ (hidle _ (putB_good _ _ _ _ _ hshown)), putB, get_put_self _ _ _ _ _ hshown.1 (by decide)]
  cases limit <;> rfl

/-! ### PGEN_STEP of one generator -/

/-- The acceleration limit of a generator in the units of R190. -/
def pgenAmax (s : Chip) (d : Die) (n : Nat) : Int := max 1 (s.nowGet d (PGEN_LIM n) PGEN_LIM.DIDT) * 163840

/-- The jerk limit of a generator in the units of R190. -/
def pgenJerk (s : Chip) (d : Die) (n : Nat) : Int := s.nowGet d (PGEN_LIM n) PGEN_LIM.JERK * 512000

/-- The current limit of a channel in the units of R190. -/
def pgenIlim (s : Chip) (d : Die) (n : Nat) : Int := s.get d (CXS_STATE n) CXS_STATE.ILIM_NOW * 65536

/-- The target of a generator as the current limit of its channel leaves it (R190). -/
def pgenClamped (s : Chip) (d : Die) (n : Nat) (want : Int) : Int := max (-(s.pgenIlim d n)) (min want (s.pgenIlim d n))

/-- The current of a generator after a stroke of a stop ramp (R192). -/
def pgenStopped (s : Chip) (d : Die) (n : Nat) : Int :=
  let fall := max (s.pgenAmax d n) ((s.pgen d n).i0.natAbs / 32 : Nat)
  if 0 < (s.pgen d n).i then max 0 ((s.pgen d n).i - fall) else min 0 ((s.pgen d n).i + fall)

/-- The current and the acceleration of a generator after a stroke in which it follows the current `want` (R190). -/
def pgenFollowed (s : Chip) (d : Die) (n : Nat) (want : Int) : Int × Int :=
  pgenCurve (s.pgen d n).i (s.pgen d n).a (s.pgenClamped d n want) (s.pgenAmax d n) (s.pgenJerk d n)

theorem pgenStep1_of_idle (h : s.get d (PGEN_STAT n) PGEN_STAT.MODE = 0) :
    s.pgenStep1 d n = s.putB d (PGEN_STAT n) PGEN_STAT.ILIMIT false := by
  simp [pgenStep1, h, putB]

theorem pgenStep1_of_stopping (h : s.get d (PGEN_STAT n) PGEN_STAT.MODE = 3) :
    s.pgenStep1 d n = s.movePgen d n (s.pgenStopped d n) 0 false (s.pgenStopped d n == 0) := by
  simp only [pgenStep1, h]
  rfl

theorem pgenStep1_of_following (hidle : s.get d (PGEN_STAT n) PGEN_STAT.MODE ≠ 0) (hstop : s.get d (PGEN_STAT n) PGEN_STAT.MODE ≠ 3)
    (hfree : s.bit d CXS_STATUS CXS_STATUS.STEPHOLD = false) {want : Int} (hwant : want = s.pgenTarget d n (s.pgenAmax d n) (s.pgenJerk d n)) :
    s.pgenStep1 d n = s.movePgen d n (s.pgenFollowed d n want).1 (s.pgenFollowed d n want).2 (s.pgenClamped d n want != want)
      (s.get d (PGEN_STAT n) PGEN_STAT.MODE == 1 && s.pgenClamped d n want == 0 && (s.pgenFollowed d n want).1 == 0) := by
  subst hwant
  simp only [pgenStep1, hidle, hstop, hfree, if_false, Bool.false_eq_true]
  rfl

theorem pgenStep1_of_stephold (hidle : s.get d (PGEN_STAT n) PGEN_STAT.MODE ≠ 0) (hstop : s.get d (PGEN_STAT n) PGEN_STAT.MODE ≠ 3)
    (hheld : s.bit d CXS_STATUS CXS_STATUS.STEPHOLD = true) : s.pgenStep1 d n = s := by
  simp only [pgenStep1, hidle, hstop, hheld, if_false, if_true]

/-- A step leaves the module as it is, clears the limit flag of its generator, or moves the generator. -/
theorem pgenStep1_cases (s : Chip) (d : Die) (n : Nat) :
    s.pgenStep1 d n = s ∨ s.pgenStep1 d n = s.putB d (PGEN_STAT n) PGEN_STAT.ILIMIT false
      ∨ ∃ i a limit rest, s.pgenStep1 d n = s.movePgen d n i a limit rest := by
  by_cases hidle : s.get d (PGEN_STAT n) PGEN_STAT.MODE = 0
  · exact .inr (.inl (pgenStep1_of_idle hidle))
  by_cases hstop : s.get d (PGEN_STAT n) PGEN_STAT.MODE = 3
  · exact .inr (.inr ⟨_, _, _, _, pgenStep1_of_stopping hstop⟩)
  cases hheld : s.bit d CXS_STATUS CXS_STATUS.STEPHOLD
  · exact .inr (.inr ⟨_, _, _, _, pgenStep1_of_following hidle hstop hheld rfl⟩)
  · exact .inl (pgenStep1_of_stephold hidle hstop hheld)

theorem pgenStep1_within (s : Chip) (d : Die) (n : Nat) : s.Within (s.pgenStep1 d n) d [PGEN_STAT n, PGEN_ACC n] := by
  rcases pgenStep1_cases s d n with h | h | ⟨i, a, limit, rest, h⟩ <;> rw [h]
  · exact Within.refl s d _
  · exact (Within.refl s d _).putB (by simp) _ _
  · exact movePgen_within s d n i a limit rest

/-- Of the hidden state a step moves at most its own generator. -/
theorem pgenStep1_die (s : Chip) (d : Die) (n : Nat) :
    ∃ l, (s.pgenStep1 d n).die d = { s.die d with cxs := { (s.die d).cxs with pgen := l } } ∧ l.length = (s.die d).cxs.pgen.length
      ∧ ∀ k ≠ n, l[k]? = (s.die d).cxs.pgen[k]? := by
  rcases pgenStep1_cases s d n with h | h | ⟨i, a, limit, rest, h⟩ <;> rw [h]
  · exact ⟨_, rfl, rfl, fun _ _ => rfl⟩
  · exact ⟨_, rfl, rfl, fun _ _ => rfl⟩
  · exact ⟨_, movePgen_die s d n i a limit rest, by simp, fun k hk => by simp [hk.symm]⟩

/-! ### Two generators -/

/-- All that a step of generator `n` reads is the same in `t` as in `s`. -/
structure SamePgen (s t : Chip) (d : Die) (n : Nat) : Prop where
  length : (t.die d).cxs.pgen.length = (s.die d).cxs.pgen.length
  gen : t.pgen d n = s.pgen d n
  stat : ∀ f, t.get d (PGEN_STAT n) f = s.get d (PGEN_STAT n) f
  lim : t.now d (PGEN_LIM n) = s.now d (PGEN_LIM n)
  state : ∀ f, t.get d (CXS_STATE n) f = s.get d (CXS_STATE n) f
  status : ∀ f, t.get d CXS_STATUS f = s.get d CXS_STATUS f
  target : t.pgenTarget d n = s.pgenTarget d n

theorem SamePgen.refl (s : Chip) (d : Die) (n : Nat) : s.SamePgen s d n :=
  ⟨rfl, rfl, fun _ => rfl, rfl, fun _ => rfl, fun _ => rfl, rfl⟩

/-- The registers that a step of generator `n` reads. -/
def ReadByPgen (n b : Nat) : Prop :=
  b ∈ [PGEN_STAT n, PGEN_LIM n, CXS_STATE n, CXS_SEL n, CXS_STATUS, CXS_MGR_I] ∨ ∃ k < 16, b = CXS_QSTAT k

/-- No register that a generator reads is one that the other's step writes. -/
theorem pgenRegs_apart (hm : m < 2) (hn : n < 2) (hmn : m ≠ n) {b : Nat} (hb : ReadByPgen n b) :
    b < 0x20000000 ∧ ∀ a ∈ [PGEN_STAT m, PGEN_ACC m], a < 0x20000000 ∧ a ≠ b := by
  simp only [ReadByPgen, List.mem_cons, List.not_mem_nil, or_false, forall_eq_or_imp, forall_eq] at hb ⊢
  rcases hb with (rfl | rfl | rfl | rfl | rfl | rfl) | ⟨k, hk, rfl⟩ <;>
    simp only [PGEN_STAT, PGEN_ACC, PGEN_LIM, CXS_STATE, CXS_SEL, CXS_STATUS, CXS_MGR_I, CXS_QSTAT, regAddr] <;> omega

theorem pgenStep1_reg (s : Chip) (d : Die) (hm : m < 2) (hn : n < 2) (hmn : m ≠ n) {b : Nat} (hb : ReadByPgen n b) :
    (s.pgenStep1 d m).reg d b = s.reg d b :=
  have h := pgenRegs_apart hm hn hmn hb
  (pgenStep1_within s d m).reg d h.1 h.2

section
variable (hm : m < 2) (hn : n < 2) (hmn : m ≠ n)
include hm hn hmn

theorem pgenStep1_get (s : Chip) (d : Die) {b : Nat} (hb : ReadByPgen n b) (f : Fld) : (s.pgenStep1 d m).get d b f = s.get d b f :=
  congrArg f.read (pgenStep1_reg s d hm hn hmn hb)

theorem pgenStep1_bit (s : Chip) (d : Die) {b : Nat} (hb : ReadByPgen n b) (f : Fld) : (s.pgenStep1 d m).bit d b f = s.bit d b f :=
  congrArg (· == 1) (pgenStep1_get hm hn hmn s d hb f)

theorem pgenStep1_targetCell (s : Chip) (d : Die) : (s.pgenStep1 d m).targetCell d n = s.targetCell d n := by
  have hsel : (s.pgenStep1 d m).selected d n = s.selected d n := by
    simp only [selected, pgenStep1_get hm hn hmn s d (b := CXS_SEL n) (.inl (by simp))]
  unfold targetCell
  rw [hsel]
  split
  next k hk =>
    have hlt : k < 16 := by
      simp only [selected, Option.ite_none_right_eq_some, Option.some.injEq] at hk
      omega
    have hread : ReadByPgen n (CXS_QSTAT k) := .inr ⟨k, hlt, rfl⟩
    rw [pgenStep1_bit hm hn hmn s d hread, pgenStep1_get hm hn hmn s d hread]
  · rfl

/-- The step of one generator is not seen by the other. -/
theorem pgenStep1_samePgen (s : Chip) (d : Die) : s.SamePgen (s.pgenStep1 d m) d n := by
  obtain ⟨l, hdie, hlength, hother⟩ := pgenStep1_die s d m
  have hget {b : Nat} := pgenStep1_get hm hn hmn s d (b := b)
  have hbit {b : Nat} := pgenStep1_bit hm hn hmn s d (b := b)
  have hstat : ReadByPgen n (PGEN_STAT n) := .inl (by simp)
  have hsel : ReadByPgen n (CXS_SEL n) := .inl (by simp)
  refine ⟨?length, ?gen, hget hstat, ?lim, hget (.inl (by simp)), hget (.inl (by simp)), ?target⟩
  case length => rw [hdie, hlength]
  case gen => simp only [pgen, hdie, List.getD_eq_getElem?_getD, hother n hmn.symm]
  case lim => simp only [now, hdie, pgenStep1_reg s d hm hn hmn (b := PGEN_LIM n) (.inl (by simp))]
  case target =>
    funext amax jerk
    rw [pgenTarget, pgenTarget, pgenStep1_targetCell hm hn hmn, hdie, hget hstat, hbit hsel, hbit hsel, hget hsel,
      hget (b := CXS_MGR_I) (.inl (by simp))]

end

/-- PGEN_STEP: both generators step. -/
def pgenSteps (s : Chip) (d : Die) : Chip := (s.pgenStep1 d 0).pgenStep1 d 1

theorem execPgenStep_of_runs {s : State} (h : s.chip.runsOn d 4 = true) :
    exec (.pgenStep d) s = .next { s with chip := s.chip.pgenSteps d } := by
  change State.run s _ = _
  simp [h, pgenSteps]

theorem pgenSteps_within (s : Chip) (d : Die) :
    s.Within (s.pgenSteps d) d [PGEN_STAT 0, PGEN_STAT 1, PGEN_ACC 0, PGEN_ACC 1] :=
  ((pgenStep1_within s d 0).mono (by simp)).trans ((pgenStep1_within _ d 1).mono (by simp))

/-- PGEN_STEP does to each generator what the generator's own step does from a state in which it reads the same. -/
theorem pgenSteps_eq_own (hs : s.good G) (n : Pair) : ∃ u : Chip, u.good G ∧ s.SamePgen u d n.val
    ∧ (s.pgenSteps d).pgen d n.val = (u.pgenStep1 d n.val).pgen d n.val
    ∧ (s.pgenSteps d).bit d (PGEN_STAT n.val) PGEN_STAT.ILIMIT = (u.pgenStep1 d n.val).bit d (PGEN_STAT n.val) PGEN_STAT.ILIMIT := by
  match n with
  | 0 =>
    have hlater : (s.pgenStep1 d 0).SamePgen (s.pgenSteps d) d 0 := pgenStep1_samePgen (by decide) (by decide) (by decide) _ d
    exact ⟨s, hs, .refl s d 0, hlater.gen, congrArg (· == 1) (hlater.stat _)⟩
  | 1 => exact ⟨s.pgenStep1 d 0, pgenStep1_good d 0 s hs, pgenStep1_samePgen (by decide) (by decide) (by decide) s d, rfl, rfl⟩

/-! ### What a PGEN_STEP makes of each generator (R190, R192) -/

section
variable {x : PgenX} {amax jerk ilim want : Int} {k : Pair} (hs : s.good G) (hx : x = s.pgen d k)
include hs hx

theorem pgenSteps_of_idle (h : s.get d (PGEN_STAT k) PGEN_STAT.MODE = 0) :
    (s.pgenSteps d).pgen d k = x ∧ (s.pgenSteps d).bit d (PGEN_STAT k) PGEN_STAT.ILIMIT = false := by
  obtain ⟨u, hu, hsame, hgen, hlimit⟩ := pgenSteps_eq_own (d := d) hs k
  rw [hgen, hlimit, pgenStep1_of_idle ((hsame.stat _).trans h)]
  exact ⟨hsame.gen.trans hx.symm, bit_put_self hu (by decide)⟩

variable (hk : k < (s.die d).cxs.pgen.length) (hamax : amax = s.pgenAmax d k)
include hk hamax

theorem pgenSteps_of_stopping (h : s.get d (PGEN_STAT k) PGEN_STAT.MODE = 3) (hpos : 0 < x.i) :
    ((s.pgenSteps d).pgen d k).i = max 0 (x.i - max amax (x.i0.natAbs / 32 : Nat)) ∧ ((s.pgenSteps d).pgen d k).a = 0 := by
  obtain ⟨u, -, hsame, hgen, -⟩ := pgenSteps_eq_own (d := d) hs k
  have hstopped : u.pgenStopped d k = max 0 (x.i - max amax (x.i0.natAbs / 32 : Nat)) := by
    simp only [pgenStopped, pgenAmax, nowGet, hsame.gen, hsame.lim, ← hx, hpos, if_true, hamax]
  rw [hgen, pgenStep1_of_stopping ((hsame.stat _).trans h), movePgen_pgen (hsame.length ▸ hk)]
  exact ⟨hstopped, rfl⟩

theorem pgenSteps_of_following (hjerk : jerk = s.pgenJerk d k) (hilim : ilim = s.pgenIlim d k) (hwant : want = s.pgenTarget d k amax jerk)
    (h : s.get d (PGEN_STAT k) PGEN_STAT.MODE = 1) (hfree : s.bit d CXS_STATUS CXS_STATUS.STEPHOLD = false) :
    (((s.pgenSteps d).pgen d k).i, ((s.pgenSteps d).pgen d k).a) = pgenCurve x.i x.a (max (-ilim) (min want ilim)) amax jerk
      ∧ ((s.pgenSteps d).pgen d k).next = sat16 (roundDiv ((s.pgenSteps d).pgen d k).i 65536)
      ∧ (s.pgenSteps d).bit d (PGEN_STAT k) PGEN_STAT.ILIMIT = decide (max (-ilim) (min want ilim) ≠ want) := by
  obtain ⟨u, hu, hsame, hgen, hlimit⟩ := pgenSteps_eq_own (d := d) hs k
  have hmode : u.get d (PGEN_STAT k) PGEN_STAT.MODE = 1 := (hsame.stat _).trans h
  have hamax' : amax = u.pgenAmax d k := by simp only [hamax, pgenAmax, nowGet, hsame.lim]
  have hjerk' : jerk = u.pgenJerk d k := by simp only [hjerk, pgenJerk, nowGet, hsame.lim]
  have hclamped : u.pgenClamped d k want = max (-ilim) (min want ilim) := by simp only [pgenClamped, pgenIlim, hsame.state, hilim]
  have hcurve : u.pgenFollowed d k want = pgenCurve x.i x.a (max (-ilim) (min want ilim)) amax jerk := by
    rw [pgenFollowed, hclamped, hsame.gen, ← hx, ← hamax', ← hjerk']
  have hstep := pgenStep1_of_following (s := u) (n := k) (by simp [hmode]) (by simp [hmode]) ((congrArg (· == 1) (hsame.status _)).trans hfree)
    (hwant.trans (by rw [hsame.target, ← hamax', ← hjerk']))
  rw [hgen, hlimit, hstep, movePgen_pgen (hsame.length ▸ hk), movePgen_limit hu, hclamped, ← hcurve]
  exact ⟨rfl, rfl, by simp only [bne, Bool.beq_eq_decide_eq, decide_not]⟩

end

end Chip
end Sys2Proof.Machine
end

section
/-! PROOFS. Writes that wait for the stroke edge (R193), orders to the injection generators (R198, R394) and to the capture (R200, R201),
and what a PGEN_STEP, an order and an arming leave (O30). -/
namespace Sys2Proof.Machine

/-! ### Masks of a written word -/

theorem Fld.read_lt (f : Fld) (w : Word) : f.read w < 2 ^ f.w := Nat.mod_lt _ (Nat.two_pow_pos _)

/-- A mask that has all of a field's bits keeps the field. -/
theorem Fld.read_and_of_mask (f : Fld) {k : Word} (w : Word) (h : f.mask &&& k = f.mask) : f.read (w &&& k) = f.read w := by
  refine Nat.eq_of_testBit_eq fun i => ?_
  have hbit := congrArg (BitVec.getLsbD · (f.lo + i)) h
  have hhigh := @BitVec.getLsbD_of_ge 32 w (f.lo + i)
  simp only [BitVec.getLsbD_and, Fld.mask_getLsbD, Fld.has] at hbit
  simp only [Fld.read_testBit, BitVec.getLsbD_and]
  grind

/-- Outside its field a write leaves the word. -/
theorem Fld.write_and_not_mask (f : Fld) (w : Word) (v : Nat) : f.write w v &&& ~~~f.mask = w &&& ~~~f.mask := by
  refine BitVec.eq_of_getLsbD_eq fun i hi => ?_
  simp only [BitVec.getLsbD_and, BitVec.getLsbD_not, Fld.write_getLsbD, Fld.mask_getLsbD, hi, decide_true, true_and, Bool.true_and]
  cases f.has i <;> simp

theorem Fld.write_zero (f : Fld) (w : Word) : f.write w 0 = w &&& ~~~f.mask := by simp [Fld.write]

namespace Chip
variable {G : Watch} {s t : Chip} {d : Die} {a n : Nat} {w : Word}

/-! ### A value that waits for the edge (R193) -/

theorem Within.updEng {as : List Nat} (h : s.Within t d as) (f : EngX → EngX) : s.Within (t.updEng d f) d as := h.upd _

theorem writePending_within (s : Chip) (d : Die) (a : Nat) (w : Word) : s.Within (s.writePending d a w) d [a] :=
  ((Within.refl s d _).updEng _).setReg (by simp) w

/-- Of the hidden state only the values in force are noted. -/
theorem writePending_eng (s : Chip) (d : Die) (a : Nat) (w : Word) : ((s.writePending d a w).die d).eng = { (s.die d).eng with
    held := if (s.die d).eng.held.any (·.1 == a) then (s.die d).eng.held else (a, s.reg d a) :: (s.die d).eng.held } := by
  simp only [writePending, Chip.updEng, setReg_die, upd_die_self]
  split <;> rfl

theorem writePending_reg (hs : s.good G) (a : Nat) (w : Word) : (s.writePending d a w).reg d a = w :=
  reg_setReg_self _ _ _ _ hs.1

/-- Where nothing is noted of an address, a note of the word it holds keeps that word in force; an earlier note stays (R193). -/
theorem getD_find?_noted (held : List (Nat × Word)) (a : Nat) (old new : Word) :
    (((if held.any (·.1 == a) then held else (a, old) :: held).find? (·.1 == a)).map (·.2)).getD new
      = ((held.find? (·.1 == a)).map (·.2)).getD old := by
  cases hfind : held.find? (·.1 == a) with
  | some p => simp [hfind, List.any_eq_true.2 ⟨p, List.mem_of_find?_eq_some hfind, List.find?_some hfind⟩]
  | none =>
    have hany : held.any (·.1 == a) = false := List.any_eq_false.2 (List.find?_eq_none.1 hfind)
    simp [hany]

/-- A write leaves the value in force as it was. -/
theorem writePending_now (s : Chip) (d : Die) (a : Nat) (w : Word) : (s.writePending d a w).now d a = s.now d a := by
  rw [now, writePending_eng]
  exact getD_find?_noted ..

/-- An update of the engine that leaves the values in force noted leaves them in force. -/
theorem updEng_now (s : Chip) (d : Die) (a : Nat) {f : EngX → EngX} (h : ∀ e, (f e).held = e.held) : (s.updEng d f).now d a = s.now d a := by
  simp only [now, Chip.updEng, upd_die_self, upd_reg, h]

/-! ### Orders to an injection generator -/

/-- What INJ_CFG takes of a written word: no orders, and a reserved MODE as 0 (Table 07.16). -/
def injWord (w : Word) : Word :=
  let v := INJ_CFG.STOP.write (INJ_CFG.GO.write (w &&& 0x7FFFFF7F) 0) 0
  if 4 ≤ INJ_CFG.MODE.read v then INJ_CFG.MODE.write v 0 else v

/-- A generator with the orders of a write: STOP before GO, and none leaves the earlier ones (R193). -/
def orderedGen (g : GenX) (go stop : Bool) : GenX := if go || stop then { g with go := go && !stop, stop := stop } else g

/-- The generator at slot `n` as a write of INJ_CFG leaves it. -/
def writtenGen (s : Chip) (d : Die) (n : Nat) (w : Word) : GenX :=
  orderedGen ((s.die d).eng.gens.getD n ⟨false, false, 0, 0, 0x7FFF, 0, false, 0, 1, false⟩)
    (decide (INJ_CFG.GO.read w = 1 ∧ !(s.engineRests d))) (decide (INJ_CFG.STOP.read w = 1))

theorem writeInjCfg_of_free (h : s.bit d (INJ_STAT n) INJ_STAT.OWNER = false) (w : Word) :
    s.writeInjCfg d n w
      = (s.writePending d (INJ_CFG n) (injWord w)).updEng d fun e => { e with gens := e.gens.set n (s.writtenGen d n w) } := by
  rw [writeInjCfg, h]
  rfl

theorem writeInjCfg_within (h : s.bit d (INJ_STAT n) INJ_STAT.OWNER = false) (w : Word) : s.Within (s.writeInjCfg d n w) d [INJ_CFG n] := by
  rw [writeInjCfg_of_free h]
  exact (writePending_within ..).updEng _

theorem writeInjCfg_gens (h : s.bit d (INJ_STAT n) INJ_STAT.OWNER = false) (w : Word) :
    ((s.writeInjCfg d n w).die d).eng.gens = (s.die d).eng.gens.set n (s.writtenGen d n w) := by
  simp only [writeInjCfg_of_free h, Chip.updEng, upd_die_self, writePending_eng]

theorem writeInjCfg_now (h : s.bit d (INJ_STAT n) INJ_STAT.OWNER = false) (w : Word) :
    (s.writeInjCfg d n w).now d (INJ_CFG n) = s.now d (INJ_CFG n) := by
  rw [writeInjCfg_of_free h, updEng_now, writePending_now]
  exact fun _ => rfl

/-- A MODE that Table 07.16 lists is taken: the mask keeps it, and the orders lie apart from it. -/
theorem injWord_mode (hw : INJ_CFG.MODE.read w < 4) : INJ_CFG.MODE.read (injWord w) = INJ_CFG.MODE.read w := by
  have hmode : INJ_CFG.MODE.read (INJ_CFG.STOP.write (INJ_CFG.GO.write (w &&& 0x7FFFFF7F) 0) 0) = INJ_CFG.MODE.read w := by
    rw [Fld.read_write_ne _ _ _ _ (by decide), Fld.read_write_ne _ _ _ _ (by decide)]
    exact Fld.read_and_of_mask _ w (by decide)
  rw [injWord, if_neg (by rw [hmode]; omega), hmode]

theorem writeInjCfg_mode (hs : s.good G) (h : s.bit d (INJ_STAT n) INJ_STAT.OWNER = false) (hw : INJ_CFG.MODE.read w < 4) :
    (s.writeInjCfg d n w).get d (INJ_CFG n) INJ_CFG.MODE = INJ_CFG.MODE.read w := by
  rw [writeInjCfg_of_free h, get, Chip.updEng, upd_reg, writePending_reg hs, injWord_mode hw]

/-- GO starts the generator of an engine that does not rest, unless the same write has STOP (R198). -/
theorem writtenGen_go (h : s.engineRests d = false) (n : Nat) (w : Word) :
    (s.writtenGen d n (INJ_CFG.GO.write w 1)).go = (INJ_CFG.STOP.read w == 0)
      ∧ (s.writtenGen d n (INJ_CFG.GO.write w 1)).stop = (INJ_CFG.STOP.read w == 1) := by
  have hgo : INJ_CFG.GO.read (INJ_CFG.GO.write w 1) = 1 := Fld.read_write _ _ _ (by decide)
  have hstop : INJ_CFG.STOP.read (INJ_CFG.GO.write w 1) = INJ_CFG.STOP.read w := Fld.read_write_ne _ _ _ _ (by decide)
  have hlt : INJ_CFG.STOP.read w < 2 := Fld.read_lt _ w
  obtain hw | hw : INJ_CFG.STOP.read w = 0 ∨ INJ_CFG.STOP.read w = 1 := by omega
  all_goals simp [writtenGen, orderedGen, hgo, hstop, h, hw]

theorem writtenGen_stop (s : Chip) (d : Die) (n : Nat) (w : Word) :
    (s.writtenGen d n (INJ_CFG.STOP.write w 1)).go = false ∧ (s.writtenGen d n (INJ_CFG.STOP.write w 1)).stop = true := by
  have hstop : INJ_CFG.STOP.read (INJ_CFG.STOP.write w 1) = 1 := Fld.read_write _ _ _ (by decide)
  simp [writtenGen, orderedGen, hstop]

/-- A write without STOP to an engine that rests leaves the generator's orders (R394). -/
theorem writtenGen_of_rests (h : s.engineRests d = true) {g : GenX} (hg : (s.die d).eng.gens[n]? = some g)
    (hw : INJ_CFG.STOP.read w = 0) : s.writtenGen d n (INJ_CFG.GO.write w 1) = g := by
  have hstop : INJ_CFG.STOP.read (INJ_CFG.GO.write w 1) = 0 := (Fld.read_write_ne _ _ _ _ (by decide)).trans hw
  simp [writtenGen, orderedGen, hstop, h, hg]

/-! ### An arming of the capture -/

/-- What INJ_CAPCFG takes of a word written with ARM: its fields but ARM. -/
theorem write_arm_masked (w : Word) : INJ_CAPCFG.ARM.write (INJ_CAPCFG.ARM.write w 1 &&& 0x1FFFFFFF) 0 = w &&& 0x0FFFFFFF := by
  rw [Fld.write_zero, BitVec.and_assoc, BitVec.and_comm 0x1FFFFFFF, ← BitVec.and_assoc, Fld.write_and_not_mask, BitVec.and_assoc]
  rfl

theorem writeCapture_of_arm (s : Chip) (d : Die) (w : Word) : s.writeCapture d (INJ_CAPCFG.ARM.write w 1)
    = (s.writePending d INJ_CAPCFG (w &&& 0x0FFFFFFF)).cond (!(s.engineRests d)) fun s =>
      s.updEng d fun e => { e with cap := { e.cap with start := true } } := by
  have harm : INJ_CAPCFG.ARM.read (INJ_CAPCFG.ARM.write w 1) = 1 := Fld.read_write _ _ _ (by decide)
  simp only [writeCapture, harm, write_arm_masked, BEq.rfl, Bool.true_and]

theorem writeCapture_within (s : Chip) (d : Die) (w : Word) :
    s.Within (s.writeCapture d (INJ_CAPCFG.ARM.write w 1)) d [INJ_CAPCFG] := by
  rw [writeCapture_of_arm]
  have h := writePending_within s d INJ_CAPCFG (w &&& 0x0FFFFFFF)
  exact h.cond _ (h.updEng _)

theorem writeCapture_reg (hs : s.good G) (w : Word) :
    (s.writeCapture d (INJ_CAPCFG.ARM.write w 1)).reg d INJ_CAPCFG = w &&& 0x0FFFFFFF := by
  rw [writeCapture_of_arm]
  cases s.engineRests d <;> exact writePending_reg hs _ _

theorem writeCapture_now (s : Chip) (d : Die) (w : Word) :
    (s.writeCapture d (INJ_CAPCFG.ARM.write w 1)).now d INJ_CAPCFG = s.now d INJ_CAPCFG := by
  rw [writeCapture_of_arm]
  cases s.engineRests d
  · rw [Bool.not_false, cond_true, updEng_now, writePending_now]
    exact fun _ => rfl
  · exact writePending_now ..

theorem writeCapture_cap (s : Chip) (d : Die) (w : Word) : ((s.writeCapture d (INJ_CAPCFG.ARM.write w 1)).die d).eng.cap
    = { (s.die d).eng.cap with start := (s.die d).eng.cap.start || !(s.engineRests d) } := by
  rw [writeCapture_of_arm]
  cases s.engineRests d <;> simp [Chip.updEng, writePending_eng]

end Chip

/-! ### The commands -/

theorem execInjGo_of_on {d : Die} {s : State} (h : s.chip.on d 4 = true) (n : Fin 4) (w : Word) :
    exec (.injGo d n w) s = .next { s with chip := s.chip.writeInjCfg d n (INJ_CFG.GO.write w 1) } := by
  change State.run s _ = _
  simp [h]

theorem execInjStop_of_on {d : Die} {s : State} (h : s.chip.on d 4 = true) (n : Fin 4) (w : Word) :
    exec (.injStop d n w) s = .next { s with chip := s.chip.writeInjCfg d n (INJ_CFG.STOP.write w 1) } := by
  change State.run s _ = _
  simp [h]

theorem execCaptureArm_of_on {d : Die} {s : State} (h : s.chip.on d 4 = true) (w : Word) :
    exec (.captureArm d w) s = .next { s with chip := s.chip.writeCapture d (INJ_CAPCFG.ARM.write w 1) } := by
  change State.run s _ = _
  simp [h]

open Chip in
/-- Settles O30: a PGEN_STEP is read generator by generator through the own step of each; the two orders are one write of INJ_CFG, and the
arming a write of INJ_CAPCFG, each of which notes the value in force. -/
theorem profilesInjectionAndCapture : Obligations.ProfilesInjectionAndCapture := by
  unfold Obligations.ProfilesInjectionAndCapture
  refine ⟨fun d n s x amax jerk ilim want hs hrun hx hn hamax hjerk hilim hwant => ?generators, fun d s hs hon => ⟨fun n w hfree => ?orders,
    fun n w g hfree hrests hw hg => ?rests, fun w => ?arming⟩⟩
  case generators =>
    have hgood := (wf_iff_good _).1 hs
    have hin := pgenSteps_within s.chip d
    refine ⟨fun hmode hhold => ⟨_, execPgenStep_of_runs hrun, ?_⟩, fun hmode hpos => ⟨_, execPgenStep_of_runs hrun, ?_⟩,
      fun hmode => ⟨_, execPgenStep_of_runs hrun, ?_⟩⟩
    · obtain ⟨hcurve, hnext, hlimit⟩ := pgenSteps_of_following hgood hx hn hamax hjerk hilim hwant hmode hhold
      exact ⟨hcurve, hnext, hlimit, hin.regs, hin.dies⟩
    · exact pgenSteps_of_stopping hgood hx hn hamax hmode hpos
    · exact pgenSteps_of_idle hgood hx hmode
  case orders =>
    have hgo := writeInjCfg_within hfree (INJ_CFG.GO.write w 1)
    have hstop := writeInjCfg_within hfree (INJ_CFG.STOP.write w 1)
    have hmode : INJ_CFG.MODE.read (INJ_CFG.GO.write w 1) = INJ_CFG.MODE.read w := Fld.read_write_ne _ _ _ _ (by decide)
    refine ⟨fun hworks => ⟨_, execInjGo_of_on hon n w, ⟨_, writeInjCfg_gens hfree _, writtenGen_go hworks n w⟩, fun hw => ?_,
      writeInjCfg_now hfree _, hgo.regs, hgo.dies⟩,
      _, execInjStop_of_on hon n w, ⟨_, writeInjCfg_gens hfree _, writtenGen_stop s.chip d n w⟩, hstop.regs, hstop.dies⟩
    exact (writeInjCfg_mode ((wf_iff_good _).1 hs) hfree (by rwa [hmode])).trans hmode
  case rests =>
    have hlt := (List.getElem?_eq_some_iff.1 hg).1
    exact ⟨_, execInjGo_of_on hon n w, by simp [writeInjCfg_gens hfree, hlt, writtenGen_of_rests hrests hg hw]⟩
  case arming =>
    have hin := writeCapture_within s.chip d w
    exact ⟨_, execCaptureArm_of_on hon w, writeCapture_reg ((wf_iff_good _).1 hs) w, writeCapture_now s.chip d w,
      writeCapture_cap s.chip d w, hin.regs, hin.dies⟩

end Sys2Proof.Machine
end
